-- ==== Sys2Proof/Word.lean ====
section
/-! DEFINITION. The word types of Quinnath and their plainest arithmetic (R9, R12, R34). -/

namespace Sys2Proof

/-- A byte of memory. -/
abbrev Byte := BitVec 8

/-- A general register, a program counter, an address with its tag. -/
abbrev Word := BitVec 64

/-- The contents of a vector register. -/
abbrev Vec := BitVec 512

/-- `fld x lo w` is the field of `w` bits of `x` whose lowest bit is `lo` (R9: `[lo+w-1 : lo]`). -/
def fld (x lo w : Nat) : Nat := x / 2 ^ lo % 2 ^ w

/-- The integer a `w`-bit pattern stands for, read as two's complement (R12 `SignExtend`). -/
def sx (w x : Nat) : Int :=
  let y := x % 2 ^ w
  if w = 0 then 0 else if y < 2 ^ (w - 1) then y else (y : Int) - 2 ^ w

/-- An unbounded integer stored in `w` bits (R12: modulo 2^w), as a natural number. -/
def wrap (w : Nat) (i : Int) : Nat := (i % (2 ^ w : Int)).toNat

/-- A register word from an unbounded integer (R12). -/
def toWord (i : Int) : Word := BitVec.ofInt 64 i

end Sys2Proof
end

