-- ==== Sys2Proof/Syntax.lean ====
section
/-! DEFINITION. The instructions of the opcode table, one constructor per row: every instruction form
with its operands already sorted into register classes and named modes (R56 to R72 and the encoding
tables of the chapters), and every event with what it names or brings in. -/

namespace Sys2Proof

/-! ### Registers and named modes -/

/-- g0 to g31 (R63). -/
abbrev GReg := BitVec 5
/-- v0 to v15 (R63). -/
abbrev VReg := BitVec 4
/-- p0 to p7 (R63). -/
abbrev PReg := BitVec 3
/-- a0 to a3 (R63). -/
abbrev AReg := BitVec 2
/-- A raw six-bit operand code (R63). -/
abbrev Code := BitVec 6

/-- A g or p operand (R116). -/
inductive GP where
  | g (r : GReg)
  | p (r : PReg)
  deriving DecidableEq, Repr

/-- A v or g operand (R166). -/
inductive VG where
  | v (r : VReg)
  | g (r : GReg)
  deriving DecidableEq, Repr

/-- Rounding modes (R46). -/
inductive RMode where
  | rne | rtz | rdn | rup | sr
  deriving DecidableEq, Repr

/-- Floating-point types (R35, R43). -/
inductive FloatTy where
  | f32 | bf16 | h16 | f64
  deriving DecidableEq, Repr

/-- MX element types (R40). -/
inductive MxTy where
  | e2m1 | e3m2 | e2m3 | i4
  deriving DecidableEq, Repr

/-- Conditions of `fcmp` (R140). -/
inductive FCond where
  | eq | lt | le | un | ne
  deriving DecidableEq, Repr

/-- Conditions of `cmp` (R121). -/
inductive ICond where
  | eq | ne | lt | ge | ltn | gen | tst | ntst
  deriving DecidableEq, Repr

/-- Conditions of `vcmp` (R167). -/
inductive VCond where
  | eq | ne | lt | le | un
  deriving DecidableEq, Repr

/-- Sign selections of `fsgn` (R141). -/
inductive SgnSel where
  | cp | neg | xor
  deriving DecidableEq, Repr

/-- Vector lane types (R154). -/
inductive VTy where
  | i8 | n8 | i16 | n16 | i32 | n32 | i64 | n64 | f32 | bf16 | h16
  deriving DecidableEq, Repr

/-- Combining operations of `vred` and `vscan` (R170). -/
inductive RedOp where
  | add | min | max | and | or | xor
  deriving DecidableEq, Repr

/-- Functions of `vfn` (R177). -/
inductive VFun where
  | rcp | rsqrt | exp2 | log2 | sinpi | cospi | tanh | sigm
  deriving DecidableEq, Repr

/-- Release and acquire scopes an instruction may name (R273). -/
inductive Scope where
  | core | quad | tile
  deriving DecidableEq, Repr

/-- Barrier scopes as encoded (R416). -/
inductive BScope where
  | core | quad | tile | colony
  deriving DecidableEq, Repr

/-- The wait field (R66): bit 0 is `.wq`, bit 1 is `.wh`. -/
abbrev WaitF := BitVec 2

/-! ### Operand records, one per encoding table -/

/-- R110, TL 1. -/
structure AluR where (d a b : GReg) (w n : Bool)
  deriving DecidableEq, Repr
/-- R110, TL 2. -/
structure AluI16 where (d a : GReg) (imm : BitVec 16) (w n : Bool)
  deriving DecidableEq, Repr
/-- R110, TL 3. -/
structure AluI32 where (d a : GReg) (imm : BitVec 32) (w n : Bool)
  deriving DecidableEq, Repr
/-- R113. -/
structure BitCnt where (d a : GReg) (w n : Bool)
  deriving DecidableEq, Repr
/-- R114 `bfx`: the field length is `lenM1` + 1. -/
structure Bfx where (d a : GReg) (pos lenM1 : BitVec 6) (n : Bool)
  deriving DecidableEq, Repr
/-- R114 `bfi`. -/
structure Bfi where (d a : GReg) (pos lenM1 : BitVec 6)
  deriving DecidableEq, Repr
/-- R115. -/
structure Sel where (d a b : GReg) (c : PReg)
  deriving DecidableEq, Repr
/-- R116. -/
structure Mov where (d a : GP)
  deriving DecidableEq, Repr
/-- R117, TL 2. -/
structure Li16 where (d : GReg) (imm : BitVec 16) (hi : Bool)
  deriving DecidableEq, Repr
/-- R117, TL 3. -/
structure Li32 where (d : GReg) (imm : BitVec 32) (hi : Bool)
  deriving DecidableEq, Repr
/-- R118, TL 2. -/
structure Lea16 where (d b : GReg) (imm : BitVec 16)
  deriving DecidableEq, Repr
/-- R118, TL 3. -/
structure Lea32 where (d b : GReg) (imm : BitVec 32)
  deriving DecidableEq, Repr
/-- R119 `ptag`. -/
structure Ptag where (d a : GReg) (fmt : BitVec 6) (bl : BitVec 3)
  deriving DecidableEq, Repr
/-- A g destination and a g operand. -/
structure GG where (d a : GReg)
  deriving DecidableEq, Repr
/-- R120: 8 × 2^s bits. -/
structure Ext where (d a : GReg) (s : BitVec 2) (n : Bool)
  deriving DecidableEq, Repr
/-- R121, TL 1. -/
structure CmpR where (d : PReg) (a b : GReg) (cc : ICond) (w : Bool)
  deriving DecidableEq, Repr
/-- R121, TL 2. -/
structure CmpI16 where (d : PReg) (a : GReg) (imm : BitVec 16) (cc : ICond) (w : Bool)
  deriving DecidableEq, Repr
/-- R121, TL 3. -/
structure CmpI32 where (d : PReg) (a : GReg) (imm : BitVec 32) (cc : ICond) (w : Bool)
  deriving DecidableEq, Repr
/-- R122, two sources. -/
structure PPP where (d a b : PReg)
  deriving DecidableEq, Repr
/-- R122 `pnot`. -/
structure PP where (d a : PReg)
  deriving DecidableEq, Repr
/-- R124, TL 2: the displacement in lines and the target slot of R61. -/
structure BrNear where (p : PReg) (f : Bool) (disp : BitVec 11) (slot : BitVec 5)
  deriving DecidableEq, Repr
/-- R124, TL 3. -/
structure BrFar where (p : PReg) (f : Bool) (disp : BitVec 27) (slot : BitVec 5)
  deriving DecidableEq, Repr
/-- R125 `jmp`, TL 2. -/
structure JmpNear where (disp : BitVec 11) (slot : BitVec 5)
  deriving DecidableEq, Repr
/-- R125 `jmp`, TL 3. -/
structure JmpFar where (disp : BitVec 27) (slot : BitVec 5)
  deriving DecidableEq, Repr
/-- R125 `jal` and R127 `loop`, TL 2. -/
structure JalNear where (d : GReg) (disp : BitVec 11) (slot : BitVec 5)
  deriving DecidableEq, Repr
/-- R125 `jal`, TL 3. -/
structure JalFar where (d : GReg) (disp : BitVec 27) (slot : BitVec 5)
  deriving DecidableEq, Repr
/-- R136, two sources and a rounding mode. -/
structure FArith where (d a b : GReg) (rm : RMode) (ft : FloatTy)
  deriving DecidableEq, Repr
/-- R136 `fma`. -/
structure FFma where (d a b c : GReg) (rm : RMode) (ft : FloatTy)
  deriving DecidableEq, Repr
/-- R136 `fsqrt`. -/
structure FUn where (d a : GReg) (rm : RMode) (ft : FloatTy)
  deriving DecidableEq, Repr
/-- R136 `fmin`, `fmax`. -/
structure FMinMax where (d a b : GReg) (ft : FloatTy)
  deriving DecidableEq, Repr
/-- R136 `fcmp`. -/
structure FCmp where (d : PReg) (a b : GReg) (cc : FCond) (ft : FloatTy)
  deriving DecidableEq, Repr
/-- R136 `fcvt`, R145 `dcvt`: source and destination format codes (R43). -/
structure FCvt where (d a : GReg) (src dst : BitVec 6) (rm : RMode) (sat : Bool)
  deriving DecidableEq, Repr
/-- R136 `fclass`. -/
structure FClass where (d a : GReg) (ft : FloatTy)
  deriving DecidableEq, Repr
/-- R136 `fsgn`. -/
structure FSgn where (d a b : GReg) (sg : SgnSel) (ft : FloatTy)
  deriving DecidableEq, Repr
/-- R269 `ld`, TL 2. -/
structure Ld16 where (d b : GReg) (imm : BitVec 16) (z : BitVec 2) (u : Bool) (wait : WaitF)
  deriving DecidableEq, Repr
/-- R269 `ld`, TL 3. -/
structure Ld32 where (d b : GReg) (imm : BitVec 32) (z : BitVec 2) (u : Bool) (wait : WaitF)
  deriving DecidableEq, Repr
/-- R269 `st`, TL 2. -/
structure St16 where (s b : GReg) (imm : BitVec 16) (z : BitVec 2) (wait : WaitF)
  deriving DecidableEq, Repr
/-- R269 `st`, TL 3. -/
structure St32 where (s b : GReg) (imm : BitVec 32) (z : BitVec 2) (wait : WaitF)
  deriving DecidableEq, Repr
/-- R269 `ldp`, `stp`, TL 2. -/
structure Pair16 where (r b : GReg) (imm : BitVec 16) (wait : WaitF)
  deriving DecidableEq, Repr
/-- R269 `ldp`, `stp`, TL 3. -/
structure Pair32 where (r b : GReg) (imm : BitVec 32) (wait : WaitF)
  deriving DecidableEq, Repr
/-- R273. -/
structure Sync where (scope : Scope) (wait : WaitF)
  deriving DecidableEq, Repr
/-- R274. -/
structure PWait where (d : GReg) (wait : WaitF)
  deriving DecidableEq, Repr
/-- R276 `tlook`, R278 `mwait`: a g destination, the operand OA and a wait field. -/
structure GAWait where (d a : GReg) (wait : WaitF)
  deriving DecidableEq, Repr
/-- R276 `tclr`, R278 `mon`, R281 `sbr`: a g destination, the operand OB and a wait field. -/
structure GBWait where (d b : GReg) (wait : WaitF)
  deriving DecidableEq, Repr
/-- R276 `tset`. -/
structure TSet where (d a b : GReg) (wait : WaitF)
  deriving DecidableEq, Repr
/-- R281 `sbw`. -/
structure Sbw where (b a : GReg) (wait : WaitF)
  deriving DecidableEq, Repr
/-- R282, 0x50 to 0x56. -/
structure Atom where (d b a : GReg) (w n acq rel : Bool) (wait : WaitF)
  deriving DecidableEq, Repr
/-- R282 `acas`. -/
structure ACas where (d b a c : GReg) (w n acq rel : Bool) (wait : WaitF)
  deriving DecidableEq, Repr
/-- R282 `afadd`. -/
structure AFAdd where (d b a : GReg) (ft : FloatTy) (n acq rel : Bool) (wait : WaitF)
  deriving DecidableEq, Repr
/-- R158 `vld`, `vst`, TL 2. -/
structure VMem where (v : VReg) (b om : GReg) (z : BitVec 2) (wait : WaitF)
  deriving DecidableEq, Repr
/-- R158 `vld`, `vst`, TL 3. -/
structure VMem32 where (v : VReg) (b om : GReg) (z : BitVec 2) (wait : WaitF) (imm : BitVec 32)
  deriving DecidableEq, Repr
/-- R158 `vldx`, `vstx`, TL 2. -/
structure VIdx where (v : VReg) (b : GReg) (c : VReg) (om : GReg) (sc z : BitVec 2) (wait : WaitF)
  deriving DecidableEq, Repr
/-- R158 `vldx`, `vstx`, TL 3. -/
structure VIdx32 where
  (v : VReg) (b : GReg) (c : VReg) (om : GReg) (sc z : BitVec 2) (wait : WaitF) (imm : BitVec 32)
  deriving DecidableEq, Repr
/-- R158 `vldf`, `vstf`, TL 2. -/
structure VFmtMem where
  (v : VReg) (b om : GReg) (kc : BitVec 2) (vt : VTy) (rm : RMode) (sat : Bool) (wait : WaitF)
  deriving DecidableEq, Repr
/-- R158 `vldf`, `vstf`, TL 3. -/
structure VFmtMem32 where
  (v : VReg) (b om : GReg) (kc : BitVec 2) (vt : VTy) (rm : RMode) (sat : Bool) (wait : WaitF)
  (imm : BitVec 32)
  deriving DecidableEq, Repr
/-- R156 `vadd`, `vsub`, `vmul`. -/
structure VArith where (d a b : VReg) (om : GReg) (vt : VTy) (rm : RMode) (sat : Bool)
  deriving DecidableEq, Repr
/-- R156 `vfma`. -/
structure VFma where (d a b c : VReg) (om : GReg) (vt : VTy) (rm : RMode) (sat : Bool)
  deriving DecidableEq, Repr
/-- R156 `vmin`, `vmax`, `vand`, `vor`, `vxor`, `vperm`. -/
structure VBin where (d a b : VReg) (om : GReg) (vt : VTy)
  deriving DecidableEq, Repr
/-- R156 `vabs`. -/
structure VAbs where (d a : VReg) (om : GReg) (vt : VTy) (sat : Bool)
  deriving DecidableEq, Repr
/-- R156 `vshl`. -/
structure VShl where (d a : VReg) (b : VG) (om : GReg) (vt : VTy) (sat : Bool)
  deriving DecidableEq, Repr
/-- R156 `vshr`. -/
structure VShr where (d a : VReg) (b : VG) (om : GReg) (vt : VTy)
  deriving DecidableEq, Repr
/-- R156 `vcmp`. -/
structure VCmp where (d : GReg) (a b : VReg) (om : GReg) (vt : VTy) (cc : VCond)
  deriving DecidableEq, Repr
/-- R156 `vsel`. -/
structure VSel where (d a b : VReg) (c om : GReg) (vt : VTy)
  deriving DecidableEq, Repr
/-- R156 `vcvt`. -/
structure VCvt where
  (d a : VReg) (om : GReg) (vt dst : VTy) (part : BitVec 3) (rm : RMode) (sat : Bool)
  deriving DecidableEq, Repr
/-- R156 `vred`. -/
structure VRed where (d : GReg) (a : VReg) (om : GReg) (vt : VTy) (op : RedOp) (rm : RMode) (sat : Bool)
  deriving DecidableEq, Repr
/-- R156 `vscan`. -/
structure VScan where
  (d a : VReg) (om : GReg) (vt : VTy) (op : RedOp) (rm : RMode) (sat ex : Bool)
  deriving DecidableEq, Repr
/-- R173: the value broadcast. -/
inductive BSrc where
  | g (r : GReg)
  | v (r : VReg) (idx : BitVec 6)
  deriving DecidableEq, Repr
/-- R156 `vbcast`. -/
structure VBcast where (d : VReg) (src : BSrc) (om : GReg) (vt : VTy)
  deriving DecidableEq, Repr
/-- R156 `vslide`. -/
structure VSlide where (d a b : VReg) (c om : GReg) (vt : VTy) (up : Bool)
  deriving DecidableEq, Repr
/-- R156 `vfn`. -/
structure VFn where (d a : VReg) (om : GReg) (vt : VTy) (fn : VFun) (rm : RMode) (sat : Bool)
  deriving DecidableEq, Repr
/-- R156 `vmov`. -/
structure VMov where (d a : VReg) (om : GReg) (vt : VTy)
  deriving DecidableEq, Repr
/-- R176: where the lane index comes from. -/
inductive LaneIdx where
  | imm (i : BitVec 6)
  | g (r : GReg)
  deriving DecidableEq, Repr
/-- R156 `vext`. -/
structure VExt where (d : GReg) (a : VReg) (idx : LaneIdx) (vt : VTy)
  deriving DecidableEq, Repr
/-- R156 `vins`. -/
structure VIns where (d : VReg) (a : GReg) (idx : LaneIdx) (vt : VTy)
  deriving DecidableEq, Repr
/-- The wait and signal fields of an engine command (R64). -/
structure Sig where (wsem wthr ssem sinc : BitVec 8)
  deriving DecidableEq, Repr
/-- R191 `mmq`. -/
structure Mmq where (acc : AReg) (a b c : GReg) (sig : Sig)
  deriving DecidableEq, Repr
/-- R191 `mmqg`. -/
structure Mmqg where (acc : AReg) (a b c : GReg) (iv : VReg) (sig : Sig)
  deriving DecidableEq, Repr
/-- R191 `mzero`. -/
structure Mzero where (acc : AReg) (sig : Sig)
  deriving DecidableEq, Repr
/-- R191 `mld`, `mst`. -/
structure MMem where (acc : AReg) (a b : GReg) (sig : Sig)
  deriving DecidableEq, Repr
/-- R191 `mqz`. -/
structure Mqz where (acc : AReg) (a b : GReg) (rm : RMode) (sat : Bool) (sig : Sig)
  deriving DecidableEq, Repr
/-- R191 `mdq`. -/
structure Mdq where (acc : AReg) (a b : GReg) (add : Bool) (sig : Sig)
  deriving DecidableEq, Repr
/-- R201, TL 2. -/
structure MgeoI where (d : GReg) (gorg gw : BitVec 6)
  deriving DecidableEq, Repr
/-- R202. -/
structure Msub where (dy dx : BitVec 8)
  deriving DecidableEq, Repr
/-- R289 `cpq`. -/
structure Cpq where (a b c : GReg) (sig : Sig)
  deriving DecidableEq, Repr
/-- R289 `cpqt`. -/
structure Cpqt where (d a b c : GReg) (sig : Sig)
  deriving DecidableEq, Repr
/-- R408: the value of a semaphore instruction. -/
inductive SemVal where
  | imm (v : BitVec 8)
  | g (r : GReg)
  deriving DecidableEq, Repr
/-- R408 `semw`. -/
structure SemW where (s : BitVec 8) (v : SemVal) (nc : Bool)
  deriving DecidableEq, Repr
/-- R408 `semt`. -/
structure SemT where (d : GReg) (s : BitVec 8) (v : SemVal) (nc : Bool)
  deriving DecidableEq, Repr
/-- R408 `semadd`, `semset`: register 0 as the core operand names the own core. -/
structure SemPut where (s : BitVec 8) (v : SemVal) (core : GReg)
  deriving DecidableEq, Repr
/-- R308 `chs`, `chr`: registers r to r + nM1. -/
structure ChReg where (r : GReg) (port : BitVec 8) (nM1 : BitVec 3)
  deriving DecidableEq, Repr
/-- R308 `chbs`. -/
structure ChBs where (d : GReg) (port : BitVec 8) (a b : GReg)
  deriving DecidableEq, Repr
/-- R308 `chbr`. -/
structure ChBr where (d : GReg) (port : BitVec 8) (a : GReg)
  deriving DecidableEq, Repr
/-- R308 `chq`. -/
structure ChQ where (d : GReg) (port : BitVec 8)
  deriving DecidableEq, Repr
/-- R315. -/
structure Alt where (d a b c : GReg)
  deriving DecidableEq, Repr
/-- R319 `spawn`. -/
structure Spawn where (a b : GReg)
  deriving DecidableEq, Repr
/-- R319 `spawnt`. -/
structure SpawnT where (d a b : GReg)
  deriving DecidableEq, Repr
/-- R318. -/
structure VSift where (d : GReg) (a : VReg) (b c om : GReg) (vt : VTy)
  deriving DecidableEq, Repr
/-- R416 `bar`, `bara`. -/
structure Bar where (d : GReg) (sc : BScope)
  deriving DecidableEq, Repr
/-- R416 `barw`. -/
structure BarW where (a : GReg) (sc : BScope)
  deriving DecidableEq, Repr
/-- R219: the index as encoded (R209). -/
structure Crd where (d : GReg) (idx : BitVec 12)
  deriving DecidableEq, Repr
/-- R220. -/
structure Cwr where (idx : BitVec 12) (a : GReg)
  deriving DecidableEq, Repr
/-- R367 `tlbi`. -/
structure Tlbi where (d a b : GReg) (mode : BitVec 2) (ca : Bool)
  deriving DecidableEq, Repr
/-- R395 `cload`. -/
structure CLoad where (d a b : GReg)
  deriving DecidableEq, Repr
/-- R395 `cbind`: LEN is `lenM1` + 1. -/
structure CBind where (a : GReg) (k : BitVec 5) (lenM1 : BitVec 6)
  deriving DecidableEq, Repr
/-- R145 `dadd`, `dsub`, `dmul`, `ddiv`. -/
structure DArith where (d a b : GReg) (rm : RMode)
  deriving DecidableEq, Repr
/-- R145 `dfma`. -/
structure DFma where (d a b c : GReg) (rm : RMode)
  deriving DecidableEq, Repr
/-- R145 `dsqrt`. -/
structure DUn where (d a : GReg) (rm : RMode)
  deriving DecidableEq, Repr
/-- R145 `vdfma`. -/
structure VDFma where (d a b c : VReg) (om : GReg) (rm : RMode)
  deriving DecidableEq, Repr
/-- R69, tail code 0. -/
structure Comb0 where (k : BitVec 5) (d : Code)
  deriving DecidableEq, Repr
/-- R69, tail code 1. -/
structure Comb1 where (k : BitVec 5) (d a b : Code)
  deriving DecidableEq, Repr
/-- R69, tail code 2. -/
structure Comb2 where (k : BitVec 5) (d a b : Code) (imm : BitVec 16)
  deriving DecidableEq, Repr
/-- R69, tail code 3. -/
structure Comb3 where (k : BitVec 5) (d a b : Code) (imm : BitVec 32)
  deriving DecidableEq, Repr

/-! ### What events name -/

/-- A vtile: partition, colony, x and y (R5, R15). -/
structure VtId where (part col x y : Nat)
  deriving DecidableEq, Repr

/-- A context: its vtile, logical core and slot (R335). -/
structure CtxId where (vt : VtId) (core slot : Nat)
  deriving DecidableEq, Repr

/-- A logical core of a vtile. -/
structure CoreId where (vt : VtId) (core : Nat)
  deriving DecidableEq, Repr

/-- A port of a vtile (R304). -/
structure PortId where (vt : VtId) (port : Nat)
  deriving DecidableEq, Repr

/-- A gang of a colony. -/
structure GangId where (part col gang : Nat)
  deriving DecidableEq, Repr

/-- A quad of a physical tile. -/
structure QuadId where (tile quad : Nat)
  deriving DecidableEq, Repr

/-- The units that R103 tests: row `row` of an SRAM array of the tile, the FP64 unit of a wide core (0 or 1), a core,
vector unit, matrix unit, router or NI, and a row or a channel of an HBM stack; and the places where a read finds an error,
corrected or lost: a word of the comb store of a physical core (R234), and a line of HBM (R242). -/
inductive UnitId where
  | sram (array row : Nat)
  | fp64 (w : Nat)
  | core
  | hbmRow (stack channel : Nat)
  | hbmChannel (stack channel : Nat)
  | combWord (core word : Nat) (lost : Bool)
  | hbmLine (line : Nat) (lost : Bool)
  deriving DecidableEq, Repr

/-- The arguments of the request that creates a partition (R447): its tiles, the curator tiles among them, its
granules, those that are system granules, its transform dies, the assignment of an engine to a tile (R295), the
curator colony's index, the park queue's capacity and the tenant image key. -/
structure NewPart where
  (tiles curTiles granules sys dies : List Nat) (engines : List (Nat × Nat)) (curcol parkcap : Nat)
  (imgKey : List Byte)
  deriving DecidableEq, Repr

/-- One side of a cross-partition grant (R453): its colony and vtile, the other partition, and that partition's
colony, or none for ALLC. -/
structure Grant where
  (col x y other : Nat) (otherCol : Option Nat)
  deriving DecidableEq, Repr

/-- What a drain of a save buffer finds (R97, R325): the router, and whether its buffer has lost a word of the packet. -/
structure Drain where
  (router : Nat) (lost : Bool)
  deriving DecidableEq, Repr

/-- What a repartitioning hands over (R27, R295): tiles, dies, and for each tile named the die of its engine. -/
structure Handover where
  (tiles dies : List Nat) (engines : List (Nat × Nat))
  deriving DecidableEq, Repr

/-- A partition, and the number of a record of its that the host names, or none to close one (R430). -/
structure RecordRef where
  (part : Nat) (named : Option Nat)
  deriving DecidableEq, Repr

/-- The rows of the opcode table: 216 instruction forms, the micro-op of a running sequence, and 145
events. -/
inductive Instr where
  /-- R111 Adds two g registers, with the .w and .n width and extension modifiers. -/
  | addReg (o : AluR)
  /-- R111 Adds a sign-extended 16-bit immediate to a g register. -/
  | addImm16 (o : AluI16)
  /-- R111 Adds a sign-extended 32-bit immediate to a g register. -/
  | addImm32 (o : AluI32)
  /-- R111 Subtracts one g register from another. -/
  | subReg (o : AluR)
  /-- R111 Subtracts a 16-bit immediate from a g register. -/
  | subImm16 (o : AluI16)
  /-- R111 Subtracts a 32-bit immediate from a g register. -/
  | subImm32 (o : AluI32)
  /-- R111 Writes the low half of the product of two g registers. -/
  | mulReg (o : AluR)
  /-- R111 Multiplies a g register by a 16-bit immediate. -/
  | mulImm16 (o : AluI16)
  /-- R111 Multiplies a g register by a 32-bit immediate. -/
  | mulImm32 (o : AluI32)
  /-- R111 Writes the upper half of the signed or unsigned product. -/
  | mulhReg (o : AluR)
  /-- R111 Writes the upper half of the product with a 16-bit immediate. -/
  | mulhImm16 (o : AluI16)
  /-- R111 Writes the upper half of the product with a 32-bit immediate. -/
  | mulhImm32 (o : AluI32)
  /-- R111 Divides with a truncated quotient, using the shared divider. -/
  | divReg (o : AluR)
  /-- R111 Divides by a 16-bit immediate. -/
  | divImm16 (o : AluI16)
  /-- R111 Divides by a 32-bit immediate. -/
  | divImm32 (o : AluI32)
  /-- R111 Writes the remainder, which takes the sign of the dividend. -/
  | remReg (o : AluR)
  /-- R111 Writes the remainder of division by a 16-bit immediate. -/
  | remImm16 (o : AluI16)
  /-- R111 Writes the remainder of division by a 32-bit immediate. -/
  | remImm32 (o : AluI32)
  /-- R111 Writes the bitwise and of two g registers. -/
  | andReg (o : AluR)
  /-- R111 Writes the bitwise and with a 16-bit immediate. -/
  | andImm16 (o : AluI16)
  /-- R111 Writes the bitwise and with a 32-bit immediate. -/
  | andImm32 (o : AluI32)
  /-- R111 Writes the bitwise or of two g registers. -/
  | orReg (o : AluR)
  /-- R111 Writes the bitwise or with a 16-bit immediate. -/
  | orImm16 (o : AluI16)
  /-- R111 Writes the bitwise or with a 32-bit immediate. -/
  | orImm32 (o : AluI32)
  /-- R111 Writes the bitwise exclusive or of two g registers. -/
  | xorReg (o : AluR)
  /-- R111 Writes the bitwise exclusive or with a 16-bit immediate. -/
  | xorImm16 (o : AluI16)
  /-- R111 Writes the bitwise exclusive or with a 32-bit immediate. -/
  | xorImm32 (o : AluI32)
  /-- R111 Writes a and not b, bit by bit. -/
  | andnReg (o : AluR)
  /-- R111 Writes a and not a 16-bit immediate. -/
  | andnImm16 (o : AluI16)
  /-- R111 Writes a and not a 32-bit immediate. -/
  | andnImm32 (o : AluI32)
  /-- R111 Shifts left by a register count. -/
  | shlReg (o : AluR)
  /-- R112 Shifts left by a checked immediate count. -/
  | shlImm16 (o : AluI16)
  /-- R112 Shifts left by a checked 32-bit immediate count. -/
  | shlImm32 (o : AluI32)
  /-- R111 Shifts right logically by a register count. -/
  | shrReg (o : AluR)
  /-- R112 Shifts right logically by an immediate count. -/
  | shrImm16 (o : AluI16)
  /-- R112 Shifts right logically by a 32-bit immediate count. -/
  | shrImm32 (o : AluI32)
  /-- R111 Shifts right arithmetically by a register count. -/
  | sarReg (o : AluR)
  /-- R112 Shifts right arithmetically by an immediate count. -/
  | sarImm16 (o : AluI16)
  /-- R112 Shifts right arithmetically by a 32-bit immediate count. -/
  | sarImm32 (o : AluI32)
  /-- R111 Rotates right by a register count. -/
  | rotReg (o : AluR)
  /-- R112 Rotates right by an immediate count. -/
  | rotImm16 (o : AluI16)
  /-- R112 Rotates right by a 32-bit immediate count. -/
  | rotImm32 (o : AluI32)
  /-- R111 Writes the lesser operand, signed or unsigned. -/
  | minReg (o : AluR)
  /-- R111 Writes the lesser of a register and a 16-bit immediate. -/
  | minImm16 (o : AluI16)
  /-- R111 Writes the lesser of a register and a 32-bit immediate. -/
  | minImm32 (o : AluI32)
  /-- R111 Writes the greater operand, signed or unsigned. -/
  | maxReg (o : AluR)
  /-- R111 Writes the greater of a register and a 16-bit immediate. -/
  | maxImm16 (o : AluI16)
  /-- R111 Writes the greater of a register and a 32-bit immediate. -/
  | maxImm32 (o : AluI32)
  /-- R113 Counts the leading zero bits. -/
  | clz (o : BitCnt)
  /-- R113 Counts the trailing zero bits. -/
  | ctz (o : BitCnt)
  /-- R113 Counts the one bits. -/
  | popc (o : BitCnt)
  /-- R114 Extracts a bit field, with sign or zero extension. -/
  | bfx (o : Bfx)
  /-- R114 Inserts a bit field into the destination. -/
  | bfi (o : Bfi)
  /-- R115 Selects one of two g registers by a predicate. -/
  | sel (o : Sel)
  /-- R116 Moves between g and p registers. -/
  | mov (o : Mov)
  /-- R117 Loads a 16-bit immediate into a g register, or into its upper half with .hi. -/
  | liImm16 (o : Li16)
  /-- R117 Loads a 32-bit immediate into a g register, or into its upper half with .hi. -/
  | liImm32 (o : Li32)
  /-- R118 Adds a 16-bit offset modulo 2^48 and keeps the tag bits. -/
  | leaOff16 (o : Lea16)
  /-- R118 Adds a 32-bit offset modulo 2^48 and keeps the tag bits. -/
  | leaOff32 (o : Lea32)
  /-- R119 Sets the FMT and BL fields of a fat pointer. -/
  | ptag (o : Ptag)
  /-- R119 Reads the FMT and BL fields of a fat pointer. -/
  | pget (o : GG)
  /-- R120 Sign-extends or zero-extends the low 8, 16 or 32 bits. -/
  | ext (o : Ext)
  /-- R121 Compares two g registers into a predicate. -/
  | cmpReg (o : CmpR)
  /-- R121 Compares a g register with a 16-bit immediate. -/
  | cmpImm16 (o : CmpI16)
  /-- R121 Compares a g register with a 32-bit immediate. -/
  | cmpImm32 (o : CmpI32)
  /-- R122 Writes the and of two predicates. -/
  | pand (o : PPP)
  /-- R122 Writes the or of two predicates. -/
  | por (o : PPP)
  /-- R122 Writes the exclusive or of two predicates. -/
  | pxor (o : PPP)
  /-- R122 Writes the inverse of a predicate. -/
  | pnot (o : PP)
  /-- R124 Branches on a predicate, with an 11-bit line displacement. -/
  | brNear (o : BrNear)
  /-- R124 Branches on a predicate, with a 27-bit line displacement. -/
  | brFar (o : BrFar)
  /-- R125 Jumps to a near PC-relative target. -/
  | jmpNear (o : JmpNear)
  /-- R125 Jumps to a far PC-relative target. -/
  | jmpFar (o : JmpFar)
  /-- R125 Jumps to a near target and links NextPC. -/
  | jalNear (o : JalNear)
  /-- R125 Jumps to a far target and links NextPC. -/
  | jalFar (o : JalFar)
  /-- R126 Jumps to a register target, with an optional link. -/
  | jr (o : GG)
  /-- R127 Decrements a count and branches while the count is not zero. -/
  | loop (o : JalNear)
  /-- R128 Advances the PC and has no other effect. -/
  | nop
  /-- R137 Scalar floating-point add, rounded once. -/
  | fadd (o : FArith)
  /-- R137 Scalar floating-point subtract. -/
  | fsub (o : FArith)
  /-- R137 Scalar floating-point multiply. -/
  | fmul (o : FArith)
  /-- R137 Scalar fused multiply-add. -/
  | fma (o : FFma)
  /-- R137 Scalar divide on the shared divide and square-root unit. -/
  | fdiv (o : FArith)
  /-- R137 Scalar square root. -/
  | fsqrt (o : FUn)
  /-- R138 Writes the lesser operand, with NaN handling. -/
  | fmin (o : FMinMax)
  /-- R138 Writes the greater operand, with NaN handling. -/
  | fmax (o : FMinMax)
  /-- R140 Compares two floating-point values into a predicate. -/
  | fcmp (o : FCmp)
  /-- R142 Converts between scalar formats and sets the status flags. -/
  | fcvt (o : FCvt)
  /-- R139 Writes a one-hot class mask of a value. -/
  | fclass (o : FClass)
  /-- R141 Copies, negates or exclusive-ors the sign bit. -/
  | fsgn (o : FSgn)
  /-- R270 Loads 1 to 8 bytes at base plus a 16-bit offset. -/
  | ldOff16 (o : Ld16)
  /-- R270 Loads 1 to 8 bytes at base plus a 32-bit offset. -/
  | ldOff32 (o : Ld32)
  /-- R270 Stores 1 to 8 bytes at base plus a 16-bit offset. -/
  | stOff16 (o : St16)
  /-- R270 Stores 1 to 8 bytes at base plus a 32-bit offset. -/
  | stOff32 (o : St32)
  /-- R271 Loads 16 bytes into a register pair. -/
  | ldpOff16 (o : Pair16)
  /-- R271 Loads 16 bytes into a register pair, with a 32-bit offset. -/
  | ldpOff32 (o : Pair32)
  /-- R271 Stores a register pair as 16 bytes. -/
  | stpOff16 (o : Pair16)
  /-- R271 Stores a register pair as 16 bytes, with a 32-bit offset. -/
  | stpOff32 (o : Pair32)
  /-- R273 Performs an acquire at the given scope. -/
  | acq (o : Sync)
  /-- R273 Performs a release at the given scope. -/
  | rel (o : Sync)
  /-- R273 Performs a release and then an acquire. -/
  | fence (o : Sync)
  /-- R274 Writes the posted counts H and Q. -/
  | pwait (o : PWait)
  /-- R276 Looks up a heap line group in the quad's tag table. -/
  | tlook (o : GAWait)
  /-- R276 Installs a tag-table entry and returns the old one. -/
  | tset (o : TSet)
  /-- R276 Clears a tag-table entry and returns the old one. -/
  | tclr (o : GBWait)
  /-- R278 Reads a word at home and arms the context's monitor. -/
  | mon (o : GBWait)
  /-- R278 Waits for the monitor to fire or its limit to pass, then acquires. -/
  | mwait (o : GAWait)
  /-- R281 Reads the free side bits of a heap line. -/
  | sbr (o : GBWait)
  /-- R281 Writes the free side bits of a heap line. -/
  | sbw (o : Sbw)
  /-- R283 Atomic add performed at home. -/
  | aadd (o : Atom)
  /-- R283 Atomic minimum. -/
  | amin (o : Atom)
  /-- R283 Atomic maximum. -/
  | amax (o : Atom)
  /-- R283 Atomic bitwise and. -/
  | aand (o : Atom)
  /-- R283 Atomic bitwise or. -/
  | aor (o : Atom)
  /-- R283 Atomic bitwise exclusive or. -/
  | axor (o : Atom)
  /-- R283 Atomic swap. -/
  | aswp (o : Atom)
  /-- R283 Atomic compare-and-swap. -/
  | acas (o : ACas)
  /-- R283 Atomic floating-point add. -/
  | afadd (o : AFAdd)
  /-- R160 Loads 64 consecutive bytes into a v register. -/
  | vldNoOffset (o : VMem)
  /-- R160 Vector load with a 32-bit byte offset. -/
  | vldOff32 (o : VMem32)
  /-- R160 Stores a v register as 64 consecutive bytes. -/
  | vstNoOffset (o : VMem)
  /-- R160 Vector store with a 32-bit byte offset. -/
  | vstOff32 (o : VMem32)
  /-- R161 Gathers 32-bit or 64-bit lanes by an index register. -/
  | vldxNoOffset (o : VIdx)
  /-- R161 Gather with a 32-bit byte offset. -/
  | vldxOff32 (o : VIdx32)
  /-- R161 Scatters lanes by an index register. -/
  | vstxNoOffset (o : VIdx)
  /-- R161 Scatter with a 32-bit byte offset. -/
  | vstxOff32 (o : VIdx32)
  /-- R162 Loads and converts tagged-format elements into a register group. -/
  | vldfNoOffset (o : VFmtMem)
  /-- R162 Format-converting load with an element offset. -/
  | vldfOff32 (o : VFmtMem32)
  /-- R163 Converts, or quantises to MX, and stores a register group. -/
  | vstfNoOffset (o : VFmtMem)
  /-- R163 Format-converting store with an element offset. -/
  | vstfOff32 (o : VFmtMem32)
  /-- R164 Adds lanes. -/
  | vadd (o : VArith)
  /-- R164 Subtracts lanes. -/
  | vsub (o : VArith)
  /-- R164 Multiplies lanes. -/
  | vmul (o : VArith)
  /-- R164 Fused multiply-add on lanes. -/
  | vfma (o : VFma)
  /-- R164 Writes the lesser lane. -/
  | vmin (o : VBin)
  /-- R164 Writes the greater lane. -/
  | vmax (o : VBin)
  /-- R164 Writes the absolute value of each lane. -/
  | vabs (o : VAbs)
  /-- R165 Bitwise and of two v registers. -/
  | vand (o : VBin)
  /-- R165 Bitwise or of two v registers. -/
  | vor (o : VBin)
  /-- R165 Bitwise exclusive or of two v registers. -/
  | vxor (o : VBin)
  /-- R166 Shifts lanes left. -/
  | vshl (o : VShl)
  /-- R166 Shifts lanes right. -/
  | vshr (o : VShr)
  /-- R167 Compares lanes into a g-register lane mask. -/
  | vcmp (o : VCmp)
  /-- R168 Selects lanes by a g-register mask. -/
  | vsel (o : VSel)
  /-- R169 Converts one part of the lanes between lane types. -/
  | vcvt (o : VCvt)
  /-- R171 Reduces the enabled lanes into a g register. -/
  | vred (o : VRed)
  /-- R172 Writes running combinations of the lanes. -/
  | vscan (o : VScan)
  /-- R173 Broadcasts a value to the enabled lanes. -/
  | vbcast (o : VBcast)
  /-- R174 Permutes lanes by an index register. -/
  | vperm (o : VBin)
  /-- R175 Funnels two registers by a count. -/
  | vslide (o : VSlide)
  /-- R177 Evaluates an approximated function on each lane. -/
  | vfn (o : VFn)
  /-- R168 Copies the enabled lanes. -/
  | vmov (o : VMov)
  /-- R176 Moves one lane into a g register. -/
  | vext (o : VExt)
  /-- R176 Inserts a g register into one lane. -/
  | vins (o : VIns)
  /-- R195 Checks and pushes a matrix multiply-accumulate command. -/
  | mmq (o : Mmq)
  /-- R196 Pushes a matrix multiply with the rows of A gathered. -/
  | mmqg (o : Mmqg)
  /-- R197 Pushes a command that zeroes an accumulator. -/
  | mzero (o : Mzero)
  /-- R198 Pushes a command that loads an accumulator from memory. -/
  | mld (o : MMem)
  /-- R198 Pushes a command that stores an accumulator to memory. -/
  | mst (o : MMem)
  /-- R199 Pushes a command that converts or quantises an accumulator and stores it. -/
  | mqz (o : Mqz)
  /-- R200 Pushes a command that dequantises into an accumulator, optionally adding. -/
  | mdq (o : Mdq)
  /-- R201 Writes cgeo from a register and returns the old value. -/
  | mgeoReg (o : GG)
  /-- R201 Sets GORG and GW from an immediate and zeroes BY and BX. -/
  | mgeoImm (o : MgeoI)
  /-- R202 Moves the block origin BY and BX. -/
  | msub (o : Msub)
  /-- R203 Waits until every matrix command of the context has completed. -/
  | mdrain
  /-- R204 Writes the context's matrix status. -/
  | mstat (d : GReg)
  /-- R291 Pushes a copy or transform command, blocking when the FIFO is full or held. -/
  | cpq (o : Cpq)
  /-- R291 Tries to push a copy command and returns a status without blocking. -/
  | cpqt (o : Cpqt)
  /-- R409 Waits on a semaphore threshold, then acquires. -/
  | semw (o : SemW)
  /-- R410 Tests a semaphore and takes it without waiting. -/
  | semt (o : SemT)
  /-- R411 Releases, then adds to a semaphore of the own or another core. -/
  | semadd (o : SemPut)
  /-- R411 Sets a semaphore value and examines its waiters. -/
  | semset (o : SemPut)
  /-- R412 Reads a semaphore value. -/
  | semget (o : GG)
  /-- R309 Releases and offers n registers on a port, blocking until acknowledged. -/
  | chs (o : ChReg)
  /-- R309 Receives n registers from a port and acquires. -/
  | chr (o : ChReg)
  /-- R315 Selects and commits a ready alternative in rotation. -/
  | alt (o : Alt)
  /-- R311 Offers a bulk send and blocks until the transfer ends. -/
  | chbs (o : ChBs)
  /-- R311 Receives a bulk transfer into memory. -/
  | chbr (o : ChBr)
  /-- R314 Reads the state of a port. -/
  | chq (o : ChQ)
  /-- R319 Sends a forager, blocking on quota, on absence or on a full queue. -/
  | spawn (o : Spawn)
  /-- R319 Tries to send a forager and returns a status. -/
  | spawnt (o : SpawnT)
  /-- R345 Waits for the context's commands, releases and ends the process. -/
  | pend
  /-- R346 Passes the slot's turn on. -/
  | yield
  /-- R318 Sends the lanes above a threshold as an 8-word message and zeroes them. -/
  | vsift (o : VSift)
  /-- R339 Waits, as leader, to form a swarm of n cores. -/
  | swl (o : GG)
  /-- R339 Waits to join the swarm of a leader core. -/
  | swj (o : GG)
  /-- R344 Leaves the swarm. -/
  | split
  /-- R343 Merges detached swarm members again. -/
  | rejoin
  /-- R417 Arrives at a barrier generation and waits for it. -/
  | bar (o : Bar)
  /-- R417 Arrives at a barrier generation without waiting. -/
  | bara (o : Bar)
  /-- R417 Waits for a barrier generation to complete. -/
  | barw (o : BarW)
  /-- R347 Writes the context's core, slot and swarm identity. -/
  | whoami (d : GReg)
  /-- R216 Raises the trap cause to the handler. -/
  | trap (imm : BitVec 16)
  /-- R218 Returns from the handler, reloading a comb frame if any. -/
  | tret
  /-- R219 Reads a control register. -/
  | crd (o : Crd)
  /-- R220 Writes a control register, subject to its checks. -/
  | cwr (o : Cwr)
  /-- R216 Raises the breakpoint cause. -/
  | brk (imm : BitVec 16)
  /-- R221 Reads the time base. -/
  | rdtime (d : GReg)
  /-- R422 Sets the watchdog reload and restarts the count. -/
  | wdog (imm : BitVec 16)
  /-- R222 Blocks until the monitor fires, a cause is pending or 65,536 cycles pass. -/
  | idle
  /-- R368 Invalidates translations of target vtiles, or harvests A and D bits. -/
  | tlbi (o : Tlbi)
  /-- R395 Copies micro-op words into the comb region and unbinds overlapped bindings. -/
  | cload (o : CLoad)
  /-- R396 Validates a micro-op sequence and binds a comb opcode to it. -/
  | cbind (o : CBind)
  /-- R395 Clears the bindings named in a mask. -/
  | cunbind (a : GReg)
  /-- R146 f64 add on a wide core. -/
  | dadd (o : DArith)
  /-- R146 f64 subtract on a wide core. -/
  | dsub (o : DArith)
  /-- R146 f64 multiply on a wide core. -/
  | dmul (o : DArith)
  /-- R146 f64 fused multiply-add on a wide core. -/
  | dfma (o : DFma)
  /-- R146 f64 divide on a wide core. -/
  | ddiv (o : DArith)
  /-- R146 f64 square root on a wide core. -/
  | dsqrt (o : DUn)
  /-- R147 Converts to or from f64 on a wide core. -/
  | dcvt (o : FCvt)
  /-- R148 Fused multiply-add on eight f64 lanes on a wide core. -/
  | vdfma (o : VDFma)
  /-- R397 Invokes a bound micro-op sequence with no tail. -/
  | combTail0 (o : Comb0)
  /-- R397 Invokes a bound sequence with operands a and b. -/
  | combTail1 (o : Comb1)
  /-- R397 Invokes a bound sequence with a 16-bit immediate. -/
  | combTail2 (o : Comb2)
  /-- R397 Invokes a bound sequence with a 32-bit immediate. -/
  | combTail3 (o : Comb3)
  /-- R393 One micro-op of a running comb sequence issues and executes. -/
  | combMicroOp
  /-- R26 The move of a context to a wide core completes, and the wide opcode executes there. -/
  | extensionMoveComplete (c : CtxId)
  /-- R26 A wide-core slot empties and the oldest migrating context moves into it. -/
  | migratingContextMove (v : VtId)
  /-- R80 A pending asynchronous cause is taken at the next boundary, abandoning any blocked state. -/
  | asyncCauseTaken (c : CtxId)
  /-- R88 The partition's fault queue accepts a waiting message and assigns its SEQ. -/
  | faultMessageAccepted (p : Nat)
  /-- R91 The curator's resume command makes a parked context ready again, or restarts a held engine command. -/
  | resume (p : Nat)
  /-- R91 The curator's resume-at command readies a parked context at a new PC. -/
  | resumeAt (p : Nat)
  /-- R91 The curator's remove command ends a process as if by pend. -/
  | remove (p : Nat)
  /-- R91 The curator's command delivers a cause to the context's handler. -/
  | toHandler (p : Nat)
  /-- R91 The curator's command places a lost gang afresh. -/
  | restartGang (p : Nat)
  /-- R91 The curator's command queues a gang for residency. -/
  | summon (p : Nat)
  /-- R307 A peer's register or bulk offer arrives at a port. -/
  | offerArrival (p : PortId)
  /-- R307 A peer's ready notice arrives at a port. -/
  | readyNoticeArrival (p : PortId)
  /-- R307 The acknowledgement of a register rendezvous reaches the sender, which completes. -/
  | acknowledgementArrival (p : PortId)
  /-- R307 The bulk start reaches the sender, and data steps begin. -/
  | startArrival (p : PortId)
  /-- R307 A commit notice from an alt reaches the committed partner. -/
  | commitNoticeArrival (p : PortId)
  /-- R307 A release notice returns a committed partner to plain waiting. -/
  | releaseNoticeArrival (p : PortId)
  /-- R307 A peer's withdrawal discards the held notice and cancels any commitment. -/
  | withdrawalArrival (p : PortId)
  /-- R313 One step of bulk data is performed at the receiver and P falls. -/
  | bulkDataStep (p : PortId)
  /-- R321 A forager offered to a vtile is accepted into its arrival queue or spill area, or refused. -/
  | foragerArrival (v : VtId)
  /-- R319 A blocked spawn refused as full is offered again every 256 network cycles. -/
  | spawnRetry (c : CtxId)
  /-- R322 The head forager starts a process in an empty slot and acquires. -/
  | foragerStart (v : VtId)
  /-- R326 A context's probe count reaches cprobe and a wait-graph probe launches. -/
  | probeLaunch (c : CtxId)
  /-- R330 A probe finds and confirms a knot, and deadlock messages are sent. -/
  | deadlockReport (c : CtxId)
  /-- R418 The wafer AND-tree reaches 1, CG advances and release is broadcast. -/
  | colonyTreeRelease (p : Nat) (k : Nat)
  /-- R418 A freed tree channel goes to the first waiting colony, which returns to the head of its run queue. -/
  | treeChannelAssigned
  /-- R293 The quad copy engine moves one 128-byte step of a plain or strided copy. -/
  | copyStep (k : CoreId)
  /-- R294 The transform engine packs one source block. -/
  | packStep (k : CoreId)
  /-- R294 The transform engine unpacks one block, poisoning malformed output. -/
  | unpackStep (k : CoreId)
  /-- R294 The transform engine adds source elements into the destination. -/
  | reduceStep (k : CoreId)
  /-- R193 A matrix command translates and reads its operands into its latch. -/
  | matrixFetch (k : CoreId)
  /-- R193 A matrix command updates its accumulator or performs its memory writes. -/
  | matrixEffect (k : CoreId)
  /-- R193 A matrix command makes its signal and updates DONE, QN and BUSY. -/
  | matrixCompletion (k : CoreId)
  /-- R251 A posted store is performed at its bank and Q falls. -/
  | postedStorePerformed (c : CtxId) (i : Nat)
  /-- R251 A write-through is performed at home and H falls. -/
  | writeThroughPerformed (k : CoreId) (line : Nat)
  /-- R237 A heap line read at the rim controller returns and is installed, or faults. -/
  | cacheFill (k : CoreId) (line : Nat) (err : Nat)
  /-- R284 An atomic performed at home returns its result to the context. -/
  | atomicResultReturn (c : CtxId)
  /-- R358 A walk finishes, installing a translation or raising a fault. -/
  | pageWalk (v : VtId) (vpn : Nat)
  /-- R231 The background scrub reads a quad-memory word, and is forced after 4,096 busy cycles. -/
  | scrubRead (v : VtId) (a : Nat) (err : Nat)
  /-- R103 A targeted self-test ends, sparing a row, retiring a tile or returning it. -/
  | selfTestComplete (t : Nat) (u : UnitId) (lasting : Bool)
  /-- R25 The wafer manager starts moving a hot core's contexts to an idle core. -/
  | thermalMigration (q : QuadId)
  /-- R25 A thermal migration completes, rewrites the LPCT and sends thermal-migrated. -/
  | thermalMigrationComplete (t : Nat)
  /-- R95 The wafer manager sends the stop notice carrying T. -/
  | stopNotice (g : GangId) (t : Nat)
  /-- R95 A tile missing the acknowledgement deadline causes the notice to be reissued. -/
  | stopAckDeadline (g : GangId) (tile : Nat)
  /-- R96 At T, every tile of the set stops issue and the flush begins. -/
  | stopCount (g : GangId)
  /-- R97 A flush token reaches a router, which is swept once it holds tokens on every input. -/
  | flushTokenArrival (g : GangId) (r : Nat)
  /-- R97 A router's save buffer drains to the park queue. -/
  | saveBufferDrain (g : GangId) (d : Drain)
  /-- R98 A settled and flushed tile writes its context to the gang's save area. -/
  | tileContextSave (v : VtId)
  /-- R98 A tile's last save write lands, and the gang becomes absent when all are done. -/
  | tileSaveDone (v : VtId)
  /-- R101 The save timeout expires, and the gang is marked lost. -/
  | saveTimeout (g : GangId)
  /-- R23 The gang scheduler places the head gang on free working tiles. -/
  | gangPlacement (p : Nat) (start : Nat)
  /-- R100 Every tile of a restored gang resumes issue at the agreed start count. -/
  | gangStartCount (g : GangId)
  /-- R352 A resident gang reaches its quantum and may be swapped out for the waiting head. -/
  | quantumExpiry (g : GangId)
  /-- R421 COUNT falls from 1 to 0, is reloaded, and watchdog is raised. -/
  | watchdogExpiry (c : CtxId)
  /-- R278 A mwait time limit passes, and it completes with status 1. -/
  | mwaitLimitExpiry (c : CtxId)
  /-- R315 The alt timeout alternative becomes ready. -/
  | altTimeout (c : CtxId)
  /-- R341 A waiting swl or swj reaches its limit and continues with status 2. -/
  | swarmFormationTimeout (c : CtxId)
  /-- R222 An idle wait ends after 65,536 cycles. -/
  | idleTimeout (c : CtxId)
  /-- R425 At each refill boundary, recalls, repayments and refills are settled. -/
  | tokenRefill
  /-- R430 The log interval passes and an accession record is closed. -/
  | logIntervalClose (p : Nat)
  /-- R436 A quad's sensor sample throttles it, or restarts its hold timer. -/
  | thermalSample (q : QuadId) (reading : Nat)
  /-- R436 The hold timer reaches 1 ms and the quad is unthrottled. -/
  | holdTimerExpiry (q : QuadId)
  /-- R435 The transition timer reaches 1 ms, and a held operating-point change is made. -/
  | transitionTimerExpiry (q : QuadId)
  /-- R435 The arbiter changes a quad's granted point, stalling issue for 600 cycles. -/
  | operatingPointGrant (q : QuadId) (op : Nat)
  /-- R438 The arbiter lengthens or shortens a bank's activation window. -/
  | activationWindowAdjust (bank : Nat) (longer : Bool)
  /-- R440 After 6,000 idle cycles, a quad stops its clocks at retention. -/
  | quadSleep (q : QuadId)
  /-- R441 An access or event reaching a sleeping quad starts its wake. -/
  | quadWake (q : QuadId)
  /-- R441 The wake ends and the held accesses are performed in arrival order. -/
  | quadWakeComplete (q : QuadId)
  /-- R442 A quad of a tile with no resident vtile and no outstanding access is powered off. -/
  | quadPowerOff (q : QuadId)
  /-- R245 A cleared granule's zeroing ends, its bit clears, and waiting accesses proceed. -/
  | granuleZeroingComplete (g : Nat)
  /-- R246 One line is re-encrypted under the new key. -/
  | keyReencryptLine (line : Nat)
  /-- R242 After the drain, a granule's lines are re-encoded under the new grade. -/
  | gradeReencode (g : Nat)
  /-- R241 One line of a remapped channel is copied to the spare channel. -/
  | hbmRemapLineCopy (stack : Nat)
  /-- R385 The curator reads a port table entry through RTGO. -/
  | rtgoPortRead (c : CtxId)
  /-- R381 The curator writes or removes a port declaration. -/
  | rtgoPortWrite (c : CtxId)
  /-- R385 The curator reads a channel permission entry. -/
  | rtgoPermissionRead (c : CtxId)
  /-- R382 The curator writes a channel permission entry. -/
  | rtgoPermissionWrite (c : CtxId)
  /-- R385 The curator reads a vtile map entry. -/
  | rtgoVtileMapRead (c : CtxId)
  /-- R378 The curator writes a vtile's page-table ROOT. -/
  | rtgoRootWrite (c : CtxId)
  /-- R385 The curator reads SPCAP. -/
  | rtgoSpillRead (c : CtxId)
  /-- R383 The curator sets a vtile's spill capacity. -/
  | rtgoSpillWrite (c : CtxId)
  /-- R385 The curator reads a colony entry. -/
  | rtgoColonyRead (c : CtxId)
  /-- R376 The curator writes SUMMON and FAULTVT of a colony entry. -/
  | rtgoColonyWrite (c : CtxId)
  /-- R385 The curator reads its partition entry. -/
  | rtgoPartitionRead (c : CtxId)
  /-- R385 The curator reads an LPCT entry. -/
  | rtgoLpctRead (c : CtxId)
  /-- R385 The curator reads the engine assignment entries. -/
  | rtgoEngineRead (c : CtxId)
  /-- R385 The curator reads a granule table entry. -/
  | rtgoGranuleRead (c : CtxId)
  /-- R385 An RTGO value or table operation that is not allowed sets a refusal status. -/
  | rtgoRefused (c : CtxId)
  /-- R385 A write to a register with no behaviour of its own, such as RTSEL or RTD0-RTD3, or to an unoccupied offset. -/
  | plainRegisterWrite (c : CtxId) (off : Nat) (w : Word)
  /-- R446 The host writes its request count and new requests are taken or REQERR is set. -/
  | doorbell (f : Nat) (count : Nat) (es : List (List Word))
  /-- R446 The host returns consumed event entries, or sets EVERR. -/
  | eventDoorbell (f : Nat) (count : Nat)
  /-- R449 The host writes 1 to clear REQERR or EVERR. -/
  | errorBitsClear (f : Nat) (w : Word)
  /-- R297 The host writes a queue's NOTIFY, waking the dispatcher or setting ERR. -/
  | notify (f : Nat) (q : Nat) (w : Word)
  /-- R297 The host writes 1 to clear a host queue's ERR. -/
  | errClear (f : Nat) (q : Nat) (w : Word)
  /-- R445 A host or peer write through a BAR4 window is performed at home. -/
  | bar4Write (f : Nat) (off : Nat) (bs : List Byte)
  /-- R299 The dispatcher reads a packet, refuses it or launches its forager, and advances RD. -/
  | dispatchPacket (q : Nat)
  /-- R447 Creates a partition with tiles, granules, engines and a tenant image key. -/
  | createPartition (f : Nat) (a : NewPart)
  /-- R447 Stops and hands over a partition, erases its key and writes the final record. -/
  | freePartition (f : Nat) (p : Nat)
  /-- R447 Moves tiles between partitions under a stop. -/
  | repartition (f : Nat) (p : Nat) (q : Nat) (h : Handover)
  /-- R448 Sets a partition's save timeout. -/
  | setSaveto (f : Nat)
  /-- R448 Sets a partition's quantum. -/
  | setQuantum (f : Nat)
  /-- R448 Sets a partition's forager quota. -/
  | setFquota (f : Nat)
  /-- R448 Sets a partition's token rate. -/
  | setRate (f : Nat)
  /-- R448 Sets a partition's token bucket depth. -/
  | setDepth (f : Nat)
  /-- R448 Sets a partition's LEND flag. -/
  | setLend (f : Nat)
  /-- R448 Sets a partition's power cap. -/
  | setPowerCap (f : Nat)
  /-- R448 Sets a partition's log interval. -/
  | setLogInterval (f : Nat)
  /-- R448 Sets a colony's summon policy. -/
  | setSummonPolicy (f : Nat)
  /-- R448 Requests a new mode for a scale-out port. -/
  | setScaleOutPortMode (f : Nat)
  /-- R448 Once the port carries no message, the new mode is applied and the request answered. -/
  | scaleOutModeApplied (i : Nat)
  /-- R447 Maps a granule range onto a BAR4 offset. -/
  | mapWindow (f : Nat) (off : Nat) (first : Nat) (n : Nat) (wr : Bool)
  /-- R242 Requests a granule's protection grade change. -/
  | gradeChange (f : Nat) (g : Nat) (grade : Nat)
  /-- R246 Starts a key change of the partition. -/
  | keyChange (f : Nat)
  /-- R450 Reads, verifies, loads and places a colony image. -/
  | launchImage (f : Nat) (img : List Byte)
  /-- R239 Writes a gallery region, or refuses it as busy. -/
  | galleryWrite (f : Nat) (col : Nat) (addr : Nat) (bs : List Byte)
  /-- R448 Resumes a curator-colony context held for the host. -/
  | curatorColonyResume (f : Nat)
  /-- R448 Removes a curator-colony context held for the host. -/
  | curatorColonyRemove (f : Nat)
  /-- R448 Creates a host queue bound to a colony. -/
  | createHostQueue (f : Nat)
  /-- R447 Requests that a host queue be destroyed once RD equals NOTIFY. -/
  | destroyHostQueue (f : Nat)
  /-- R447 The queue is drained and destroyed, and the request is answered. -/
  | hostQueueDestroyed (q : Nat)
  /-- R453 One side of a cross-partition grant; the second side writes both entries. -/
  | channelGrant (f : Nat) (a : Grant)
  /-- R453 A pending grant lapses after 10 s, and event 8 is sent. -/
  | channelGrantLapse (f : Nat)
  /-- R452 Writes a signed quote. -/
  | attestationQuote (f : Nat) (nonce : List Byte) (buf : Nat)
  /-- R454 Copies accession records, freeing them with the release flag. -/
  | readLog (f : Nat) (p : Nat) (seq : Nat) (n : Nat) (release : Bool) (buf : Nat)
  /-- R430 Closes an accession record on host request. -/
  | closeRecord (f : Nat) (r : RecordRef)
  /-- R455 Returns the gang states of the partition, or of all partitions. -/
  | residencyReport (f : Nat) (buf : Nat)
  /-- R456 Verifies and stages a firmware image. -/
  | stageFirmware (f : Nat) (img : List Byte)
  /-- R456 Starts the controller-by-controller changeover to the staged image. -/
  | activateFirmware (f : Nat)
  /-- R456 A rim controller finishes restarting, and the next one begins, or activation ends. -/
  | rimControllerRestartDone (r : Nat)
  /-- R457 The host retires a tile. -/
  | retireTile (f : Nat) (t : Nat)
  /-- R457 The host remaps an HBM channel to its spare. -/
  | remapHbmChannel (f : Nat) (stack : Nat) (channel : Nat)
  /-- R457 Restarts a rim controller on the active image. -/
  | restartRimController (f : Nat) (r : Nat)
  /-- R457 Retires a rim controller whose stacks hold no allocation. -/
  | retireRimController (f : Nat) (r : Nat)
  /-- R446 A request with an unknown opcode or a reserved bit set returns status 9. -/
  | unknownRequest (f : Nat)
  /-- R455 A peer's launch packet is dispatched to a SCALEOUT queue or refused, and a report is returned. -/
  | scaleOutLaunchPacket (i : Nat) (q : Nat) (seq : Nat) (ws : List Word)
  /-- R455 A peer's residency report request is answered with a report. -/
  | scaleOutReportRequest (i : Nat) (f : Nat)
  /-- R444 A Denmus Link port fails and its traffic passes to the others. -/
  | linkPortFailure (i : Nat)
  /-- R423 Device reset zeroes the time base and sets every cleared bit. -/
  | deviceReset
  /-- R103 A corrected or uncorrected error is detected in a core, vector unit, matrix unit, router or NI, and a targeted self-test of that unit starts. -/
  | errorInAUnit (t : Nat) (u : UnitId)
  /-- R305 The refusal of a mismatched rendezvous reaches the sender, whose offer is withdrawn and which raises channel-misuse. -/
  | refusalArrival (p : PortId)
  /-- R329 A wait-graph probe ends without a report, because a later probe met an earlier one, 4,096 contexts were reached, no knot was found or confirmation failed; the initiator's count restarts. -/
  | probeAbandoned (c : CtxId)
  /-- R368 The last target of a tlbi acknowledges, and the blocked tlbi completes and writes its result. -/
  | tlbiAcknowledgement (c : CtxId)
  /-- R435 The 600-cycle issue stall of a quad's operating-point change ends, and issue and any waiting thermal migration resume. -/
  | operatingPointChangeEnd (q : QuadId)
  /-- R27 The wafer manager pre-empts a partition by a synchronised stop of all its resident gangs, curator colony included, and sets STATE to pre-empted. -/
  | partitionPreEmption (p : Nat)
  /-- R375 A pre-empted partition runs again: STATE returns to running, held summonses act, and the dispatcher takes up its queues. -/
  | partitionResumption (p : Nat)
  /-- R456 A rim controller fails to restart on the staged image, returns to the old image, the changed controllers roll back, and event 6 reports status 3. -/
  | rimControllerRestartFailure (r : Nat)
  deriving DecidableEq, Repr

end Sys2Proof
end

