-- ==== Sys2Proof/Config.lean ====
section
/-! DEFINITION. What the manual leaves to the device or leaves open: constants without a value. Nothing in
Lean can evaluate one, so whatever is proved holds for every value they may have. -/

namespace Sys2Proof

/-- The code within the bound of R177 that a device delivers for an f32 input of a function. -/
opaque Config.vfnPick : VFun → BitVec 32 → BitVec 32

/-- The number of input links of the router of a physical tile, which the manual does not give (R97). -/
opaque Config.routerInputs : Nat → Nat

/-- The physical page on which the loader puts a page of a heap or gallery section of a vtile (R76, R247): partition,
colony, x, y and the virtual page number. The manual does not say which. -/
opaque Config.loaderPage : Nat → Nat → Nat → Nat → Nat → Nat

/-- The draw in watts that the arbiter estimates for a quad of a tile at a time (R435). -/
opaque Config.quadDraw : Nat → Nat → Nat → Nat

/-- The power limit in watts of a package of the other forms: 0 for SD-64, 1 for SP-256 (R5 gives the module's). -/
opaque Config.packageLimit : Nat → Nat

/-- A key that the security unit draws for a partition at a time (R243, R246). -/
opaque Config.randomKey : Nat → Nat → BitVec 512

/-- What the energy model with an identifier adds to ENERGY, in mJ, where a usage counter of a partition rises: the model,
the counters before, the counter and its rise (R428). -/
opaque Config.energy : Nat → List Nat → Nat → Nat → Nat

/-- The nominal length in ns of the activation window of the stacks (R427, R438). -/
opaque Config.nominalWindow : Nat

/-- The router that holds a packet on its way between two tiles at a time (R97): source tile, destination tile, time. -/
opaque Config.routerOf : Nat → Nat → Nat → Nat

/-- The signature r, s of the device key over a digest (R451). -/
opaque Config.sign : Nat → Nat × Nat

/-- The certificate chain of the device key (R451). -/
opaque Config.certificate : List (BitVec 8)

/-- PTILES of a quote that the physical function asks for (R452). -/
opaque Config.quoteTiles : Nat

/-- Whether a firmware image verifies under the firmware root key (R451, R456). -/
opaque Config.firmwareVerifies : List (BitVec 8) → Bool

/-- The version of a firmware image (R456). -/
opaque Config.firmwareVersion : List (BitVec 8) → Nat

/-- The throttle threshold that a firmware image fixes, above 85 °C (R436). -/
opaque Config.firmwareThreshold : List (BitVec 8) → Nat

/-- The energy model of a firmware image (R428, R429). -/
opaque Config.firmwareModel : List (BitVec 8) → Nat

end Sys2Proof
end

