-- ==== Sys2Proof/WellFormed.lean ====
section
/-! DEFINITION. The field checks of step 4 of R67 that a typed operand record can still fail: every
condition here raises operand-reserved before the instruction's own description is reached. -/

namespace Sys2Proof

/-- Lane width in bits (R154). -/
def VTy.width : VTy → Nat
  | .i8 => 8 | .n8 => 8 | .i16 => 16 | .n16 => 16 | .i32 => 32 | .n32 => 32 | .i64 => 64 | .n64 => 64
  | .f32 => 32 | .bf16 => 16 | .h16 => 16

/-- Number of lanes (R154). -/
def VTy.lanes (t : VTy) : Nat := 512 / t.width

/-- Class F of R154. -/
def VTy.isF : VTy → Bool
  | .f32 => true | .bf16 => true | .h16 => true
  | .i8 => false | .n8 => false | .i16 => false | .n16 => false | .i32 => false | .n32 => false
  | .i64 => false | .n64 => false

/-- Whether integer lanes are read signed (R154). -/
def VTy.isSigned : VTy → Bool
  | .i8 => true | .i16 => true | .i32 => true | .i64 => true
  | .n8 => false | .n16 => false | .n32 => false | .n64 => false
  | .f32 => true | .bf16 => true | .h16 => true

/-- R143, R137: scalar floating point takes f32, bf16 and h16. -/
def FloatTy.scalar : FloatTy → Bool
  | .f64 => false | .f32 => true | .bf16 => true | .h16 => true

/-- Modes of scalar floating point (R136): `.sr` is not among them. -/
def RMode.scalar : RMode → Bool
  | .sr => false | .rne => true | .rtz => true | .rdn => true | .rup => true

/-- R112: an immediate shift count. -/
def shiftCountOk (w : Bool) (c : Int) : Bool := decide (0 ≤ c ∧ c < (if w then 32 else 64))

@[inherit_doc shiftCountOk]
def AluI16.shiftOk (o : AluI16) : Bool := shiftCountOk o.w o.imm.toInt
@[inherit_doc shiftCountOk]
def AluI32.shiftOk (o : AluI32) : Bool := shiftCountOk o.w o.imm.toInt

/-- Formats that `fcvt` accepts as an integer (R142). -/
def fmtInt (c : BitVec 6) : Bool := decide (1 ≤ c.toNat ∧ c.toNat ≤ 7)

/-- Formats that `fcvt` accepts (R142). -/
def fmtScalar (c : BitVec 6) : Bool :=
  decide (1 ≤ c.toNat ∧ c.toNat ≤ 0x0A) || (decide (0x21 ≤ c.toNat) && decide (c.toNat % 8 ≠ 0))

/-- The format pairs of `fcvt` (R142). -/
def FCvt.pairF (o : FCvt) : Bool :=
  fmtScalar o.src && fmtScalar o.dst && !(fmtInt o.src && fmtInt o.dst)

/-- The format pairs of `dcvt` (R147). -/
def FCvt.pairD (o : FCvt) : Bool :=
  (fmtScalar o.src || decide (o.src = 0x0B)) && (fmtScalar o.dst || decide (o.dst = 0x0B)) &&
    (decide (o.src = 0x0B) || decide (o.dst = 0x0B))

/-- R64: a zero threshold names semaphore 0, a zero increment signals semaphore 0. -/
def Sig.wf (s : Sig) : Bool :=
  (decide (s.wthr ≠ 0) || decide (s.wsem = 0)) && (decide (s.sinc ≠ 0) || decide (s.ssem = 0))

/-- R156 "RM with F": a rounding mode only with class F. -/
def rmWithF (vt : VTy) (rm : RMode) : Bool := vt.isF || decide (rm = .rne)

/-- R170: which operations take which lane types, and F3 and S only with `.add`. -/
def redOk (vt : VTy) (op : RedOp) (rm : RMode) (sat : Bool) : Bool :=
  match op with
  | .add => rmWithF vt rm
  | .min => decide (rm = .rne) && !sat
  | .max => decide (rm = .rne) && !sat
  | .and => !vt.isF && decide (rm = .rne) && !sat
  | .or => !vt.isF && decide (rm = .rne) && !sat
  | .xor => !vt.isF && decide (rm = .rne) && !sat

/-- R169: lane types of `vcvt`. -/
def VTy.cvtOk (t : VTy) : Bool := decide (t ≠ .n64)

/-- R176: an immediate lane index names a lane. -/
def LaneIdx.ok (i : LaneIdx) (vt : VTy) : Bool :=
  match i with
  | .imm k => decide (k.toNat < vt.lanes)
  | .g _ => true

/-- R176: with the index in a g register, OB names it. -/
def BSrc.ok (s : BSrc) (vt : VTy) : Bool :=
  match s with
  | .g _ => true
  | .v _ k => decide (k.toNat < vt.lanes)

/-- R408: a value register is not g0, which stands for the immediate. -/
def SemVal.wf : SemVal → Bool
  | .imm _ => true
  | .g r => decide (r ≠ 0)

/-- R162: the group ends at or below v15 and a group takes no mask. -/
def groupOk (v : VReg) (om : GReg) (kc : BitVec 2) : Bool :=
  decide (v.toNat + 2 ^ kc.toNat ≤ 16) && (decide (kc = 0) || decide (om = 0))

/-- The indices of R209. -/
def ctlListed (i : BitVec 12) : Bool :=
  let n := i.toNat
  decide (n ≤ 5) || (decide (0x10 ≤ n) && decide (n ≤ 0x12)) || decide (n = 0x20) || decide (n = 0x21) ||
  decide (n = 0x30) || (decide (0x40 ≤ n) && decide (n ≤ 0x43)) || decide (n = 0x70) ||
  (decide (0x78 ≤ n) && decide (n ≤ 0x9F))

/-- The indices that R209 lets an instruction write. -/
def ctlWritable (i : BitVec 12) : Bool :=
  let n := i.toNat
  ctlListed i && !(decide (n = 0x30) || (decide (0x40 ≤ n) && decide (n ≤ 0x43)) || decide (n = 0x70))

/-- R397: an operand code of a comb instruction is of class g, v or p. -/
def combCode (c : Code) : Bool := decide (c.toNat < 56)

/-- The field checks of an instruction. Events have none: what they bring in is checked by the event. -/
def Instr.wf : Instr → Bool
  | .shlImm16 o => o.shiftOk
  | .shlImm32 o => o.shiftOk
  | .shrImm16 o => o.shiftOk
  | .shrImm32 o => o.shiftOk
  | .sarImm16 o => o.shiftOk
  | .sarImm32 o => o.shiftOk
  | .rotImm16 o => o.shiftOk
  | .rotImm32 o => o.shiftOk
  | .bfx o => decide (o.pos.toNat + o.lenM1.toNat < 64)
  | .bfi o => decide (o.pos.toNat + o.lenM1.toNat < 64)
  | .ext o => decide (o.s ≠ 3)
  | .loop o => decide (o.d ≠ 0)
  | .fadd o => o.rm.scalar && o.ft.scalar
  | .fsub o => o.rm.scalar && o.ft.scalar
  | .fmul o => o.rm.scalar && o.ft.scalar
  | .fma o => o.rm.scalar && o.ft.scalar
  | .fdiv o => o.rm.scalar && o.ft.scalar
  | .fsqrt o => o.rm.scalar && o.ft.scalar
  | .fmin o => o.ft.scalar
  | .fmax o => o.ft.scalar
  | .fcmp o => o.ft.scalar
  | .fcvt o => o.rm.scalar && o.pairF
  | .fclass o => o.ft.scalar
  | .fsgn o => o.ft.scalar
  | .ldOff16 o => !(o.u && decide (o.z = 3))
  | .ldOff32 o => !(o.u && decide (o.z = 3))
  | .ldpOff16 o => decide (o.r ≠ 31)
  | .ldpOff32 o => decide (o.r ≠ 31)
  | .stpOff16 o => decide (o.r ≠ 31)
  | .stpOff32 o => decide (o.r ≠ 31)
  | .afadd o => o.ft.scalar
  | .vldxNoOffset o => decide (2 ≤ o.z.toNat)
  | .vldxOff32 o => decide (2 ≤ o.z.toNat)
  | .vstxNoOffset o => decide (2 ≤ o.z.toNat)
  | .vstxOff32 o => decide (2 ≤ o.z.toNat)
  | .vldfNoOffset o => groupOk o.v o.om o.kc
  | .vldfOff32 o => groupOk o.v o.om o.kc
  | .vstfNoOffset o => groupOk o.v o.om o.kc
  | .vstfOff32 o => groupOk o.v o.om o.kc
  | .vadd o => rmWithF o.vt o.rm
  | .vsub o => rmWithF o.vt o.rm
  | .vmul o => rmWithF o.vt o.rm
  | .vfma o => rmWithF o.vt o.rm
  | .vabs o => !(o.vt.isF && o.sat)
  | .vshl o => !o.vt.isF
  | .vshr o => !o.vt.isF
  | .vcmp o => o.vt.isF || decide (o.cc ≠ .un)
  | .vcvt o => o.vt.cvtOk && o.dst.cvtOk &&
      decide (o.part.toNat < max o.vt.lanes o.dst.lanes / min o.vt.lanes o.dst.lanes)
  | .vred o => redOk o.vt o.op o.rm o.sat
  | .vscan o => redOk o.vt o.op o.rm o.sat
  | .vbcast o => o.src.ok o.vt
  | .vfn o => o.vt.isF && (decide (o.vt ≠ .f32) || decide (o.rm = .rne))
  | .vext o => o.idx.ok o.vt
  | .vins o => o.idx.ok o.vt
  | .mmq o => o.sig.wf
  | .mmqg o => o.sig.wf
  | .mzero o => o.sig.wf
  | .mld o => o.sig.wf
  | .mst o => o.sig.wf
  | .mqz o => o.sig.wf
  | .mdq o => o.sig.wf
  | .cpq o => o.sig.wf
  | .cpqt o => o.sig.wf
  | .semw o => o.v.wf
  | .semt o => o.v.wf
  | .semadd o => o.v.wf
  | .semset o => o.v.wf
  | .chs o => decide (o.r.toNat + o.nM1.toNat < 32)
  | .chr o => decide (o.r.toNat + o.nM1.toNat < 32)
  | .crd o => ctlListed o.idx
  | .cwr o => ctlWritable o.idx
  | .dadd o => o.rm.scalar
  | .dsub o => o.rm.scalar
  | .dmul o => o.rm.scalar
  | .dfma o => o.rm.scalar
  | .ddiv o => o.rm.scalar
  | .dsqrt o => o.rm.scalar
  | .dcvt o => o.rm.scalar && o.pairD
  | .combTail0 o => combCode o.d
  | .combTail1 o => combCode o.d && combCode o.a && combCode o.b
  | .combTail2 o => combCode o.d && combCode o.a && combCode o.b
  | .combTail3 o => combCode o.d && combCode o.a && combCode o.b
  | _ => true

end Sys2Proof
end

