-- ==== Sys2Proof/Decode.lean ====
section
/-! DEFINITION. The decoder (R58, R61, R63, R64, R68, R69 and the encoding tables of the chapters),
total on any bits, and after it the encoder written from the same tables. -/

namespace Sys2Proof

/-! ### Codes -/

/-- The register of class g that an operand code names (R63). -/
def gR (c : Nat) : Option GReg := if c < 32 then some (BitVec.ofNat 5 c) else none
/-- Class v. -/
def vR (c : Nat) : Option VReg := if 32 ≤ c ∧ c < 48 then some (BitVec.ofNat 4 (c - 32)) else none
/-- Class p. -/
def pR (c : Nat) : Option PReg := if 48 ≤ c ∧ c < 56 then some (BitVec.ofNat 3 (c - 48)) else none
/-- Class a. -/
def aR (c : Nat) : Option AReg := if 56 ≤ c ∧ c < 60 then some (BitVec.ofNat 2 (c - 56)) else none
/-- Class g or p. -/
def gpR (c : Nat) : Option GP :=
  if c < 32 then some (.g (BitVec.ofNat 5 c))
  else if 48 ≤ c ∧ c < 56 then some (.p (BitVec.ofNat 3 (c - 48))) else none
/-- Class v or g. -/
def vgR (c : Nat) : Option VG :=
  if c < 32 then some (.g (BitVec.ofNat 5 c))
  else if c < 48 then some (.v (BitVec.ofNat 4 (c - 32))) else none

/-- The operand code of a register (R63). -/
def gC (r : GReg) : Nat := r.toNat
@[inherit_doc gC]
def vC (r : VReg) : Nat := 32 + r.toNat
@[inherit_doc gC]
def pC (r : PReg) : Nat := 48 + r.toNat
@[inherit_doc gC]
def aC (r : AReg) : Nat := 56 + r.toNat
@[inherit_doc gC]
def GP.code : GP → Nat
  | .g r => gC r
  | .p r => pC r
@[inherit_doc gC]
def VG.code : VG → Nat
  | .g r => gC r
  | .v r => vC r

/-- R46. -/
def RMode.code : RMode → Nat
  | .rne => 0 | .rtz => 1 | .rdn => 2 | .rup => 3 | .sr => 4
@[inherit_doc RMode.code]
def RMode.ofCode (c : Nat) : Option RMode :=
  if c = 0 then some .rne else if c = 1 then some .rtz else if c = 2 then some .rdn
  else if c = 3 then some .rup else if c = 4 then some .sr else none

/-- The FT field of R136; code 3 stands for no scalar format and is refused by `Instr.wf`. -/
def FloatTy.code : FloatTy → Nat
  | .f32 => 0 | .bf16 => 1 | .h16 => 2 | .f64 => 3
@[inherit_doc FloatTy.code]
def FloatTy.ofCode (c : Nat) : Option FloatTy :=
  if c = 0 then some .f32 else if c = 1 then some .bf16 else if c = 2 then some .h16
  else if c = 3 then some .f64 else none

/-- R140. -/
def FCond.code : FCond → Nat
  | .eq => 0 | .lt => 1 | .le => 2 | .un => 3 | .ne => 4
@[inherit_doc FCond.code]
def FCond.ofCode (c : Nat) : Option FCond :=
  if c = 0 then some .eq else if c = 1 then some .lt else if c = 2 then some .le
  else if c = 3 then some .un else if c = 4 then some .ne else none

/-- R121. -/
def ICond.code : ICond → Nat
  | .eq => 0 | .ne => 1 | .lt => 2 | .ge => 3 | .ltn => 4 | .gen => 5 | .tst => 6 | .ntst => 7
@[inherit_doc ICond.code]
def ICond.ofCode (c : Nat) : Option ICond :=
  if c = 0 then some .eq else if c = 1 then some .ne else if c = 2 then some .lt
  else if c = 3 then some .ge else if c = 4 then some .ltn else if c = 5 then some .gen
  else if c = 6 then some .tst else if c = 7 then some .ntst else none

/-- R167. -/
def VCond.code : VCond → Nat
  | .eq => 0 | .ne => 1 | .lt => 2 | .le => 3 | .un => 4
@[inherit_doc VCond.code]
def VCond.ofCode (c : Nat) : Option VCond :=
  if c = 0 then some .eq else if c = 1 then some .ne else if c = 2 then some .lt
  else if c = 3 then some .le else if c = 4 then some .un else none

/-- R136 SG. -/
def SgnSel.code : SgnSel → Nat
  | .cp => 0 | .neg => 1 | .xor => 2
@[inherit_doc SgnSel.code]
def SgnSel.ofCode (c : Nat) : Option SgnSel :=
  if c = 0 then some .cp else if c = 1 then some .neg else if c = 2 then some .xor else none

/-- R154. -/
def VTy.code : VTy → Nat
  | .i8 => 0 | .n8 => 1 | .i16 => 2 | .n16 => 3 | .i32 => 4 | .n32 => 5 | .i64 => 6 | .n64 => 7
  | .f32 => 8 | .bf16 => 9 | .h16 => 10
@[inherit_doc VTy.code]
def VTy.ofCode (c : Nat) : Option VTy :=
  if c = 0 then some .i8 else if c = 1 then some .n8 else if c = 2 then some .i16
  else if c = 3 then some .n16 else if c = 4 then some .i32 else if c = 5 then some .n32
  else if c = 6 then some .i64 else if c = 7 then some .n64 else if c = 8 then some .f32
  else if c = 9 then some .bf16 else if c = 10 then some .h16 else none

/-- R170. -/
def RedOp.code : RedOp → Nat
  | .add => 0 | .min => 1 | .max => 2 | .and => 3 | .or => 4 | .xor => 5
@[inherit_doc RedOp.code]
def RedOp.ofCode (c : Nat) : Option RedOp :=
  if c = 0 then some .add else if c = 1 then some .min else if c = 2 then some .max
  else if c = 3 then some .and else if c = 4 then some .or else if c = 5 then some .xor else none

/-- R177. -/
def VFun.code : VFun → Nat
  | .rcp => 0 | .rsqrt => 1 | .exp2 => 2 | .log2 => 3 | .sinpi => 4 | .cospi => 5 | .tanh => 6 | .sigm => 7
@[inherit_doc VFun.code]
def VFun.ofCode (c : Nat) : Option VFun :=
  if c = 0 then some .rcp else if c = 1 then some .rsqrt else if c = 2 then some .exp2
  else if c = 3 then some .log2 else if c = 4 then some .sinpi else if c = 5 then some .cospi
  else if c = 6 then some .tanh else if c = 7 then some .sigm else none

/-- R273; code 3 is reserved. -/
def Scope.code : Scope → Nat
  | .core => 0 | .quad => 1 | .tile => 2
@[inherit_doc Scope.code]
def Scope.ofCode (c : Nat) : Option Scope :=
  if c = 0 then some .core else if c = 1 then some .quad else if c = 2 then some .tile else none

/-- R416. -/
def BScope.code : BScope → Nat
  | .core => 0 | .quad => 1 | .tile => 2 | .colony => 3
@[inherit_doc BScope.code]
def BScope.ofCode (c : Nat) : Option BScope :=
  if c = 0 then some .core else if c = 1 then some .quad else if c = 2 then some .tile
  else if c = 3 then some .colony else none

/-- A field as a bit vector. -/
def uf (t lo w : Nat) : BitVec w := BitVec.ofNat w (fld t lo w)

/-- One bit of a tail. -/
def bt (t lo : Nat) : Bool := fld t lo 1 == 1

/-- The value where the reserved fields are zero. -/
def need {α : Type} (b : Bool) (x : α) : Option α := if b then some x else none

/-- A head (R58). -/
def headOf (op tl a : Nat) : Nat := op * 256 + tl * 64 + a

/-- The wait and signal fields of an engine command (R64). -/
def sigOf (t : Nat) : Sig := ⟨uf t 0 8, uf t 8 8, uf t 16 8, uf t 24 8⟩
@[inherit_doc sigOf]
def sigC (s : Sig) : Nat := s.wsem.toNat + s.wthr.toNat * 2 ^ 8 + s.ssem.toNat * 2 ^ 16 + s.sinc.toNat * 2 ^ 24

/-! ### The encoding tables, one decoder and one encoder each -/

/-- The operand fields of `AluR`. -/
def decAluR (a t : Nat) : Option AluR := do
  let d ← gR a
  let a' ← gR (fld t 0 6)
  let b ← gR (fld t 6 6)
  need (fld t 14 2 == 0) ⟨d, a', b, bt t 12, bt t 13⟩

/-- The words of `AluR` under opcode `op`. -/
def encAluR (op : Nat) (o : AluR) : Nat × Nat :=
  (headOf op 1 (gC o.d), gC o.a * 2 ^ 0 + gC o.b * 2 ^ 6 + o.w.toNat * 2 ^ 12 + o.n.toNat * 2 ^ 13)

/-- The operand fields of `AluI16`. -/
def decAluI16 (a t : Nat) : Option AluI16 := do
  let d ← gR a
  let a' ← gR (fld t 0 6)
  need (fld t 6 6 == 0 && fld t 14 2 == 0) ⟨d, a', uf t 16 16, bt t 12, bt t 13⟩

/-- The words of `AluI16` under opcode `op`. -/
def encAluI16 (op : Nat) (o : AluI16) : Nat × Nat :=
  (headOf op 2 (gC o.d), gC o.a * 2 ^ 0 + o.w.toNat * 2 ^ 12 + o.n.toNat * 2 ^ 13 + o.imm.toNat * 2 ^ 16)

/-- The operand fields of `AluI32`. -/
def decAluI32 (a t : Nat) : Option AluI32 := do
  let d ← gR a
  let a' ← gR (fld t 0 6)
  need (fld t 6 6 == 0 && fld t 14 18 == 0) ⟨d, a', uf t 32 32, bt t 12, bt t 13⟩

/-- The words of `AluI32` under opcode `op`. -/
def encAluI32 (op : Nat) (o : AluI32) : Nat × Nat :=
  (headOf op 3 (gC o.d), gC o.a * 2 ^ 0 + o.w.toNat * 2 ^ 12 + o.n.toNat * 2 ^ 13 + o.imm.toNat * 2 ^ 32)

/-- The operand fields of `BitCnt`. -/
def decBitCnt (a t : Nat) : Option BitCnt := do
  let d ← gR a
  let a' ← gR (fld t 0 6)
  need (fld t 6 6 == 0 && fld t 14 2 == 0) ⟨d, a', bt t 12, bt t 13⟩

/-- The words of `BitCnt` under opcode `op`. -/
def encBitCnt (op : Nat) (o : BitCnt) : Nat × Nat :=
  (headOf op 1 (gC o.d), gC o.a * 2 ^ 0 + o.w.toNat * 2 ^ 12 + o.n.toNat * 2 ^ 13)

/-- The operand fields of `Bfx`. -/
def decBfx (a t : Nat) : Option Bfx := do
  let d ← gR a
  let a' ← gR (fld t 0 6)
  need (fld t 6 10 == 0 && fld t 29 3 == 0) ⟨d, a', uf t 16 6, uf t 22 6, bt t 28⟩

/-- The words of `Bfx` under opcode `op`. -/
def encBfx (op : Nat) (o : Bfx) : Nat × Nat :=
  (headOf op 2 (gC o.d), gC o.a * 2 ^ 0 + o.pos.toNat * 2 ^ 16 + o.lenM1.toNat * 2 ^ 22 + o.n.toNat * 2 ^ 28)

/-- The operand fields of `Bfi`. -/
def decBfi (a t : Nat) : Option Bfi := do
  let d ← gR a
  let a' ← gR (fld t 0 6)
  need (fld t 6 10 == 0 && fld t 28 4 == 0) ⟨d, a', uf t 16 6, uf t 22 6⟩

/-- The words of `Bfi` under opcode `op`. -/
def encBfi (op : Nat) (o : Bfi) : Nat × Nat :=
  (headOf op 2 (gC o.d), gC o.a * 2 ^ 0 + o.pos.toNat * 2 ^ 16 + o.lenM1.toNat * 2 ^ 22)

/-- The operand fields of `Sel`. -/
def decSel (a t : Nat) : Option Sel := do
  let d ← gR a
  let a' ← gR (fld t 0 6)
  let b ← gR (fld t 6 6)
  let c ← pR (fld t 16 6)
  need (fld t 12 4 == 0 && fld t 22 10 == 0) ⟨d, a', b, c⟩

/-- The words of `Sel` under opcode `op`. -/
def encSel (op : Nat) (o : Sel) : Nat × Nat :=
  (headOf op 2 (gC o.d), gC o.a * 2 ^ 0 + gC o.b * 2 ^ 6 + pC o.c * 2 ^ 16)

/-- The operand fields of `Mov`. -/
def decMov (a t : Nat) : Option Mov := do
  let d ← gpR a
  let a' ← gpR (fld t 0 6)
  need (fld t 6 10 == 0) ⟨d, a'⟩

/-- The words of `Mov` under opcode `op`. -/
def encMov (op : Nat) (o : Mov) : Nat × Nat :=
  (headOf op 1 (o.d.code), o.a.code * 2 ^ 0)

/-- The operand fields of `Li16`. -/
def decLi16 (a t : Nat) : Option Li16 := do
  let d ← gR a
  need (fld t 0 12 == 0 && fld t 13 3 == 0) ⟨d, uf t 16 16, bt t 12⟩

/-- The words of `Li16` under opcode `op`. -/
def encLi16 (op : Nat) (o : Li16) : Nat × Nat :=
  (headOf op 2 (gC o.d), o.hi.toNat * 2 ^ 12 + o.imm.toNat * 2 ^ 16)

/-- The operand fields of `Li32`. -/
def decLi32 (a t : Nat) : Option Li32 := do
  let d ← gR a
  need (fld t 0 12 == 0 && fld t 13 19 == 0) ⟨d, uf t 32 32, bt t 12⟩

/-- The words of `Li32` under opcode `op`. -/
def encLi32 (op : Nat) (o : Li32) : Nat × Nat :=
  (headOf op 3 (gC o.d), o.hi.toNat * 2 ^ 12 + o.imm.toNat * 2 ^ 32)

/-- The operand fields of `Lea16`. -/
def decLea16 (a t : Nat) : Option Lea16 := do
  let d ← gR a
  let b ← gR (fld t 6 6)
  need (fld t 0 6 == 0 && fld t 12 4 == 0) ⟨d, b, uf t 16 16⟩

/-- The words of `Lea16` under opcode `op`. -/
def encLea16 (op : Nat) (o : Lea16) : Nat × Nat :=
  (headOf op 2 (gC o.d), gC o.b * 2 ^ 6 + o.imm.toNat * 2 ^ 16)

/-- The operand fields of `Lea32`. -/
def decLea32 (a t : Nat) : Option Lea32 := do
  let d ← gR a
  let b ← gR (fld t 6 6)
  need (fld t 0 6 == 0 && fld t 12 20 == 0) ⟨d, b, uf t 32 32⟩

/-- The words of `Lea32` under opcode `op`. -/
def encLea32 (op : Nat) (o : Lea32) : Nat × Nat :=
  (headOf op 3 (gC o.d), gC o.b * 2 ^ 6 + o.imm.toNat * 2 ^ 32)

/-- The operand fields of `Ptag`. -/
def decPtag (a t : Nat) : Option Ptag := do
  let d ← gR a
  let a' ← gR (fld t 0 6)
  need (fld t 6 10 == 0 && fld t 25 7 == 0) ⟨d, a', uf t 16 6, uf t 22 3⟩

/-- The words of `Ptag` under opcode `op`. -/
def encPtag (op : Nat) (o : Ptag) : Nat × Nat :=
  (headOf op 2 (gC o.d), gC o.a * 2 ^ 0 + o.fmt.toNat * 2 ^ 16 + o.bl.toNat * 2 ^ 22)

/-- The operand fields of `GG`. -/
def decGG (a t : Nat) : Option GG := do
  let d ← gR a
  let a' ← gR (fld t 0 6)
  need (fld t 6 10 == 0) ⟨d, a'⟩

/-- The words of `GG` under opcode `op`. -/
def encGG (op : Nat) (o : GG) : Nat × Nat :=
  (headOf op 1 (gC o.d), gC o.a * 2 ^ 0)

/-- The operand fields of `Ext`. -/
def decExt (a t : Nat) : Option Ext := do
  let d ← gR a
  let a' ← gR (fld t 0 6)
  need (fld t 6 6 == 0 && fld t 15 1 == 0) ⟨d, a', uf t 12 2, bt t 14⟩

/-- The words of `Ext` under opcode `op`. -/
def encExt (op : Nat) (o : Ext) : Nat × Nat :=
  (headOf op 1 (gC o.d), gC o.a * 2 ^ 0 + o.s.toNat * 2 ^ 12 + o.n.toNat * 2 ^ 14)

/-- The operand fields of `CmpR`. -/
def decCmpR (a t : Nat) : Option CmpR := do
  let d ← pR a
  let a' ← gR (fld t 0 6)
  let b ← gR (fld t 6 6)
  let cc ← ICond.ofCode (fld t 12 3)
  need (true) ⟨d, a', b, cc, bt t 15⟩

/-- The words of `CmpR` under opcode `op`. -/
def encCmpR (op : Nat) (o : CmpR) : Nat × Nat :=
  (headOf op 1 (pC o.d), gC o.a * 2 ^ 0 + gC o.b * 2 ^ 6 + o.cc.code * 2 ^ 12 + o.w.toNat * 2 ^ 15)

/-- The operand fields of `CmpI16`. -/
def decCmpI16 (a t : Nat) : Option CmpI16 := do
  let d ← pR a
  let a' ← gR (fld t 0 6)
  let cc ← ICond.ofCode (fld t 12 3)
  need (fld t 6 6 == 0) ⟨d, a', uf t 16 16, cc, bt t 15⟩

/-- The words of `CmpI16` under opcode `op`. -/
def encCmpI16 (op : Nat) (o : CmpI16) : Nat × Nat :=
  (headOf op 2 (pC o.d), gC o.a * 2 ^ 0 + o.cc.code * 2 ^ 12 + o.w.toNat * 2 ^ 15 + o.imm.toNat * 2 ^ 16)

/-- The operand fields of `CmpI32`. -/
def decCmpI32 (a t : Nat) : Option CmpI32 := do
  let d ← pR a
  let a' ← gR (fld t 0 6)
  let cc ← ICond.ofCode (fld t 12 3)
  need (fld t 6 6 == 0 && fld t 16 16 == 0) ⟨d, a', uf t 32 32, cc, bt t 15⟩

/-- The words of `CmpI32` under opcode `op`. -/
def encCmpI32 (op : Nat) (o : CmpI32) : Nat × Nat :=
  (headOf op 3 (pC o.d), gC o.a * 2 ^ 0 + o.cc.code * 2 ^ 12 + o.w.toNat * 2 ^ 15 + o.imm.toNat * 2 ^ 32)

/-- The operand fields of `PPP`. -/
def decPPP (a t : Nat) : Option PPP := do
  let d ← pR a
  let a' ← pR (fld t 0 6)
  let b ← pR (fld t 6 6)
  need (fld t 12 4 == 0) ⟨d, a', b⟩

/-- The words of `PPP` under opcode `op`. -/
def encPPP (op : Nat) (o : PPP) : Nat × Nat :=
  (headOf op 1 (pC o.d), pC o.a * 2 ^ 0 + pC o.b * 2 ^ 6)

/-- The operand fields of `PP`. -/
def decPP (a t : Nat) : Option PP := do
  let d ← pR a
  let a' ← pR (fld t 0 6)
  need (fld t 6 10 == 0) ⟨d, a'⟩

/-- The words of `PP` under opcode `op`. -/
def encPP (op : Nat) (o : PP) : Nat × Nat :=
  (headOf op 1 (pC o.d), pC o.a * 2 ^ 0)

/-- The operand fields of `BrNear`. -/
def decBrNear (a t : Nat) : Option BrNear := do
  let p ← pR a
  need (fld t 0 12 == 0 && fld t 13 3 == 0) ⟨p, bt t 12, uf t 21 11, uf t 16 5⟩

/-- The words of `BrNear` under opcode `op`. -/
def encBrNear (op : Nat) (o : BrNear) : Nat × Nat :=
  (headOf op 2 (pC o.p), o.f.toNat * 2 ^ 12 + o.slot.toNat * 2 ^ 16 + o.disp.toNat * 2 ^ 21)

/-- The operand fields of `BrFar`. -/
def decBrFar (a t : Nat) : Option BrFar := do
  let p ← pR a
  need (fld t 0 12 == 0 && fld t 13 19 == 0) ⟨p, bt t 12, uf t 37 27, uf t 32 5⟩

/-- The words of `BrFar` under opcode `op`. -/
def encBrFar (op : Nat) (o : BrFar) : Nat × Nat :=
  (headOf op 3 (pC o.p), o.f.toNat * 2 ^ 12 + o.slot.toNat * 2 ^ 32 + o.disp.toNat * 2 ^ 37)

/-- The operand fields of `JmpNear`. -/
def decJmpNear (a t : Nat) : Option JmpNear := do
  need (a == 0 && fld t 0 16 == 0) ⟨uf t 21 11, uf t 16 5⟩

/-- The words of `JmpNear` under opcode `op`. -/
def encJmpNear (op : Nat) (o : JmpNear) : Nat × Nat :=
  (headOf op 2 (0), o.slot.toNat * 2 ^ 16 + o.disp.toNat * 2 ^ 21)

/-- The operand fields of `JmpFar`. -/
def decJmpFar (a t : Nat) : Option JmpFar := do
  need (a == 0 && fld t 0 32 == 0) ⟨uf t 37 27, uf t 32 5⟩

/-- The words of `JmpFar` under opcode `op`. -/
def encJmpFar (op : Nat) (o : JmpFar) : Nat × Nat :=
  (headOf op 3 (0), o.slot.toNat * 2 ^ 32 + o.disp.toNat * 2 ^ 37)

/-- The operand fields of `JalNear`. -/
def decJalNear (a t : Nat) : Option JalNear := do
  let d ← gR a
  need (fld t 0 16 == 0) ⟨d, uf t 21 11, uf t 16 5⟩

/-- The words of `JalNear` under opcode `op`. -/
def encJalNear (op : Nat) (o : JalNear) : Nat × Nat :=
  (headOf op 2 (gC o.d), o.slot.toNat * 2 ^ 16 + o.disp.toNat * 2 ^ 21)

/-- The operand fields of `JalFar`. -/
def decJalFar (a t : Nat) : Option JalFar := do
  let d ← gR a
  need (fld t 0 32 == 0) ⟨d, uf t 37 27, uf t 32 5⟩

/-- The words of `JalFar` under opcode `op`. -/
def encJalFar (op : Nat) (o : JalFar) : Nat × Nat :=
  (headOf op 3 (gC o.d), o.slot.toNat * 2 ^ 32 + o.disp.toNat * 2 ^ 37)

/-- The operand fields of `FArith`. -/
def decFArith (a t : Nat) : Option FArith := do
  let d ← gR a
  let a' ← gR (fld t 0 6)
  let b ← gR (fld t 6 6)
  let ft ← FloatTy.ofCode (fld t 14 2)
  let rm ← RMode.ofCode (fld t 29 3)
  need (fld t 12 2 == 0 && fld t 16 13 == 0) ⟨d, a', b, rm, ft⟩

/-- The words of `FArith` under opcode `op`. -/
def encFArith (op : Nat) (o : FArith) : Nat × Nat :=
  (headOf op 2 (gC o.d), gC o.a * 2 ^ 0 + gC o.b * 2 ^ 6 + o.ft.code * 2 ^ 14 + o.rm.code * 2 ^ 29)

/-- The operand fields of `FFma`. -/
def decFFma (a t : Nat) : Option FFma := do
  let d ← gR a
  let a' ← gR (fld t 0 6)
  let b ← gR (fld t 6 6)
  let ft ← FloatTy.ofCode (fld t 14 2)
  let c ← gR (fld t 16 6)
  let rm ← RMode.ofCode (fld t 29 3)
  need (fld t 12 2 == 0 && fld t 22 7 == 0) ⟨d, a', b, c, rm, ft⟩

/-- The words of `FFma` under opcode `op`. -/
def encFFma (op : Nat) (o : FFma) : Nat × Nat :=
  (headOf op 2 (gC o.d), gC o.a * 2 ^ 0 + gC o.b * 2 ^ 6 + o.ft.code * 2 ^ 14 + gC o.c * 2 ^ 16 + o.rm.code * 2 ^ 29)

/-- The operand fields of `FUn`. -/
def decFUn (a t : Nat) : Option FUn := do
  let d ← gR a
  let a' ← gR (fld t 0 6)
  let ft ← FloatTy.ofCode (fld t 14 2)
  let rm ← RMode.ofCode (fld t 29 3)
  need (fld t 6 8 == 0 && fld t 16 13 == 0) ⟨d, a', rm, ft⟩

/-- The words of `FUn` under opcode `op`. -/
def encFUn (op : Nat) (o : FUn) : Nat × Nat :=
  (headOf op 2 (gC o.d), gC o.a * 2 ^ 0 + o.ft.code * 2 ^ 14 + o.rm.code * 2 ^ 29)

/-- The operand fields of `FMinMax`. -/
def decFMinMax (a t : Nat) : Option FMinMax := do
  let d ← gR a
  let a' ← gR (fld t 0 6)
  let b ← gR (fld t 6 6)
  let ft ← FloatTy.ofCode (fld t 14 2)
  need (fld t 12 2 == 0 && fld t 16 16 == 0) ⟨d, a', b, ft⟩

/-- The words of `FMinMax` under opcode `op`. -/
def encFMinMax (op : Nat) (o : FMinMax) : Nat × Nat :=
  (headOf op 2 (gC o.d), gC o.a * 2 ^ 0 + gC o.b * 2 ^ 6 + o.ft.code * 2 ^ 14)

/-- The operand fields of `FCmp`. -/
def decFCmp (a t : Nat) : Option FCmp := do
  let d ← pR a
  let a' ← gR (fld t 0 6)
  let b ← gR (fld t 6 6)
  let ft ← FloatTy.ofCode (fld t 14 2)
  let cc ← FCond.ofCode (fld t 29 3)
  need (fld t 12 2 == 0 && fld t 16 13 == 0) ⟨d, a', b, cc, ft⟩

/-- The words of `FCmp` under opcode `op`. -/
def encFCmp (op : Nat) (o : FCmp) : Nat × Nat :=
  (headOf op 2 (pC o.d), gC o.a * 2 ^ 0 + gC o.b * 2 ^ 6 + o.ft.code * 2 ^ 14 + o.cc.code * 2 ^ 29)

/-- The operand fields of `FCvt`. -/
def decFCvt (a t : Nat) : Option FCvt := do
  let d ← gR a
  let a' ← gR (fld t 0 6)
  let rm ← RMode.ofCode (fld t 29 3)
  need (fld t 12 4 == 0 && fld t 22 6 == 0) ⟨d, a', uf t 6 6, uf t 16 6, rm, bt t 28⟩

/-- The words of `FCvt` under opcode `op`. -/
def encFCvt (op : Nat) (o : FCvt) : Nat × Nat :=
  (headOf op 2 (gC o.d), gC o.a * 2 ^ 0 + o.src.toNat * 2 ^ 6 + o.dst.toNat * 2 ^ 16 + o.sat.toNat * 2 ^ 28 + o.rm.code * 2 ^ 29)

/-- The operand fields of `FClass`. -/
def decFClass (a t : Nat) : Option FClass := do
  let d ← gR a
  let a' ← gR (fld t 0 6)
  let ft ← FloatTy.ofCode (fld t 14 2)
  need (fld t 6 8 == 0 && fld t 16 16 == 0) ⟨d, a', ft⟩

/-- The words of `FClass` under opcode `op`. -/
def encFClass (op : Nat) (o : FClass) : Nat × Nat :=
  (headOf op 2 (gC o.d), gC o.a * 2 ^ 0 + o.ft.code * 2 ^ 14)

/-- The operand fields of `FSgn`. -/
def decFSgn (a t : Nat) : Option FSgn := do
  let d ← gR a
  let a' ← gR (fld t 0 6)
  let b ← gR (fld t 6 6)
  let sg ← SgnSel.ofCode (fld t 12 2)
  let ft ← FloatTy.ofCode (fld t 14 2)
  need (fld t 16 16 == 0) ⟨d, a', b, sg, ft⟩

/-- The words of `FSgn` under opcode `op`. -/
def encFSgn (op : Nat) (o : FSgn) : Nat × Nat :=
  (headOf op 2 (gC o.d), gC o.a * 2 ^ 0 + gC o.b * 2 ^ 6 + o.sg.code * 2 ^ 12 + o.ft.code * 2 ^ 14)

/-- The operand fields of `Ld16`. -/
def decLd16 (a t : Nat) : Option Ld16 := do
  let d ← gR a
  let b ← gR (fld t 6 6)
  need (fld t 1 5 == 0) ⟨d, b, uf t 16 16, uf t 14 2, bt t 0, uf t 12 2⟩

/-- The words of `Ld16` under opcode `op`. -/
def encLd16 (op : Nat) (o : Ld16) : Nat × Nat :=
  (headOf op 2 (gC o.d), o.u.toNat * 2 ^ 0 + gC o.b * 2 ^ 6 + o.wait.toNat * 2 ^ 12 + o.z.toNat * 2 ^ 14 + o.imm.toNat * 2 ^ 16)

/-- The operand fields of `Ld32`. -/
def decLd32 (a t : Nat) : Option Ld32 := do
  let d ← gR a
  let b ← gR (fld t 6 6)
  need (fld t 1 5 == 0 && fld t 16 16 == 0) ⟨d, b, uf t 32 32, uf t 14 2, bt t 0, uf t 12 2⟩

/-- The words of `Ld32` under opcode `op`. -/
def encLd32 (op : Nat) (o : Ld32) : Nat × Nat :=
  (headOf op 3 (gC o.d), o.u.toNat * 2 ^ 0 + gC o.b * 2 ^ 6 + o.wait.toNat * 2 ^ 12 + o.z.toNat * 2 ^ 14 + o.imm.toNat * 2 ^ 32)

/-- The operand fields of `St16`. -/
def decSt16 (a t : Nat) : Option St16 := do
  let s ← gR a
  let b ← gR (fld t 6 6)
  need (fld t 0 6 == 0) ⟨s, b, uf t 16 16, uf t 14 2, uf t 12 2⟩

/-- The words of `St16` under opcode `op`. -/
def encSt16 (op : Nat) (o : St16) : Nat × Nat :=
  (headOf op 2 (gC o.s), gC o.b * 2 ^ 6 + o.wait.toNat * 2 ^ 12 + o.z.toNat * 2 ^ 14 + o.imm.toNat * 2 ^ 16)

/-- The operand fields of `St32`. -/
def decSt32 (a t : Nat) : Option St32 := do
  let s ← gR a
  let b ← gR (fld t 6 6)
  need (fld t 0 6 == 0 && fld t 16 16 == 0) ⟨s, b, uf t 32 32, uf t 14 2, uf t 12 2⟩

/-- The words of `St32` under opcode `op`. -/
def encSt32 (op : Nat) (o : St32) : Nat × Nat :=
  (headOf op 3 (gC o.s), gC o.b * 2 ^ 6 + o.wait.toNat * 2 ^ 12 + o.z.toNat * 2 ^ 14 + o.imm.toNat * 2 ^ 32)

/-- The operand fields of `Pair16`. -/
def decPair16 (a t : Nat) : Option Pair16 := do
  let r ← gR a
  let b ← gR (fld t 6 6)
  need (fld t 0 6 == 0 && fld t 14 2 == 0) ⟨r, b, uf t 16 16, uf t 12 2⟩

/-- The words of `Pair16` under opcode `op`. -/
def encPair16 (op : Nat) (o : Pair16) : Nat × Nat :=
  (headOf op 2 (gC o.r), gC o.b * 2 ^ 6 + o.wait.toNat * 2 ^ 12 + o.imm.toNat * 2 ^ 16)

/-- The operand fields of `Pair32`. -/
def decPair32 (a t : Nat) : Option Pair32 := do
  let r ← gR a
  let b ← gR (fld t 6 6)
  need (fld t 0 6 == 0 && fld t 14 18 == 0) ⟨r, b, uf t 32 32, uf t 12 2⟩

/-- The words of `Pair32` under opcode `op`. -/
def encPair32 (op : Nat) (o : Pair32) : Nat × Nat :=
  (headOf op 3 (gC o.r), gC o.b * 2 ^ 6 + o.wait.toNat * 2 ^ 12 + o.imm.toNat * 2 ^ 32)

/-- The operand fields of `Sync`. -/
def decSync (a t : Nat) : Option Sync := do
  let scope ← Scope.ofCode (fld t 14 2)
  need (a == 0 && fld t 0 12 == 0) ⟨scope, uf t 12 2⟩

/-- The words of `Sync` under opcode `op`. -/
def encSync (op : Nat) (o : Sync) : Nat × Nat :=
  (headOf op 1 (0), o.wait.toNat * 2 ^ 12 + o.scope.code * 2 ^ 14)

/-- The operand fields of `PWait`. -/
def decPWait (a t : Nat) : Option PWait := do
  let d ← gR a
  need (fld t 0 12 == 0 && fld t 14 2 == 0) ⟨d, uf t 12 2⟩

/-- The words of `PWait` under opcode `op`. -/
def encPWait (op : Nat) (o : PWait) : Nat × Nat :=
  (headOf op 1 (gC o.d), o.wait.toNat * 2 ^ 12)

/-- The operand fields of `GAWait`. -/
def decGAWait (a t : Nat) : Option GAWait := do
  let d ← gR a
  let a' ← gR (fld t 0 6)
  need (fld t 6 6 == 0 && fld t 14 2 == 0) ⟨d, a', uf t 12 2⟩

/-- The words of `GAWait` under opcode `op`. -/
def encGAWait (op : Nat) (o : GAWait) : Nat × Nat :=
  (headOf op 1 (gC o.d), gC o.a * 2 ^ 0 + o.wait.toNat * 2 ^ 12)

/-- The operand fields of `GBWait`. -/
def decGBWait (a t : Nat) : Option GBWait := do
  let d ← gR a
  let b ← gR (fld t 6 6)
  need (fld t 0 6 == 0 && fld t 14 2 == 0) ⟨d, b, uf t 12 2⟩

/-- The words of `GBWait` under opcode `op`. -/
def encGBWait (op : Nat) (o : GBWait) : Nat × Nat :=
  (headOf op 1 (gC o.d), gC o.b * 2 ^ 6 + o.wait.toNat * 2 ^ 12)

/-- The operand fields of `TSet`. -/
def decTSet (a t : Nat) : Option TSet := do
  let d ← gR a
  let a' ← gR (fld t 0 6)
  let b ← gR (fld t 6 6)
  need (fld t 14 2 == 0) ⟨d, a', b, uf t 12 2⟩

/-- The words of `TSet` under opcode `op`. -/
def encTSet (op : Nat) (o : TSet) : Nat × Nat :=
  (headOf op 1 (gC o.d), gC o.a * 2 ^ 0 + gC o.b * 2 ^ 6 + o.wait.toNat * 2 ^ 12)

/-- The operand fields of `Sbw`. -/
def decSbw (a t : Nat) : Option Sbw := do
  let a' ← gR (fld t 0 6)
  let b ← gR (fld t 6 6)
  need (a == 0 && fld t 14 2 == 0) ⟨b, a', uf t 12 2⟩

/-- The words of `Sbw` under opcode `op`. -/
def encSbw (op : Nat) (o : Sbw) : Nat × Nat :=
  (headOf op 1 (0), gC o.a * 2 ^ 0 + gC o.b * 2 ^ 6 + o.wait.toNat * 2 ^ 12)

/-- The operand fields of `Atom`. -/
def decAtom (a t : Nat) : Option Atom := do
  let d ← gR a
  let a' ← gR (fld t 0 6)
  let b ← gR (fld t 6 6)
  need (fld t 14 14 == 0) ⟨d, b, a', bt t 29, bt t 28, bt t 31, bt t 30, uf t 12 2⟩

/-- The words of `Atom` under opcode `op`. -/
def encAtom (op : Nat) (o : Atom) : Nat × Nat :=
  (headOf op 2 (gC o.d), gC o.a * 2 ^ 0 + gC o.b * 2 ^ 6 + o.wait.toNat * 2 ^ 12 + o.n.toNat * 2 ^ 28 + o.w.toNat * 2 ^ 29 + o.rel.toNat * 2 ^ 30 + o.acq.toNat * 2 ^ 31)

/-- The operand fields of `ACas`. -/
def decACas (a t : Nat) : Option ACas := do
  let d ← gR a
  let a' ← gR (fld t 0 6)
  let b ← gR (fld t 6 6)
  let c ← gR (fld t 16 6)
  need (fld t 14 2 == 0 && fld t 22 6 == 0) ⟨d, b, a', c, bt t 29, bt t 28, bt t 31, bt t 30, uf t 12 2⟩

/-- The words of `ACas` under opcode `op`. -/
def encACas (op : Nat) (o : ACas) : Nat × Nat :=
  (headOf op 2 (gC o.d), gC o.a * 2 ^ 0 + gC o.b * 2 ^ 6 + o.wait.toNat * 2 ^ 12 + gC o.c * 2 ^ 16 + o.n.toNat * 2 ^ 28 + o.w.toNat * 2 ^ 29 + o.rel.toNat * 2 ^ 30 + o.acq.toNat * 2 ^ 31)

/-- The operand fields of `AFAdd`. -/
def decAFAdd (a t : Nat) : Option AFAdd := do
  let d ← gR a
  let a' ← gR (fld t 0 6)
  let b ← gR (fld t 6 6)
  let ft ← FloatTy.ofCode (fld t 14 2)
  need (fld t 16 12 == 0 && fld t 29 1 == 0) ⟨d, b, a', ft, bt t 28, bt t 31, bt t 30, uf t 12 2⟩

/-- The words of `AFAdd` under opcode `op`. -/
def encAFAdd (op : Nat) (o : AFAdd) : Nat × Nat :=
  (headOf op 2 (gC o.d), gC o.a * 2 ^ 0 + gC o.b * 2 ^ 6 + o.wait.toNat * 2 ^ 12 + o.ft.code * 2 ^ 14 + o.n.toNat * 2 ^ 28 + o.rel.toNat * 2 ^ 30 + o.acq.toNat * 2 ^ 31)

/-- The operand fields of `VMem`. -/
def decVMem (a t : Nat) : Option VMem := do
  let v ← vR a
  let b ← gR (fld t 6 6)
  need (fld t 0 6 == 0 && fld t 16 6 == 0 && fld t 27 5 == 0) ⟨v, b, uf t 22 5, uf t 14 2, uf t 12 2⟩

/-- The words of `VMem` under opcode `op`. -/
def encVMem (op : Nat) (o : VMem) : Nat × Nat :=
  (headOf op 2 (vC o.v), gC o.b * 2 ^ 6 + o.wait.toNat * 2 ^ 12 + o.z.toNat * 2 ^ 14 + o.om.toNat * 2 ^ 22)

/-- The operand fields of `VMem32`. -/
def decVMem32 (a t : Nat) : Option VMem32 := do
  let v ← vR a
  let b ← gR (fld t 6 6)
  need (fld t 0 6 == 0 && fld t 16 6 == 0 && fld t 27 5 == 0) ⟨v, b, uf t 22 5, uf t 14 2, uf t 12 2, uf t 32 32⟩

/-- The words of `VMem32` under opcode `op`. -/
def encVMem32 (op : Nat) (o : VMem32) : Nat × Nat :=
  (headOf op 3 (vC o.v), gC o.b * 2 ^ 6 + o.wait.toNat * 2 ^ 12 + o.z.toNat * 2 ^ 14 + o.om.toNat * 2 ^ 22 + o.imm.toNat * 2 ^ 32)

/-- The operand fields of `VIdx`. -/
def decVIdx (a t : Nat) : Option VIdx := do
  let v ← vR a
  let b ← gR (fld t 6 6)
  let c ← vR (fld t 16 6)
  need (fld t 0 6 == 0 && fld t 27 2 == 0 && fld t 31 1 == 0) ⟨v, b, c, uf t 22 5, uf t 29 2, uf t 14 2, uf t 12 2⟩

/-- The words of `VIdx` under opcode `op`. -/
def encVIdx (op : Nat) (o : VIdx) : Nat × Nat :=
  (headOf op 2 (vC o.v), gC o.b * 2 ^ 6 + o.wait.toNat * 2 ^ 12 + o.z.toNat * 2 ^ 14 + vC o.c * 2 ^ 16 + o.om.toNat * 2 ^ 22 + o.sc.toNat * 2 ^ 29)

/-- The operand fields of `VIdx32`. -/
def decVIdx32 (a t : Nat) : Option VIdx32 := do
  let v ← vR a
  let b ← gR (fld t 6 6)
  let c ← vR (fld t 16 6)
  need (fld t 0 6 == 0 && fld t 27 2 == 0 && fld t 31 1 == 0) ⟨v, b, c, uf t 22 5, uf t 29 2, uf t 14 2, uf t 12 2, uf t 32 32⟩

/-- The words of `VIdx32` under opcode `op`. -/
def encVIdx32 (op : Nat) (o : VIdx32) : Nat × Nat :=
  (headOf op 3 (vC o.v), gC o.b * 2 ^ 6 + o.wait.toNat * 2 ^ 12 + o.z.toNat * 2 ^ 14 + vC o.c * 2 ^ 16 + o.om.toNat * 2 ^ 22 + o.sc.toNat * 2 ^ 29 + o.imm.toNat * 2 ^ 32)

/-- The operand fields of `VFmtMem`. -/
def decVFmtMem (a t : Nat) : Option VFmtMem := do
  let v ← vR a
  let b ← gR (fld t 6 6)
  let vt ← VTy.ofCode (fld t 16 4)
  let rm ← RMode.ofCode (fld t 29 3)
  need (fld t 0 6 == 0 && fld t 14 2 == 0 && fld t 27 1 == 0) ⟨v, b, uf t 22 5, uf t 20 2, vt, rm, bt t 28, uf t 12 2⟩

/-- The words of `VFmtMem` under opcode `op`. -/
def encVFmtMem (op : Nat) (o : VFmtMem) : Nat × Nat :=
  (headOf op 2 (vC o.v), gC o.b * 2 ^ 6 + o.wait.toNat * 2 ^ 12 + o.vt.code * 2 ^ 16 + o.kc.toNat * 2 ^ 20 + o.om.toNat * 2 ^ 22 + o.sat.toNat * 2 ^ 28 + o.rm.code * 2 ^ 29)

/-- The operand fields of `VFmtMem32`. -/
def decVFmtMem32 (a t : Nat) : Option VFmtMem32 := do
  let v ← vR a
  let b ← gR (fld t 6 6)
  let vt ← VTy.ofCode (fld t 16 4)
  let rm ← RMode.ofCode (fld t 29 3)
  need (fld t 0 6 == 0 && fld t 14 2 == 0 && fld t 27 1 == 0) ⟨v, b, uf t 22 5, uf t 20 2, vt, rm, bt t 28, uf t 12 2, uf t 32 32⟩

/-- The words of `VFmtMem32` under opcode `op`. -/
def encVFmtMem32 (op : Nat) (o : VFmtMem32) : Nat × Nat :=
  (headOf op 3 (vC o.v), gC o.b * 2 ^ 6 + o.wait.toNat * 2 ^ 12 + o.vt.code * 2 ^ 16 + o.kc.toNat * 2 ^ 20 + o.om.toNat * 2 ^ 22 + o.sat.toNat * 2 ^ 28 + o.rm.code * 2 ^ 29 + o.imm.toNat * 2 ^ 32)

/-- The operand fields of `VArith`. -/
def decVArith (a t : Nat) : Option VArith := do
  let d ← vR a
  let a' ← vR (fld t 0 6)
  let b ← vR (fld t 6 6)
  let vt ← VTy.ofCode (fld t 12 4)
  let rm ← RMode.ofCode (fld t 29 3)
  need (fld t 16 6 == 0 && fld t 27 1 == 0) ⟨d, a', b, uf t 22 5, vt, rm, bt t 28⟩

/-- The words of `VArith` under opcode `op`. -/
def encVArith (op : Nat) (o : VArith) : Nat × Nat :=
  (headOf op 2 (vC o.d), vC o.a * 2 ^ 0 + vC o.b * 2 ^ 6 + o.vt.code * 2 ^ 12 + o.om.toNat * 2 ^ 22 + o.sat.toNat * 2 ^ 28 + o.rm.code * 2 ^ 29)

/-- The operand fields of `VFma`. -/
def decVFma (a t : Nat) : Option VFma := do
  let d ← vR a
  let a' ← vR (fld t 0 6)
  let b ← vR (fld t 6 6)
  let vt ← VTy.ofCode (fld t 12 4)
  let c ← vR (fld t 16 6)
  let rm ← RMode.ofCode (fld t 29 3)
  need (fld t 27 1 == 0) ⟨d, a', b, c, uf t 22 5, vt, rm, bt t 28⟩

/-- The words of `VFma` under opcode `op`. -/
def encVFma (op : Nat) (o : VFma) : Nat × Nat :=
  (headOf op 2 (vC o.d), vC o.a * 2 ^ 0 + vC o.b * 2 ^ 6 + o.vt.code * 2 ^ 12 + vC o.c * 2 ^ 16 + o.om.toNat * 2 ^ 22 + o.sat.toNat * 2 ^ 28 + o.rm.code * 2 ^ 29)

/-- The operand fields of `VBin`. -/
def decVBin (a t : Nat) : Option VBin := do
  let d ← vR a
  let a' ← vR (fld t 0 6)
  let b ← vR (fld t 6 6)
  let vt ← VTy.ofCode (fld t 12 4)
  need (fld t 16 6 == 0 && fld t 27 5 == 0) ⟨d, a', b, uf t 22 5, vt⟩

/-- The words of `VBin` under opcode `op`. -/
def encVBin (op : Nat) (o : VBin) : Nat × Nat :=
  (headOf op 2 (vC o.d), vC o.a * 2 ^ 0 + vC o.b * 2 ^ 6 + o.vt.code * 2 ^ 12 + o.om.toNat * 2 ^ 22)

/-- The operand fields of `VAbs`. -/
def decVAbs (a t : Nat) : Option VAbs := do
  let d ← vR a
  let a' ← vR (fld t 0 6)
  let vt ← VTy.ofCode (fld t 12 4)
  need (fld t 6 6 == 0 && fld t 16 6 == 0 && fld t 27 1 == 0 && fld t 29 3 == 0) ⟨d, a', uf t 22 5, vt, bt t 28⟩

/-- The words of `VAbs` under opcode `op`. -/
def encVAbs (op : Nat) (o : VAbs) : Nat × Nat :=
  (headOf op 2 (vC o.d), vC o.a * 2 ^ 0 + o.vt.code * 2 ^ 12 + o.om.toNat * 2 ^ 22 + o.sat.toNat * 2 ^ 28)

/-- The operand fields of `VCmp`. -/
def decVCmp (a t : Nat) : Option VCmp := do
  let d ← gR a
  let a' ← vR (fld t 0 6)
  let b ← vR (fld t 6 6)
  let vt ← VTy.ofCode (fld t 12 4)
  let cc ← VCond.ofCode (fld t 29 3)
  need (fld t 16 6 == 0 && fld t 27 2 == 0) ⟨d, a', b, uf t 22 5, vt, cc⟩

/-- The words of `VCmp` under opcode `op`. -/
def encVCmp (op : Nat) (o : VCmp) : Nat × Nat :=
  (headOf op 2 (gC o.d), vC o.a * 2 ^ 0 + vC o.b * 2 ^ 6 + o.vt.code * 2 ^ 12 + o.om.toNat * 2 ^ 22 + o.cc.code * 2 ^ 29)

/-- The operand fields of `VSel`. -/
def decVSel (a t : Nat) : Option VSel := do
  let d ← vR a
  let a' ← vR (fld t 0 6)
  let b ← vR (fld t 6 6)
  let vt ← VTy.ofCode (fld t 12 4)
  let c ← gR (fld t 16 6)
  need (fld t 27 5 == 0) ⟨d, a', b, c, uf t 22 5, vt⟩

/-- The words of `VSel` under opcode `op`. -/
def encVSel (op : Nat) (o : VSel) : Nat × Nat :=
  (headOf op 2 (vC o.d), vC o.a * 2 ^ 0 + vC o.b * 2 ^ 6 + o.vt.code * 2 ^ 12 + gC o.c * 2 ^ 16 + o.om.toNat * 2 ^ 22)

/-- The operand fields of `VSlide`. -/
def decVSlide (a t : Nat) : Option VSlide := do
  let d ← vR a
  let a' ← vR (fld t 0 6)
  let b ← vR (fld t 6 6)
  let vt ← VTy.ofCode (fld t 12 4)
  let c ← gR (fld t 16 6)
  need (fld t 28 4 == 0) ⟨d, a', b, c, uf t 22 5, vt, bt t 27⟩

/-- The words of `VSlide` under opcode `op`. -/
def encVSlide (op : Nat) (o : VSlide) : Nat × Nat :=
  (headOf op 2 (vC o.d), vC o.a * 2 ^ 0 + vC o.b * 2 ^ 6 + o.vt.code * 2 ^ 12 + gC o.c * 2 ^ 16 + o.om.toNat * 2 ^ 22 + o.up.toNat * 2 ^ 27)

/-- The operand fields of `VFn`. -/
def decVFn (a t : Nat) : Option VFn := do
  let d ← vR a
  let a' ← vR (fld t 0 6)
  let vt ← VTy.ofCode (fld t 12 4)
  let fn ← VFun.ofCode (fld t 16 6)
  let rm ← RMode.ofCode (fld t 29 3)
  need (fld t 6 6 == 0 && fld t 27 1 == 0) ⟨d, a', uf t 22 5, vt, fn, rm, bt t 28⟩

/-- The words of `VFn` under opcode `op`. -/
def encVFn (op : Nat) (o : VFn) : Nat × Nat :=
  (headOf op 2 (vC o.d), vC o.a * 2 ^ 0 + o.vt.code * 2 ^ 12 + o.fn.code * 2 ^ 16 + o.om.toNat * 2 ^ 22 + o.sat.toNat * 2 ^ 28 + o.rm.code * 2 ^ 29)

/-- The operand fields of `VMov`. -/
def decVMov (a t : Nat) : Option VMov := do
  let d ← vR a
  let a' ← vR (fld t 0 6)
  let vt ← VTy.ofCode (fld t 12 4)
  need (fld t 6 6 == 0 && fld t 16 6 == 0 && fld t 27 5 == 0) ⟨d, a', uf t 22 5, vt⟩

/-- The words of `VMov` under opcode `op`. -/
def encVMov (op : Nat) (o : VMov) : Nat × Nat :=
  (headOf op 2 (vC o.d), vC o.a * 2 ^ 0 + o.vt.code * 2 ^ 12 + o.om.toNat * 2 ^ 22)

/-- The operand fields of `VRed`. -/
def decVRed (a t : Nat) : Option VRed := do
  let d ← gR a
  let a' ← vR (fld t 0 6)
  let vt ← VTy.ofCode (fld t 12 4)
  let op ← RedOp.ofCode (fld t 16 6)
  let rm ← RMode.ofCode (fld t 29 3)
  need (fld t 6 6 == 0 && fld t 27 1 == 0) ⟨d, a', uf t 22 5, vt, op, rm, bt t 28⟩

/-- The words of `VRed` under opcode `op`. -/
def encVRed (op : Nat) (o : VRed) : Nat × Nat :=
  (headOf op 2 (gC o.d), vC o.a * 2 ^ 0 + o.vt.code * 2 ^ 12 + o.op.code * 2 ^ 16 + o.om.toNat * 2 ^ 22 + o.sat.toNat * 2 ^ 28 + o.rm.code * 2 ^ 29)

/-- The operand fields of `VScan`. -/
def decVScan (a t : Nat) : Option VScan := do
  let d ← vR a
  let a' ← vR (fld t 0 6)
  let vt ← VTy.ofCode (fld t 12 4)
  let op ← RedOp.ofCode (fld t 16 6)
  let rm ← RMode.ofCode (fld t 29 3)
  need (fld t 6 6 == 0) ⟨d, a', uf t 22 5, vt, op, rm, bt t 28, bt t 27⟩

/-- The words of `VScan` under opcode `op`. -/
def encVScan (op : Nat) (o : VScan) : Nat × Nat :=
  (headOf op 2 (vC o.d), vC o.a * 2 ^ 0 + o.vt.code * 2 ^ 12 + o.op.code * 2 ^ 16 + o.om.toNat * 2 ^ 22 + o.ex.toNat * 2 ^ 27 + o.sat.toNat * 2 ^ 28 + o.rm.code * 2 ^ 29)

/-- The operand fields of `Mmq`. -/
def decMmq (a t : Nat) : Option Mmq := do
  let acc ← aR a
  let a' ← gR (fld t 32 6)
  let b ← gR (fld t 38 6)
  let c ← gR (fld t 44 6)
  need (fld t 50 14 == 0) ⟨acc, a', b, c, sigOf t⟩

/-- The words of `Mmq` under opcode `op`. -/
def encMmq (op : Nat) (o : Mmq) : Nat × Nat :=
  (headOf op 3 (aC o.acc), sigC o.sig + gC o.a * 2 ^ 32 + gC o.b * 2 ^ 38 + gC o.c * 2 ^ 44)

/-- The operand fields of `Mmqg`. -/
def decMmqg (a t : Nat) : Option Mmqg := do
  let acc ← aR a
  let a' ← gR (fld t 32 6)
  let b ← gR (fld t 38 6)
  let c ← gR (fld t 44 6)
  need (fld t 54 10 == 0) ⟨acc, a', b, c, uf t 50 4, sigOf t⟩

/-- The words of `Mmqg` under opcode `op`. -/
def encMmqg (op : Nat) (o : Mmqg) : Nat × Nat :=
  (headOf op 3 (aC o.acc), sigC o.sig + gC o.a * 2 ^ 32 + gC o.b * 2 ^ 38 + gC o.c * 2 ^ 44 + o.iv.toNat * 2 ^ 50)

/-- The operand fields of `Mzero`. -/
def decMzero (a t : Nat) : Option Mzero := do
  let acc ← aR a
  need (fld t 32 32 == 0) ⟨acc, sigOf t⟩

/-- The words of `Mzero` under opcode `op`. -/
def encMzero (op : Nat) (o : Mzero) : Nat × Nat :=
  (headOf op 3 (aC o.acc), sigC o.sig)

/-- The operand fields of `MMem`. -/
def decMMem (a t : Nat) : Option MMem := do
  let acc ← aR a
  let a' ← gR (fld t 32 6)
  let b ← gR (fld t 38 6)
  need (fld t 44 20 == 0) ⟨acc, a', b, sigOf t⟩

/-- The words of `MMem` under opcode `op`. -/
def encMMem (op : Nat) (o : MMem) : Nat × Nat :=
  (headOf op 3 (aC o.acc), sigC o.sig + gC o.a * 2 ^ 32 + gC o.b * 2 ^ 38)

/-- The operand fields of `Mqz`. -/
def decMqz (a t : Nat) : Option Mqz := do
  let acc ← aR a
  let a' ← gR (fld t 32 6)
  let b ← gR (fld t 38 6)
  let rm ← RMode.ofCode (fld t 50 3)
  need (fld t 44 6 == 0 && fld t 54 10 == 0) ⟨acc, a', b, rm, bt t 53, sigOf t⟩

/-- The words of `Mqz` under opcode `op`. -/
def encMqz (op : Nat) (o : Mqz) : Nat × Nat :=
  (headOf op 3 (aC o.acc), sigC o.sig + gC o.a * 2 ^ 32 + gC o.b * 2 ^ 38 + o.rm.code * 2 ^ 50 + o.sat.toNat * 2 ^ 53)

/-- The operand fields of `Mdq`. -/
def decMdq (a t : Nat) : Option Mdq := do
  let acc ← aR a
  let a' ← gR (fld t 32 6)
  let b ← gR (fld t 38 6)
  need (fld t 44 6 == 0 && fld t 51 13 == 0) ⟨acc, a', b, bt t 50, sigOf t⟩

/-- The words of `Mdq` under opcode `op`. -/
def encMdq (op : Nat) (o : Mdq) : Nat × Nat :=
  (headOf op 3 (aC o.acc), sigC o.sig + gC o.a * 2 ^ 32 + gC o.b * 2 ^ 38 + o.add.toNat * 2 ^ 50)

/-- The operand fields of `MgeoI`. -/
def decMgeoI (a t : Nat) : Option MgeoI := do
  let d ← gR a
  need (fld t 0 20 == 0) ⟨d, uf t 26 6, uf t 20 6⟩

/-- The words of `MgeoI` under opcode `op`. -/
def encMgeoI (op : Nat) (o : MgeoI) : Nat × Nat :=
  (headOf op 2 (gC o.d), o.gw.toNat * 2 ^ 20 + o.gorg.toNat * 2 ^ 26)

/-- The operand fields of `Msub`. -/
def decMsub (a t : Nat) : Option Msub := do
  need (a == 0 && fld t 0 16 == 0) ⟨uf t 24 8, uf t 16 8⟩

/-- The words of `Msub` under opcode `op`. -/
def encMsub (op : Nat) (o : Msub) : Nat × Nat :=
  (headOf op 2 (0), o.dx.toNat * 2 ^ 16 + o.dy.toNat * 2 ^ 24)

/-- The operand fields of `Cpq`. -/
def decCpq (a t : Nat) : Option Cpq := do
  let a' ← gR (fld t 32 6)
  let b ← gR (fld t 38 6)
  let c ← gR (fld t 44 6)
  need (a == 0 && fld t 50 14 == 0) ⟨a', b, c, sigOf t⟩

/-- The words of `Cpq` under opcode `op`. -/
def encCpq (op : Nat) (o : Cpq) : Nat × Nat :=
  (headOf op 3 (0), sigC o.sig + gC o.a * 2 ^ 32 + gC o.b * 2 ^ 38 + gC o.c * 2 ^ 44)

/-- The operand fields of `Cpqt`. -/
def decCpqt (a t : Nat) : Option Cpqt := do
  let d ← gR a
  let a' ← gR (fld t 32 6)
  let b ← gR (fld t 38 6)
  let c ← gR (fld t 44 6)
  need (fld t 50 14 == 0) ⟨d, a', b, c, sigOf t⟩

/-- The words of `Cpqt` under opcode `op`. -/
def encCpqt (op : Nat) (o : Cpqt) : Nat × Nat :=
  (headOf op 3 (gC o.d), sigC o.sig + gC o.a * 2 ^ 32 + gC o.b * 2 ^ 38 + gC o.c * 2 ^ 44)

/-- The operand fields of `ChReg`. -/
def decChReg (a t : Nat) : Option ChReg := do
  let r ← gR a
  need (fld t 0 12 == 0 && fld t 15 1 == 0 && fld t 24 8 == 0) ⟨r, uf t 16 8, uf t 12 3⟩

/-- The words of `ChReg` under opcode `op`. -/
def encChReg (op : Nat) (o : ChReg) : Nat × Nat :=
  (headOf op 2 (gC o.r), o.nM1.toNat * 2 ^ 12 + o.port.toNat * 2 ^ 16)

/-- The operand fields of `ChBs`. -/
def decChBs (a t : Nat) : Option ChBs := do
  let d ← gR a
  let a' ← gR (fld t 0 6)
  let b ← gR (fld t 6 6)
  need (fld t 12 4 == 0 && fld t 24 8 == 0) ⟨d, uf t 16 8, a', b⟩

/-- The words of `ChBs` under opcode `op`. -/
def encChBs (op : Nat) (o : ChBs) : Nat × Nat :=
  (headOf op 2 (gC o.d), gC o.a * 2 ^ 0 + gC o.b * 2 ^ 6 + o.port.toNat * 2 ^ 16)

/-- The operand fields of `ChBr`. -/
def decChBr (a t : Nat) : Option ChBr := do
  let d ← gR a
  let a' ← gR (fld t 0 6)
  need (fld t 6 10 == 0 && fld t 24 8 == 0) ⟨d, uf t 16 8, a'⟩

/-- The words of `ChBr` under opcode `op`. -/
def encChBr (op : Nat) (o : ChBr) : Nat × Nat :=
  (headOf op 2 (gC o.d), gC o.a * 2 ^ 0 + o.port.toNat * 2 ^ 16)

/-- The operand fields of `ChQ`. -/
def decChQ (a t : Nat) : Option ChQ := do
  let d ← gR a
  need (fld t 0 16 == 0 && fld t 24 8 == 0) ⟨d, uf t 16 8⟩

/-- The words of `ChQ` under opcode `op`. -/
def encChQ (op : Nat) (o : ChQ) : Nat × Nat :=
  (headOf op 2 (gC o.d), o.port.toNat * 2 ^ 16)

/-- The operand fields of `Alt`. -/
def decAlt (a t : Nat) : Option Alt := do
  let d ← gR a
  let a' ← gR (fld t 0 6)
  let b ← gR (fld t 6 6)
  let c ← gR (fld t 16 6)
  need (fld t 12 4 == 0 && fld t 22 10 == 0) ⟨d, a', b, c⟩

/-- The words of `Alt` under opcode `op`. -/
def encAlt (op : Nat) (o : Alt) : Nat × Nat :=
  (headOf op 2 (gC o.d), gC o.a * 2 ^ 0 + gC o.b * 2 ^ 6 + gC o.c * 2 ^ 16)

/-- The operand fields of `Spawn`. -/
def decSpawn (a t : Nat) : Option Spawn := do
  let a' ← gR (fld t 0 6)
  let b ← gR (fld t 6 6)
  need (a == 0 && fld t 12 20 == 0) ⟨a', b⟩

/-- The words of `Spawn` under opcode `op`. -/
def encSpawn (op : Nat) (o : Spawn) : Nat × Nat :=
  (headOf op 2 (0), gC o.a * 2 ^ 0 + gC o.b * 2 ^ 6)

/-- The operand fields of `SpawnT`. -/
def decSpawnT (a t : Nat) : Option SpawnT := do
  let d ← gR a
  let a' ← gR (fld t 0 6)
  let b ← gR (fld t 6 6)
  need (fld t 12 20 == 0) ⟨d, a', b⟩

/-- The words of `SpawnT` under opcode `op`. -/
def encSpawnT (op : Nat) (o : SpawnT) : Nat × Nat :=
  (headOf op 2 (gC o.d), gC o.a * 2 ^ 0 + gC o.b * 2 ^ 6)

/-- The operand fields of `VSift`. -/
def decVSift (a t : Nat) : Option VSift := do
  let d ← gR a
  let a' ← vR (fld t 0 6)
  let b ← gR (fld t 6 6)
  let vt ← VTy.ofCode (fld t 12 4)
  let c ← gR (fld t 16 6)
  need (fld t 27 5 == 0) ⟨d, a', b, c, uf t 22 5, vt⟩

/-- The words of `VSift` under opcode `op`. -/
def encVSift (op : Nat) (o : VSift) : Nat × Nat :=
  (headOf op 2 (gC o.d), vC o.a * 2 ^ 0 + gC o.b * 2 ^ 6 + o.vt.code * 2 ^ 12 + gC o.c * 2 ^ 16 + o.om.toNat * 2 ^ 22)

/-- The operand fields of `Bar`. -/
def decBar (a t : Nat) : Option Bar := do
  let d ← gR a
  let sc ← BScope.ofCode (fld t 14 2)
  need (fld t 0 14 == 0) ⟨d, sc⟩

/-- The words of `Bar` under opcode `op`. -/
def encBar (op : Nat) (o : Bar) : Nat × Nat :=
  (headOf op 1 (gC o.d), o.sc.code * 2 ^ 14)

/-- The operand fields of `BarW`. -/
def decBarW (a t : Nat) : Option BarW := do
  let a' ← gR (fld t 0 6)
  let sc ← BScope.ofCode (fld t 14 2)
  need (a == 0 && fld t 6 8 == 0) ⟨a', sc⟩

/-- The words of `BarW` under opcode `op`. -/
def encBarW (op : Nat) (o : BarW) : Nat × Nat :=
  (headOf op 1 (0), gC o.a * 2 ^ 0 + o.sc.code * 2 ^ 14)

/-- The operand fields of `Crd`. -/
def decCrd (a t : Nat) : Option Crd := do
  let d ← gR a
  need (fld t 0 16 == 0 && fld t 28 4 == 0) ⟨d, uf t 16 12⟩

/-- The words of `Crd` under opcode `op`. -/
def encCrd (op : Nat) (o : Crd) : Nat × Nat :=
  (headOf op 2 (gC o.d), o.idx.toNat * 2 ^ 16)

/-- The operand fields of `Cwr`. -/
def decCwr (a t : Nat) : Option Cwr := do
  let a' ← gR (fld t 0 6)
  need (a == 0 && fld t 6 10 == 0 && fld t 28 4 == 0) ⟨uf t 16 12, a'⟩

/-- The words of `Cwr` under opcode `op`. -/
def encCwr (op : Nat) (o : Cwr) : Nat × Nat :=
  (headOf op 2 (0), gC o.a * 2 ^ 0 + o.idx.toNat * 2 ^ 16)

/-- The operand fields of `Tlbi`. -/
def decTlbi (a t : Nat) : Option Tlbi := do
  let d ← gR a
  let a' ← gR (fld t 0 6)
  let b ← gR (fld t 6 6)
  need (fld t 15 1 == 0) ⟨d, a', b, uf t 12 2, bt t 14⟩

/-- The words of `Tlbi` under opcode `op`. -/
def encTlbi (op : Nat) (o : Tlbi) : Nat × Nat :=
  (headOf op 1 (gC o.d), gC o.a * 2 ^ 0 + gC o.b * 2 ^ 6 + o.mode.toNat * 2 ^ 12 + o.ca.toNat * 2 ^ 14)

/-- The operand fields of `CLoad`. -/
def decCLoad (a t : Nat) : Option CLoad := do
  let d ← gR a
  let a' ← gR (fld t 0 6)
  let b ← gR (fld t 6 6)
  need (fld t 12 4 == 0) ⟨d, a', b⟩

/-- The words of `CLoad` under opcode `op`. -/
def encCLoad (op : Nat) (o : CLoad) : Nat × Nat :=
  (headOf op 1 (gC o.d), gC o.a * 2 ^ 0 + gC o.b * 2 ^ 6)

/-- The operand fields of `CBind`. -/
def decCBind (a t : Nat) : Option CBind := do
  let a' ← gR (fld t 0 6)
  need (a == 0 && fld t 6 10 == 0 && fld t 27 5 == 0) ⟨a', uf t 16 5, uf t 21 6⟩

/-- The words of `CBind` under opcode `op`. -/
def encCBind (op : Nat) (o : CBind) : Nat × Nat :=
  (headOf op 2 (0), gC o.a * 2 ^ 0 + o.k.toNat * 2 ^ 16 + o.lenM1.toNat * 2 ^ 21)

/-- The operand fields of `DArith`. -/
def decDArith (a t : Nat) : Option DArith := do
  let d ← gR a
  let a' ← gR (fld t 0 6)
  let b ← gR (fld t 6 6)
  let rm ← RMode.ofCode (fld t 29 3)
  need (fld t 12 17 == 0) ⟨d, a', b, rm⟩

/-- The words of `DArith` under opcode `op`. -/
def encDArith (op : Nat) (o : DArith) : Nat × Nat :=
  (headOf op 2 (gC o.d), gC o.a * 2 ^ 0 + gC o.b * 2 ^ 6 + o.rm.code * 2 ^ 29)

/-- The operand fields of `DFma`. -/
def decDFma (a t : Nat) : Option DFma := do
  let d ← gR a
  let a' ← gR (fld t 0 6)
  let b ← gR (fld t 6 6)
  let c ← gR (fld t 16 6)
  let rm ← RMode.ofCode (fld t 29 3)
  need (fld t 12 4 == 0 && fld t 22 7 == 0) ⟨d, a', b, c, rm⟩

/-- The words of `DFma` under opcode `op`. -/
def encDFma (op : Nat) (o : DFma) : Nat × Nat :=
  (headOf op 2 (gC o.d), gC o.a * 2 ^ 0 + gC o.b * 2 ^ 6 + gC o.c * 2 ^ 16 + o.rm.code * 2 ^ 29)

/-- The operand fields of `DUn`. -/
def decDUn (a t : Nat) : Option DUn := do
  let d ← gR a
  let a' ← gR (fld t 0 6)
  let rm ← RMode.ofCode (fld t 29 3)
  need (fld t 6 23 == 0) ⟨d, a', rm⟩

/-- The words of `DUn` under opcode `op`. -/
def encDUn (op : Nat) (o : DUn) : Nat × Nat :=
  (headOf op 2 (gC o.d), gC o.a * 2 ^ 0 + o.rm.code * 2 ^ 29)

/-- The operand fields of `VDFma`. -/
def decVDFma (a t : Nat) : Option VDFma := do
  let d ← vR a
  let a' ← vR (fld t 0 6)
  let b ← vR (fld t 6 6)
  let c ← vR (fld t 16 6)
  let rm ← RMode.ofCode (fld t 29 3)
  need (fld t 12 4 == 0 && fld t 27 2 == 0) ⟨d, a', b, c, uf t 22 5, rm⟩

/-- The words of `VDFma` under opcode `op`. -/
def encVDFma (op : Nat) (o : VDFma) : Nat × Nat :=
  (headOf op 2 (vC o.d), vC o.a * 2 ^ 0 + vC o.b * 2 ^ 6 + vC o.c * 2 ^ 16 + o.om.toNat * 2 ^ 22 + o.rm.code * 2 ^ 29)

/-- R156 `vshl`. -/
def decVShl (a t : Nat) : Option VShl := do
  let d ← vR a
  let a' ← vR (fld t 0 6)
  let vt ← VTy.ofCode (fld t 12 4)
  let b ← if bt t 27 then (gR (fld t 6 6)).map VG.g else (vR (fld t 6 6)).map VG.v
  need (fld t 16 6 == 0 && fld t 29 3 == 0) ⟨d, a', b, uf t 22 5, vt, bt t 28⟩

/-- The X bit of `vshl` and `vshr`: the count is in a g register. -/
def VG.isG : VG → Bool
  | .g _ => true
  | .v _ => false

/-- The words of `vshl`. -/
def encVShl (op : Nat) (o : VShl) : Nat × Nat :=
  (headOf op 2 (vC o.d), vC o.a + o.b.code * 2 ^ 6 + o.vt.code * 2 ^ 12 + o.om.toNat * 2 ^ 22 +
    o.b.isG.toNat * 2 ^ 27 + o.sat.toNat * 2 ^ 28)

/-- R156 `vshr`. -/
def decVShr (a t : Nat) : Option VShr := do
  let d ← vR a
  let a' ← vR (fld t 0 6)
  let vt ← VTy.ofCode (fld t 12 4)
  let b ← if bt t 27 then (gR (fld t 6 6)).map VG.g else (vR (fld t 6 6)).map VG.v
  need (fld t 16 6 == 0 && fld t 28 4 == 0) ⟨d, a', b, uf t 22 5, vt⟩

/-- The words of `vshr`. -/
def encVShr (op : Nat) (o : VShr) : Nat × Nat :=
  (headOf op 2 (vC o.d), vC o.a + o.b.code * 2 ^ 6 + o.vt.code * 2 ^ 12 + o.om.toNat * 2 ^ 22 +
    o.b.isG.toNat * 2 ^ 27)

/-- R156 `vcvt`. -/
def decVCvt (a t : Nat) : Option VCvt := do
  let d ← vR a
  let a' ← vR (fld t 0 6)
  let vt ← VTy.ofCode (fld t 12 4)
  let dst ← VTy.ofCode (fld t 16 4)
  let rm ← RMode.ofCode (fld t 29 3)
  need (fld t 6 6 == 0)
    ⟨d, a', uf t 22 5, vt, dst, BitVec.ofNat 3 (fld t 20 2 + 4 * fld t 27 1), rm, bt t 28⟩

/-- The words of `vcvt`. -/
def encVCvt (op : Nat) (o : VCvt) : Nat × Nat :=
  (headOf op 2 (vC o.d), vC o.a + o.vt.code * 2 ^ 12 + o.dst.code * 2 ^ 16 +
    (o.part.toNat % 4) * 2 ^ 20 + o.om.toNat * 2 ^ 22 + (o.part.toNat / 4) * 2 ^ 27 +
    o.sat.toNat * 2 ^ 28 + o.rm.code * 2 ^ 29)

/-- R156, R173 `vbcast`. -/
def decVBcast (a t : Nat) : Option VBcast := do
  let d ← vR a
  let vt ← VTy.ofCode (fld t 12 4)
  let src ←
    match gR (fld t 0 6) with
    | some r => need (fld t 16 6 == 0) (BSrc.g r)
    | none => (vR (fld t 0 6)).map (fun r => BSrc.v r (uf t 16 6))
  need (fld t 6 6 == 0 && fld t 27 5 == 0) ⟨d, src, uf t 22 5, vt⟩

/-- OA and OC of `vbcast`. -/
def BSrc.words : BSrc → Nat
  | .g r => gC r
  | .v r i => vC r + i.toNat * 2 ^ 16

/-- The words of `vbcast`. -/
def encVBcast (op : Nat) (o : VBcast) : Nat × Nat :=
  (headOf op 2 (vC o.d), o.src.words + o.vt.code * 2 ^ 12 + o.om.toNat * 2 ^ 22)

/-- R176: the lane index in OC, or in the register OB names where X is set. -/
def decLaneIdx (t : Nat) : Option LaneIdx :=
  if bt t 27 then (gR (fld t 6 6)).bind (fun r => need (fld t 16 6 == 0) (.g r))
  else need (fld t 6 6 == 0) (.imm (uf t 16 6))

/-- OB, OC and X of `vext` and `vins`. -/
def LaneIdx.words : LaneIdx → Nat
  | .imm i => i.toNat * 2 ^ 16
  | .g r => gC r * 2 ^ 6 + 2 ^ 27

/-- R156 `vext`. -/
def decVExt (a t : Nat) : Option VExt := do
  let d ← gR a
  let a' ← vR (fld t 0 6)
  let vt ← VTy.ofCode (fld t 12 4)
  let idx ← decLaneIdx t
  need (fld t 22 5 == 0 && fld t 28 4 == 0) ⟨d, a', idx, vt⟩

/-- The words of `vext`. -/
def encVExt (op : Nat) (o : VExt) : Nat × Nat :=
  (headOf op 2 (gC o.d), vC o.a + o.vt.code * 2 ^ 12 + o.idx.words)

/-- R156 `vins`. -/
def decVIns (a t : Nat) : Option VIns := do
  let d ← vR a
  let a' ← gR (fld t 0 6)
  let vt ← VTy.ofCode (fld t 12 4)
  let idx ← decLaneIdx t
  need (fld t 22 5 == 0 && fld t 28 4 == 0) ⟨d, a', idx, vt⟩

/-- The words of `vins`. -/
def encVIns (op : Nat) (o : VIns) : Nat × Nat :=
  (headOf op 2 (vC o.d), gC o.a + o.vt.code * 2 ^ 12 + o.idx.words)

/-- R408: the value of a semaphore instruction, in X16[15:8] or in the register OA names. -/
def decSemVal (t : Nat) : Option SemVal :=
  if fld t 0 6 = 0 then some (.imm (uf t 24 8))
  else (gR (fld t 0 6)).bind (fun r => need (fld t 24 8 == 0) (.g r))

/-- OA and X16[15:8]. -/
def SemVal.words : SemVal → Nat
  | .imm v => v.toNat * 2 ^ 24
  | .g r => gC r

/-- R408 `semw`. -/
def decSemW (a t : Nat) : Option SemW := do
  let v ← decSemVal t
  need (a == 0 && fld t 6 6 == 0 && fld t 12 1 == 0 && fld t 14 2 == 0) ⟨uf t 16 8, v, bt t 13⟩

/-- The words of `semw`. -/
def encSemW (op : Nat) (o : SemW) : Nat × Nat :=
  (headOf op 2 0, o.v.words + o.nc.toNat * 2 ^ 13 + o.s.toNat * 2 ^ 16)

/-- R408 `semt`. -/
def decSemT (a t : Nat) : Option SemT := do
  let d ← gR a
  let v ← decSemVal t
  need (fld t 6 6 == 0 && fld t 12 1 == 0 && fld t 14 2 == 0) ⟨d, uf t 16 8, v, bt t 13⟩

/-- The words of `semt`. -/
def encSemT (op : Nat) (o : SemT) : Nat × Nat :=
  (headOf op 2 (gC o.d), o.v.words + o.nc.toNat * 2 ^ 13 + o.s.toNat * 2 ^ 16)

/-- R408 `semadd`, `semset`. -/
def decSemPut (a t : Nat) : Option SemPut := do
  let v ← decSemVal t
  let c ← gR (fld t 6 6)
  need (a == 0 && fld t 12 4 == 0) ⟨uf t 16 8, v, c⟩

/-- The words of `semadd` and `semset`. -/
def encSemPut (op : Nat) (o : SemPut) : Nat × Nat :=
  (headOf op 2 0, o.v.words + gC o.core * 2 ^ 6 + o.s.toNat * 2 ^ 16)

/-- The words of the comb opcodes (R69). -/
def encComb0 (o : Comb0) : Nat × Nat := (headOf (0xE0 + o.k.toNat) 0 o.d.toNat, 0)
@[inherit_doc encComb0]
def encComb1 (o : Comb1) : Nat × Nat :=
  (headOf (0xE0 + o.k.toNat) 1 o.d.toNat, o.a.toNat + o.b.toNat * 2 ^ 6)
@[inherit_doc encComb0]
def encComb2 (o : Comb2) : Nat × Nat :=
  (headOf (0xE0 + o.k.toNat) 2 o.d.toNat, o.a.toNat + o.b.toNat * 2 ^ 6 + o.imm.toNat * 2 ^ 16)
@[inherit_doc encComb0]
def encComb3 (o : Comb3) : Nat × Nat :=
  (headOf (0xE0 + o.k.toNat) 3 o.d.toNat, o.a.toNat + o.b.toNat * 2 ^ 6 + o.imm.toNat * 2 ^ 32)

/-- R69: opcodes 0xE0 to 0xFF. -/
def decodeComb (op tl a t : Nat) : Option Instr :=
  let k : BitVec 5 := BitVec.ofNat 5 (op - 0xE0)
  let d : Code := BitVec.ofNat 6 a
  if tl = 0 then some (.combTail0 ⟨k, d⟩)
  else if tl = 1 then need (fld t 12 4 == 0) (.combTail1 ⟨k, d, uf t 0 6, uf t 6 6⟩)
  else if tl = 2 then need (fld t 12 4 == 0) (.combTail2 ⟨k, d, uf t 0 6, uf t 6 6, uf t 16 16⟩)
  else need (fld t 12 20 == 0) (.combTail3 ⟨k, d, uf t 0 6, uf t 6 6, uf t 32 32⟩)

/-! ### The opcode map -/

/-- Opcodes 0x00 to 0x0F (R68). -/
def decode0 (op tl a t : Nat) : Option (Option Instr) :=
  if op = 0x00 then some (if tl = 1 then (decAluR a t).map .addReg else if tl = 2 then (decAluI16 a t).map .addImm16 else if tl = 3 then (decAluI32 a t).map .addImm32 else none)
  else if op = 0x01 then some (if tl = 1 then (decAluR a t).map .subReg else if tl = 2 then (decAluI16 a t).map .subImm16 else if tl = 3 then (decAluI32 a t).map .subImm32 else none)
  else if op = 0x02 then some (if tl = 1 then (decAluR a t).map .mulReg else if tl = 2 then (decAluI16 a t).map .mulImm16 else if tl = 3 then (decAluI32 a t).map .mulImm32 else none)
  else if op = 0x03 then some (if tl = 1 then (decAluR a t).map .mulhReg else if tl = 2 then (decAluI16 a t).map .mulhImm16 else if tl = 3 then (decAluI32 a t).map .mulhImm32 else none)
  else if op = 0x04 then some (if tl = 1 then (decAluR a t).map .divReg else if tl = 2 then (decAluI16 a t).map .divImm16 else if tl = 3 then (decAluI32 a t).map .divImm32 else none)
  else if op = 0x05 then some (if tl = 1 then (decAluR a t).map .remReg else if tl = 2 then (decAluI16 a t).map .remImm16 else if tl = 3 then (decAluI32 a t).map .remImm32 else none)
  else if op = 0x06 then some (if tl = 1 then (decAluR a t).map .andReg else if tl = 2 then (decAluI16 a t).map .andImm16 else if tl = 3 then (decAluI32 a t).map .andImm32 else none)
  else if op = 0x07 then some (if tl = 1 then (decAluR a t).map .orReg else if tl = 2 then (decAluI16 a t).map .orImm16 else if tl = 3 then (decAluI32 a t).map .orImm32 else none)
  else if op = 0x08 then some (if tl = 1 then (decAluR a t).map .xorReg else if tl = 2 then (decAluI16 a t).map .xorImm16 else if tl = 3 then (decAluI32 a t).map .xorImm32 else none)
  else if op = 0x09 then some (if tl = 1 then (decAluR a t).map .andnReg else if tl = 2 then (decAluI16 a t).map .andnImm16 else if tl = 3 then (decAluI32 a t).map .andnImm32 else none)
  else if op = 0x0A then some (if tl = 1 then (decAluR a t).map .shlReg else if tl = 2 then (decAluI16 a t).map .shlImm16 else if tl = 3 then (decAluI32 a t).map .shlImm32 else none)
  else if op = 0x0B then some (if tl = 1 then (decAluR a t).map .shrReg else if tl = 2 then (decAluI16 a t).map .shrImm16 else if tl = 3 then (decAluI32 a t).map .shrImm32 else none)
  else if op = 0x0C then some (if tl = 1 then (decAluR a t).map .sarReg else if tl = 2 then (decAluI16 a t).map .sarImm16 else if tl = 3 then (decAluI32 a t).map .sarImm32 else none)
  else if op = 0x0D then some (if tl = 1 then (decAluR a t).map .rotReg else if tl = 2 then (decAluI16 a t).map .rotImm16 else if tl = 3 then (decAluI32 a t).map .rotImm32 else none)
  else if op = 0x0E then some (if tl = 1 then (decAluR a t).map .minReg else if tl = 2 then (decAluI16 a t).map .minImm16 else if tl = 3 then (decAluI32 a t).map .minImm32 else none)
  else if op = 0x0F then some (if tl = 1 then (decAluR a t).map .maxReg else if tl = 2 then (decAluI16 a t).map .maxImm16 else if tl = 3 then (decAluI32 a t).map .maxImm32 else none)
  else none

/-- Opcodes 0x10 to 0x1F (R68). -/
def decode1 (op tl a t : Nat) : Option (Option Instr) :=
  if op = 0x10 then some (if tl = 1 then (decBitCnt a t).map .clz else none)
  else if op = 0x11 then some (if tl = 1 then (decBitCnt a t).map .ctz else none)
  else if op = 0x12 then some (if tl = 1 then (decBitCnt a t).map .popc else none)
  else if op = 0x13 then some (if tl = 2 then (decBfx a t).map .bfx else none)
  else if op = 0x14 then some (if tl = 2 then (decBfi a t).map .bfi else none)
  else if op = 0x15 then some (if tl = 2 then (decSel a t).map .sel else none)
  else if op = 0x16 then some (if tl = 1 then (decMov a t).map .mov else none)
  else if op = 0x17 then some (if tl = 2 then (decLi16 a t).map .liImm16 else if tl = 3 then (decLi32 a t).map .liImm32 else none)
  else if op = 0x18 then some (if tl = 2 then (decLea16 a t).map .leaOff16 else if tl = 3 then (decLea32 a t).map .leaOff32 else none)
  else if op = 0x19 then some (if tl = 2 then (decPtag a t).map .ptag else none)
  else if op = 0x1A then some (if tl = 1 then (decGG a t).map .pget else none)
  else if op = 0x1B then some (if tl = 1 then (decExt a t).map .ext else none)
  else none

/-- Opcodes 0x20 to 0x2F (R68). -/
def decode2 (op tl a t : Nat) : Option (Option Instr) :=
  if op = 0x20 then some (if tl = 1 then (decCmpR a t).map .cmpReg else if tl = 2 then (decCmpI16 a t).map .cmpImm16 else if tl = 3 then (decCmpI32 a t).map .cmpImm32 else none)
  else if op = 0x21 then some (if tl = 1 then (decPPP a t).map .pand else none)
  else if op = 0x22 then some (if tl = 1 then (decPPP a t).map .por else none)
  else if op = 0x23 then some (if tl = 1 then (decPPP a t).map .pxor else none)
  else if op = 0x24 then some (if tl = 1 then (decPP a t).map .pnot else none)
  else if op = 0x25 then some (if tl = 2 then (decBrNear a t).map .brNear else if tl = 3 then (decBrFar a t).map .brFar else none)
  else if op = 0x26 then some (if tl = 2 then (decJmpNear a t).map .jmpNear else if tl = 3 then (decJmpFar a t).map .jmpFar else none)
  else if op = 0x27 then some (if tl = 2 then (decJalNear a t).map .jalNear else if tl = 3 then (decJalFar a t).map .jalFar else none)
  else if op = 0x28 then some (if tl = 1 then (decGG a t).map .jr else none)
  else if op = 0x29 then some (if tl = 2 then (decJalNear a t).map .loop else none)
  else if op = 0x2A then some (if tl = 0 then need (a == 0) .nop else none)
  else none

/-- Opcodes 0x30 to 0x3F (R68). -/
def decode3 (op tl a t : Nat) : Option (Option Instr) :=
  if op = 0x30 then some (if tl = 2 then (decFArith a t).map .fadd else none)
  else if op = 0x31 then some (if tl = 2 then (decFArith a t).map .fsub else none)
  else if op = 0x32 then some (if tl = 2 then (decFArith a t).map .fmul else none)
  else if op = 0x33 then some (if tl = 2 then (decFFma a t).map .fma else none)
  else if op = 0x34 then some (if tl = 2 then (decFArith a t).map .fdiv else none)
  else if op = 0x35 then some (if tl = 2 then (decFUn a t).map .fsqrt else none)
  else if op = 0x36 then some (if tl = 2 then (decFMinMax a t).map .fmin else none)
  else if op = 0x37 then some (if tl = 2 then (decFMinMax a t).map .fmax else none)
  else if op = 0x38 then some (if tl = 2 then (decFCmp a t).map .fcmp else none)
  else if op = 0x39 then some (if tl = 2 then (decFCvt a t).map .fcvt else none)
  else if op = 0x3A then some (if tl = 2 then (decFClass a t).map .fclass else none)
  else if op = 0x3B then some (if tl = 2 then (decFSgn a t).map .fsgn else none)
  else none

/-- Opcodes 0x40 to 0x4F (R68). -/
def decode4 (op tl a t : Nat) : Option (Option Instr) :=
  if op = 0x40 then some (if tl = 2 then (decLd16 a t).map .ldOff16 else if tl = 3 then (decLd32 a t).map .ldOff32 else none)
  else if op = 0x41 then some (if tl = 2 then (decSt16 a t).map .stOff16 else if tl = 3 then (decSt32 a t).map .stOff32 else none)
  else if op = 0x42 then some (if tl = 2 then (decPair16 a t).map .ldpOff16 else if tl = 3 then (decPair32 a t).map .ldpOff32 else none)
  else if op = 0x43 then some (if tl = 2 then (decPair16 a t).map .stpOff16 else if tl = 3 then (decPair32 a t).map .stpOff32 else none)
  else if op = 0x44 then some (if tl = 1 then (decSync a t).map .acq else none)
  else if op = 0x45 then some (if tl = 1 then (decSync a t).map .rel else none)
  else if op = 0x46 then some (if tl = 1 then (decSync a t).map .fence else none)
  else if op = 0x47 then some (if tl = 1 then (decPWait a t).map .pwait else none)
  else if op = 0x48 then some (if tl = 1 then (decGAWait a t).map .tlook else none)
  else if op = 0x49 then some (if tl = 1 then (decTSet a t).map .tset else none)
  else if op = 0x4A then some (if tl = 1 then (decGBWait a t).map .tclr else none)
  else if op = 0x4B then some (if tl = 1 then (decGBWait a t).map .mon else none)
  else if op = 0x4C then some (if tl = 1 then (decGAWait a t).map .mwait else none)
  else if op = 0x4D then some (if tl = 1 then (decGBWait a t).map .sbr else none)
  else if op = 0x4E then some (if tl = 1 then (decSbw a t).map .sbw else none)
  else none

/-- Opcodes 0x50 to 0x5F (R68). -/
def decode5 (op tl a t : Nat) : Option (Option Instr) :=
  if op = 0x50 then some (if tl = 2 then (decAtom a t).map .aadd else none)
  else if op = 0x51 then some (if tl = 2 then (decAtom a t).map .amin else none)
  else if op = 0x52 then some (if tl = 2 then (decAtom a t).map .amax else none)
  else if op = 0x53 then some (if tl = 2 then (decAtom a t).map .aand else none)
  else if op = 0x54 then some (if tl = 2 then (decAtom a t).map .aor else none)
  else if op = 0x55 then some (if tl = 2 then (decAtom a t).map .axor else none)
  else if op = 0x56 then some (if tl = 2 then (decAtom a t).map .aswp else none)
  else if op = 0x57 then some (if tl = 2 then (decACas a t).map .acas else none)
  else if op = 0x58 then some (if tl = 2 then (decAFAdd a t).map .afadd else none)
  else none

/-- Opcodes 0x60 to 0x6F (R68). -/
def decode6 (op tl a t : Nat) : Option (Option Instr) :=
  if op = 0x60 then some (if tl = 2 then (decVMem a t).map .vldNoOffset else if tl = 3 then (decVMem32 a t).map .vldOff32 else none)
  else if op = 0x61 then some (if tl = 2 then (decVMem a t).map .vstNoOffset else if tl = 3 then (decVMem32 a t).map .vstOff32 else none)
  else if op = 0x62 then some (if tl = 2 then (decVIdx a t).map .vldxNoOffset else if tl = 3 then (decVIdx32 a t).map .vldxOff32 else none)
  else if op = 0x63 then some (if tl = 2 then (decVIdx a t).map .vstxNoOffset else if tl = 3 then (decVIdx32 a t).map .vstxOff32 else none)
  else if op = 0x64 then some (if tl = 2 then (decVFmtMem a t).map .vldfNoOffset else if tl = 3 then (decVFmtMem32 a t).map .vldfOff32 else none)
  else if op = 0x65 then some (if tl = 2 then (decVFmtMem a t).map .vstfNoOffset else if tl = 3 then (decVFmtMem32 a t).map .vstfOff32 else none)
  else if op = 0x66 then some (if tl = 2 then (decVArith a t).map .vadd else none)
  else if op = 0x67 then some (if tl = 2 then (decVArith a t).map .vsub else none)
  else if op = 0x68 then some (if tl = 2 then (decVArith a t).map .vmul else none)
  else if op = 0x69 then some (if tl = 2 then (decVFma a t).map .vfma else none)
  else if op = 0x6A then some (if tl = 2 then (decVBin a t).map .vmin else none)
  else if op = 0x6B then some (if tl = 2 then (decVBin a t).map .vmax else none)
  else if op = 0x6C then some (if tl = 2 then (decVAbs a t).map .vabs else none)
  else if op = 0x6D then some (if tl = 2 then (decVBin a t).map .vand else none)
  else if op = 0x6E then some (if tl = 2 then (decVBin a t).map .vor else none)
  else if op = 0x6F then some (if tl = 2 then (decVBin a t).map .vxor else none)
  else none

/-- Opcodes 0x70 to 0x7F (R68). -/
def decode7 (op tl a t : Nat) : Option (Option Instr) :=
  if op = 0x70 then some (if tl = 2 then (decVShl a t).map .vshl else none)
  else if op = 0x71 then some (if tl = 2 then (decVShr a t).map .vshr else none)
  else if op = 0x72 then some (if tl = 2 then (decVCmp a t).map .vcmp else none)
  else if op = 0x73 then some (if tl = 2 then (decVSel a t).map .vsel else none)
  else if op = 0x74 then some (if tl = 2 then (decVCvt a t).map .vcvt else none)
  else if op = 0x75 then some (if tl = 2 then (decVRed a t).map .vred else none)
  else if op = 0x76 then some (if tl = 2 then (decVScan a t).map .vscan else none)
  else if op = 0x77 then some (if tl = 2 then (decVBcast a t).map .vbcast else none)
  else if op = 0x78 then some (if tl = 2 then (decVBin a t).map .vperm else none)
  else if op = 0x79 then some (if tl = 2 then (decVSlide a t).map .vslide else none)
  else if op = 0x7A then some (if tl = 2 then (decVFn a t).map .vfn else none)
  else if op = 0x7B then some (if tl = 2 then (decVMov a t).map .vmov else none)
  else if op = 0x7C then some (if tl = 2 then (decVExt a t).map .vext else none)
  else if op = 0x7D then some (if tl = 2 then (decVIns a t).map .vins else none)
  else none

/-- Opcodes 0x80 to 0x8F (R68). -/
def decode8 (op tl a t : Nat) : Option (Option Instr) :=
  if op = 0x80 then some (if tl = 3 then (decMmq a t).map .mmq else none)
  else if op = 0x81 then some (if tl = 3 then (decMmqg a t).map .mmqg else none)
  else if op = 0x82 then some (if tl = 3 then (decMzero a t).map .mzero else none)
  else if op = 0x83 then some (if tl = 3 then (decMMem a t).map .mld else none)
  else if op = 0x84 then some (if tl = 3 then (decMMem a t).map .mst else none)
  else if op = 0x85 then some (if tl = 3 then (decMqz a t).map .mqz else none)
  else if op = 0x86 then some (if tl = 3 then (decMdq a t).map .mdq else none)
  else if op = 0x87 then some (if tl = 1 then (decGG a t).map .mgeoReg else if tl = 2 then (decMgeoI a t).map .mgeoImm else none)
  else if op = 0x88 then some (if tl = 2 then (decMsub a t).map .msub else none)
  else if op = 0x89 then some (if tl = 0 then need (a == 0) .mdrain else none)
  else if op = 0x8A then some (if tl = 1 then (gR a).bind (fun d => need (t == 0) (.mstat d)) else none)
  else none

/-- Opcodes 0x90 to 0x9F (R68). -/
def decode9 (op tl a t : Nat) : Option (Option Instr) :=
  if op = 0x90 then some (if tl = 3 then (decCpq a t).map .cpq else none)
  else if op = 0x91 then some (if tl = 3 then (decCpqt a t).map .cpqt else none)
  else if op = 0x92 then some (if tl = 2 then (decSemW a t).map .semw else none)
  else if op = 0x93 then some (if tl = 2 then (decSemT a t).map .semt else none)
  else if op = 0x94 then some (if tl = 2 then (decSemPut a t).map .semadd else none)
  else if op = 0x95 then some (if tl = 2 then (decSemPut a t).map .semset else none)
  else if op = 0x96 then some (if tl = 1 then (decGG a t).map .semget else none)
  else none

/-- Opcodes 0xA0 to 0xAF (R68). -/
def decodeA (op tl a t : Nat) : Option (Option Instr) :=
  if op = 0xA0 then some (if tl = 2 then (decChReg a t).map .chs else none)
  else if op = 0xA1 then some (if tl = 2 then (decChReg a t).map .chr else none)
  else if op = 0xA2 then some (if tl = 2 then (decAlt a t).map .alt else none)
  else if op = 0xA3 then some (if tl = 2 then (decChBs a t).map .chbs else none)
  else if op = 0xA4 then some (if tl = 2 then (decChBr a t).map .chbr else none)
  else if op = 0xA5 then some (if tl = 2 then (decChQ a t).map .chq else none)
  else if op = 0xA6 then some (if tl = 2 then (decSpawn a t).map .spawn else none)
  else if op = 0xA7 then some (if tl = 2 then (decSpawnT a t).map .spawnt else none)
  else if op = 0xA8 then some (if tl = 0 then need (a == 0) .pend else none)
  else if op = 0xA9 then some (if tl = 0 then need (a == 0) .yield else none)
  else if op = 0xAA then some (if tl = 2 then (decVSift a t).map .vsift else none)
  else if op = 0xAB then some (if tl = 1 then (decGG a t).map .swl else none)
  else if op = 0xAC then some (if tl = 1 then (decGG a t).map .swj else none)
  else if op = 0xAD then some (if tl = 0 then need (a == 0) .split else none)
  else if op = 0xAE then some (if tl = 0 then need (a == 0) .rejoin else none)
  else if op = 0xAF then some (if tl = 1 then (decBar a t).map .bar else none)
  else none

/-- Opcodes 0xB0 to 0xBF (R68). -/
def decodeB (op tl a t : Nat) : Option (Option Instr) :=
  if op = 0xB0 then some (if tl = 1 then (decBar a t).map .bara else none)
  else if op = 0xB1 then some (if tl = 1 then (decBarW a t).map .barw else none)
  else if op = 0xB2 then some (if tl = 1 then (gR a).bind (fun d => need (t == 0) (.whoami d)) else none)
  else none

/-- Opcodes 0xC0 to 0xCF (R68). -/
def decodeC (op tl a t : Nat) : Option (Option Instr) :=
  if op = 0xC0 then some (if tl = 2 then need (a == 0 && fld t 0 16 == 0) (.trap (uf t 16 16)) else none)
  else if op = 0xC1 then some (if tl = 0 then need (a == 0) .tret else none)
  else if op = 0xC2 then some (if tl = 2 then (decCrd a t).map .crd else none)
  else if op = 0xC3 then some (if tl = 2 then (decCwr a t).map .cwr else none)
  else if op = 0xC4 then some (if tl = 2 then need (a == 0 && fld t 0 16 == 0) (.brk (uf t 16 16)) else none)
  else if op = 0xC5 then some (if tl = 0 then (gR a).map .rdtime else none)
  else if op = 0xC6 then some (if tl = 2 then need (a == 0 && fld t 0 16 == 0) (.wdog (uf t 16 16)) else none)
  else if op = 0xC7 then some (if tl = 0 then need (a == 0) .idle else none)
  else if op = 0xC8 then some (if tl = 1 then (decTlbi a t).map .tlbi else none)
  else if op = 0xC9 then some (if tl = 1 then (decCLoad a t).map .cload else none)
  else if op = 0xCA then some (if tl = 2 then (decCBind a t).map .cbind else none)
  else if op = 0xCB then some (if tl = 1 then (gR (fld t 0 6)).bind (fun x => need (a == 0 && fld t 6 10 == 0) (.cunbind x)) else none)
  else none

/-- Opcodes 0xD0 to 0xDF (R68). -/
def decodeD (op tl a t : Nat) : Option (Option Instr) :=
  if op = 0xD0 then some (if tl = 2 then (decDArith a t).map .dadd else none)
  else if op = 0xD1 then some (if tl = 2 then (decDArith a t).map .dsub else none)
  else if op = 0xD2 then some (if tl = 2 then (decDArith a t).map .dmul else none)
  else if op = 0xD3 then some (if tl = 2 then (decDFma a t).map .dfma else none)
  else if op = 0xD4 then some (if tl = 2 then (decDArith a t).map .ddiv else none)
  else if op = 0xD5 then some (if tl = 2 then (decDUn a t).map .dsqrt else none)
  else if op = 0xD6 then some (if tl = 2 then (decFCvt a t).map .dcvt else none)
  else if op = 0xD7 then some (if tl = 2 then (decVDFma a t).map .vdfma else none)
  else none

/-- The opcode map (R68): `none` is opcode-undefined, `some none` operand-reserved. -/
def decodeOp (op tl a t : Nat) : Option (Option Instr) :=
  match op / 16 with
  | 0 => decode0 op tl a t
  | 1 => decode1 op tl a t
  | 2 => decode2 op tl a t
  | 3 => decode3 op tl a t
  | 4 => decode4 op tl a t
  | 5 => decode5 op tl a t
  | 6 => decode6 op tl a t
  | 7 => decode7 op tl a t
  | 8 => decode8 op tl a t
  | 9 => decode9 op tl a t
  | 10 => decodeA op tl a t
  | 11 => decodeB op tl a t
  | 12 => decodeC op tl a t
  | 13 => decodeD op tl a t
  | 14 => some (decodeComb op tl a t)
  | 15 => some (decodeComb op tl a t)
  | _ => none

/-- What decoding finds (R67, steps 2 to 4). -/
inductive Decoded where
  | ok (i : Instr)
  | undefined
  | reserved
  deriving DecidableEq, Repr

/-- Steps 2 to 4 of R67 on a head and its tail, but for the binding of a comb opcode. -/
def decode (head tail : Nat) : Decoded :=
  match decodeOp (fld head 8 8) (fld head 6 2) (fld head 0 6) tail with
  | none => .undefined
  | some none => .reserved
  | some (some i) => if i.wf then .ok i else .reserved

/-- The length in halfwords of a tail (R58). -/
def tailLen (head : Nat) : Nat :=
  if fld head 6 2 = 0 then 0 else if fld head 6 2 = 1 then 1 else if fld head 6 2 = 2 then 2 else 4

/-- The instruction of a word numbered as the opcode table numbers it: the head in the highest sixteen
bits, below it what the table gives of the tail. -/
def tableHead (nbits w : Nat) : Nat := fld w (nbits - 16) 16
@[inherit_doc tableHead]
def tableTail (nbits w : Nat) : Nat := fld w 0 (min (nbits - 16) (16 * tailLen (tableHead nbits w)))

@[inherit_doc tableHead]
def decodeTableWord (nbits w : Nat) : Option Instr :=
  match decode (tableHead nbits w) (tableTail nbits w) with
  | .ok i => some i
  | .undefined => none
  | .reserved => none

/-! ### The encoder -/

/-- The words of an instruction: its head, and its tail as one number (R58, R64). Events have none. -/
def encode : Instr → Option (Nat × Nat)
  | .addReg o => some (encAluR 0x00 o)
  | .addImm16 o => some (encAluI16 0x00 o)
  | .addImm32 o => some (encAluI32 0x00 o)
  | .subReg o => some (encAluR 0x01 o)
  | .subImm16 o => some (encAluI16 0x01 o)
  | .subImm32 o => some (encAluI32 0x01 o)
  | .mulReg o => some (encAluR 0x02 o)
  | .mulImm16 o => some (encAluI16 0x02 o)
  | .mulImm32 o => some (encAluI32 0x02 o)
  | .mulhReg o => some (encAluR 0x03 o)
  | .mulhImm16 o => some (encAluI16 0x03 o)
  | .mulhImm32 o => some (encAluI32 0x03 o)
  | .divReg o => some (encAluR 0x04 o)
  | .divImm16 o => some (encAluI16 0x04 o)
  | .divImm32 o => some (encAluI32 0x04 o)
  | .remReg o => some (encAluR 0x05 o)
  | .remImm16 o => some (encAluI16 0x05 o)
  | .remImm32 o => some (encAluI32 0x05 o)
  | .andReg o => some (encAluR 0x06 o)
  | .andImm16 o => some (encAluI16 0x06 o)
  | .andImm32 o => some (encAluI32 0x06 o)
  | .orReg o => some (encAluR 0x07 o)
  | .orImm16 o => some (encAluI16 0x07 o)
  | .orImm32 o => some (encAluI32 0x07 o)
  | .xorReg o => some (encAluR 0x08 o)
  | .xorImm16 o => some (encAluI16 0x08 o)
  | .xorImm32 o => some (encAluI32 0x08 o)
  | .andnReg o => some (encAluR 0x09 o)
  | .andnImm16 o => some (encAluI16 0x09 o)
  | .andnImm32 o => some (encAluI32 0x09 o)
  | .shlReg o => some (encAluR 0x0A o)
  | .shlImm16 o => some (encAluI16 0x0A o)
  | .shlImm32 o => some (encAluI32 0x0A o)
  | .shrReg o => some (encAluR 0x0B o)
  | .shrImm16 o => some (encAluI16 0x0B o)
  | .shrImm32 o => some (encAluI32 0x0B o)
  | .sarReg o => some (encAluR 0x0C o)
  | .sarImm16 o => some (encAluI16 0x0C o)
  | .sarImm32 o => some (encAluI32 0x0C o)
  | .rotReg o => some (encAluR 0x0D o)
  | .rotImm16 o => some (encAluI16 0x0D o)
  | .rotImm32 o => some (encAluI32 0x0D o)
  | .minReg o => some (encAluR 0x0E o)
  | .minImm16 o => some (encAluI16 0x0E o)
  | .minImm32 o => some (encAluI32 0x0E o)
  | .maxReg o => some (encAluR 0x0F o)
  | .maxImm16 o => some (encAluI16 0x0F o)
  | .maxImm32 o => some (encAluI32 0x0F o)
  | .clz o => some (encBitCnt 0x10 o)
  | .ctz o => some (encBitCnt 0x11 o)
  | .popc o => some (encBitCnt 0x12 o)
  | .bfx o => some (encBfx 0x13 o)
  | .bfi o => some (encBfi 0x14 o)
  | .sel o => some (encSel 0x15 o)
  | .mov o => some (encMov 0x16 o)
  | .liImm16 o => some (encLi16 0x17 o)
  | .liImm32 o => some (encLi32 0x17 o)
  | .leaOff16 o => some (encLea16 0x18 o)
  | .leaOff32 o => some (encLea32 0x18 o)
  | .ptag o => some (encPtag 0x19 o)
  | .pget o => some (encGG 0x1A o)
  | .ext o => some (encExt 0x1B o)
  | .cmpReg o => some (encCmpR 0x20 o)
  | .cmpImm16 o => some (encCmpI16 0x20 o)
  | .cmpImm32 o => some (encCmpI32 0x20 o)
  | .pand o => some (encPPP 0x21 o)
  | .por o => some (encPPP 0x22 o)
  | .pxor o => some (encPPP 0x23 o)
  | .pnot o => some (encPP 0x24 o)
  | .brNear o => some (encBrNear 0x25 o)
  | .brFar o => some (encBrFar 0x25 o)
  | .jmpNear o => some (encJmpNear 0x26 o)
  | .jmpFar o => some (encJmpFar 0x26 o)
  | .jalNear o => some (encJalNear 0x27 o)
  | .jalFar o => some (encJalFar 0x27 o)
  | .jr o => some (encGG 0x28 o)
  | .loop o => some (encJalNear 0x29 o)
  | .nop => some (headOf 0x2A 0 0, 0)
  | .fadd o => some (encFArith 0x30 o)
  | .fsub o => some (encFArith 0x31 o)
  | .fmul o => some (encFArith 0x32 o)
  | .fma o => some (encFFma 0x33 o)
  | .fdiv o => some (encFArith 0x34 o)
  | .fsqrt o => some (encFUn 0x35 o)
  | .fmin o => some (encFMinMax 0x36 o)
  | .fmax o => some (encFMinMax 0x37 o)
  | .fcmp o => some (encFCmp 0x38 o)
  | .fcvt o => some (encFCvt 0x39 o)
  | .fclass o => some (encFClass 0x3A o)
  | .fsgn o => some (encFSgn 0x3B o)
  | .ldOff16 o => some (encLd16 0x40 o)
  | .ldOff32 o => some (encLd32 0x40 o)
  | .stOff16 o => some (encSt16 0x41 o)
  | .stOff32 o => some (encSt32 0x41 o)
  | .ldpOff16 o => some (encPair16 0x42 o)
  | .ldpOff32 o => some (encPair32 0x42 o)
  | .stpOff16 o => some (encPair16 0x43 o)
  | .stpOff32 o => some (encPair32 0x43 o)
  | .acq o => some (encSync 0x44 o)
  | .rel o => some (encSync 0x45 o)
  | .fence o => some (encSync 0x46 o)
  | .pwait o => some (encPWait 0x47 o)
  | .tlook o => some (encGAWait 0x48 o)
  | .tset o => some (encTSet 0x49 o)
  | .tclr o => some (encGBWait 0x4A o)
  | .mon o => some (encGBWait 0x4B o)
  | .mwait o => some (encGAWait 0x4C o)
  | .sbr o => some (encGBWait 0x4D o)
  | .sbw o => some (encSbw 0x4E o)
  | .aadd o => some (encAtom 0x50 o)
  | .amin o => some (encAtom 0x51 o)
  | .amax o => some (encAtom 0x52 o)
  | .aand o => some (encAtom 0x53 o)
  | .aor o => some (encAtom 0x54 o)
  | .axor o => some (encAtom 0x55 o)
  | .aswp o => some (encAtom 0x56 o)
  | .acas o => some (encACas 0x57 o)
  | .afadd o => some (encAFAdd 0x58 o)
  | .vldNoOffset o => some (encVMem 0x60 o)
  | .vldOff32 o => some (encVMem32 0x60 o)
  | .vstNoOffset o => some (encVMem 0x61 o)
  | .vstOff32 o => some (encVMem32 0x61 o)
  | .vldxNoOffset o => some (encVIdx 0x62 o)
  | .vldxOff32 o => some (encVIdx32 0x62 o)
  | .vstxNoOffset o => some (encVIdx 0x63 o)
  | .vstxOff32 o => some (encVIdx32 0x63 o)
  | .vldfNoOffset o => some (encVFmtMem 0x64 o)
  | .vldfOff32 o => some (encVFmtMem32 0x64 o)
  | .vstfNoOffset o => some (encVFmtMem 0x65 o)
  | .vstfOff32 o => some (encVFmtMem32 0x65 o)
  | .vadd o => some (encVArith 0x66 o)
  | .vsub o => some (encVArith 0x67 o)
  | .vmul o => some (encVArith 0x68 o)
  | .vfma o => some (encVFma 0x69 o)
  | .vmin o => some (encVBin 0x6A o)
  | .vmax o => some (encVBin 0x6B o)
  | .vabs o => some (encVAbs 0x6C o)
  | .vand o => some (encVBin 0x6D o)
  | .vor o => some (encVBin 0x6E o)
  | .vxor o => some (encVBin 0x6F o)
  | .vshl o => some (encVShl 0x70 o)
  | .vshr o => some (encVShr 0x71 o)
  | .vcmp o => some (encVCmp 0x72 o)
  | .vsel o => some (encVSel 0x73 o)
  | .vcvt o => some (encVCvt 0x74 o)
  | .vred o => some (encVRed 0x75 o)
  | .vscan o => some (encVScan 0x76 o)
  | .vbcast o => some (encVBcast 0x77 o)
  | .vperm o => some (encVBin 0x78 o)
  | .vslide o => some (encVSlide 0x79 o)
  | .vfn o => some (encVFn 0x7A o)
  | .vmov o => some (encVMov 0x7B o)
  | .vext o => some (encVExt 0x7C o)
  | .vins o => some (encVIns 0x7D o)
  | .mmq o => some (encMmq 0x80 o)
  | .mmqg o => some (encMmqg 0x81 o)
  | .mzero o => some (encMzero 0x82 o)
  | .mld o => some (encMMem 0x83 o)
  | .mst o => some (encMMem 0x84 o)
  | .mqz o => some (encMqz 0x85 o)
  | .mdq o => some (encMdq 0x86 o)
  | .mgeoReg o => some (encGG 0x87 o)
  | .mgeoImm o => some (encMgeoI 0x87 o)
  | .msub o => some (encMsub 0x88 o)
  | .mdrain => some (headOf 0x89 0 0, 0)
  | .mstat d => some (headOf 0x8A 1 (gC d), 0)
  | .cpq o => some (encCpq 0x90 o)
  | .cpqt o => some (encCpqt 0x91 o)
  | .semw o => some (encSemW 0x92 o)
  | .semt o => some (encSemT 0x93 o)
  | .semadd o => some (encSemPut 0x94 o)
  | .semset o => some (encSemPut 0x95 o)
  | .semget o => some (encGG 0x96 o)
  | .chs o => some (encChReg 0xA0 o)
  | .chr o => some (encChReg 0xA1 o)
  | .alt o => some (encAlt 0xA2 o)
  | .chbs o => some (encChBs 0xA3 o)
  | .chbr o => some (encChBr 0xA4 o)
  | .chq o => some (encChQ 0xA5 o)
  | .spawn o => some (encSpawn 0xA6 o)
  | .spawnt o => some (encSpawnT 0xA7 o)
  | .pend => some (headOf 0xA8 0 0, 0)
  | .yield => some (headOf 0xA9 0 0, 0)
  | .vsift o => some (encVSift 0xAA o)
  | .swl o => some (encGG 0xAB o)
  | .swj o => some (encGG 0xAC o)
  | .split => some (headOf 0xAD 0 0, 0)
  | .rejoin => some (headOf 0xAE 0 0, 0)
  | .bar o => some (encBar 0xAF o)
  | .bara o => some (encBar 0xB0 o)
  | .barw o => some (encBarW 0xB1 o)
  | .whoami d => some (headOf 0xB2 1 (gC d), 0)
  | .trap x => some (headOf 0xC0 2 0, x.toNat * 2 ^ 16)
  | .tret => some (headOf 0xC1 0 0, 0)
  | .crd o => some (encCrd 0xC2 o)
  | .cwr o => some (encCwr 0xC3 o)
  | .brk x => some (headOf 0xC4 2 0, x.toNat * 2 ^ 16)
  | .rdtime d => some (headOf 0xC5 0 (gC d), 0)
  | .wdog x => some (headOf 0xC6 2 0, x.toNat * 2 ^ 16)
  | .idle => some (headOf 0xC7 0 0, 0)
  | .tlbi o => some (encTlbi 0xC8 o)
  | .cload o => some (encCLoad 0xC9 o)
  | .cbind o => some (encCBind 0xCA o)
  | .cunbind x => some (headOf 0xCB 1 0, gC x)
  | .dadd o => some (encDArith 0xD0 o)
  | .dsub o => some (encDArith 0xD1 o)
  | .dmul o => some (encDArith 0xD2 o)
  | .dfma o => some (encDFma 0xD3 o)
  | .ddiv o => some (encDArith 0xD4 o)
  | .dsqrt o => some (encDUn 0xD5 o)
  | .dcvt o => some (encFCvt 0xD6 o)
  | .vdfma o => some (encVDFma 0xD7 o)
  | .combTail0 o => some (encComb0 o)
  | .combTail1 o => some (encComb1 o)
  | .combTail2 o => some (encComb2 o)
  | .combTail3 o => some (encComb3 o)
  | _ => none

end Sys2Proof
end

