-- ==== Sys2Proof/Machine/Map.lean ====
section
/-! DEFINITION. Finite maps as plain lists. `NMap` is keyed by natural numbers in ONE canonical
form (keys strictly rising, no entry equal to what an unlisted key reads as), so that equal maps are
equal data; memory and register files are such maps. `AMap` keeps records by a key. -/

namespace Sys2Proof.Machine

/-- A map from natural numbers, in canonical form. -/
abbrev NMap (β : Type) := List (Nat × β)

namespace NMap

variable {β : Type}

/-- What key `k` reads as; `d` where it is not listed. -/
def get (d : β) : NMap β → Nat → β
  | [], _ => d
  | (a, b) :: r, k => if a = k then b else get d r k

/-- The map without key `k`. -/
def erase (m : NMap β) (k : Nat) : NMap β := m.filter (fun x => decide (x.1 ≠ k))

/-- Put an entry at its place in the order; the key is not listed before. -/
def insert : NMap β → Nat → β → NMap β
  | [], k, v => [(k, v)]
  | (a, b) :: r, k, v => if k < a then (k, v) :: (a, b) :: r else (a, b) :: insert r k v

/-- Write `v` at `k`; writing what an unlisted key reads as removes the entry. -/
def set [DecidableEq β] (d : β) (m : NMap β) (k : Nat) (v : β) : NMap β :=
  if v = d then erase m k else insert (erase m k) k v

/-- Every listed key is above `lo`, keys rise strictly, no value is the unlisted one. -/
def wfFrom [DecidableEq β] (d : β) : Option Nat → NMap β → Bool
  | _, [] => true
  | lo, (a, b) :: r =>
    (match lo with | none => true | some l => decide (l < a)) && decide (b ≠ d) && wfFrom d (some a) r

/-- The canonical form. -/
def wf [DecidableEq β] (d : β) (m : NMap β) : Bool := wfFrom d none m

/-- Keep only the entries whose key satisfies `p`. -/
def keep (m : NMap β) (p : Nat → Bool) : NMap β := m.filter (fun x => p x.1)

end NMap

/-- Records by key; the first entry of a key counts. -/
abbrev AMap (κ β : Type) := List (κ × β)

namespace AMap

variable {κ β : Type} [DecidableEq κ]

/-- The record of key `k`; `d` where there is none. -/
def get (d : β) : AMap κ β → κ → β
  | [], _ => d
  | (a, b) :: r, k => if a = k then b else get d r k

/-- Whether key `k` has a record. -/
def has : AMap κ β → κ → Bool
  | [], _ => false
  | (a, _) :: r, k => decide (a = k) || has r k

/-- Replace the record of `k`, or add it at the end. -/
def put : AMap κ β → κ → β → AMap κ β
  | [], k, v => [(k, v)]
  | (a, b) :: r, k, v => if a = k then (a, v) :: r else (a, b) :: put r k v

/-- Drop the records of key `k`. -/
def del (m : AMap κ β) (k : κ) : AMap κ β := m.filter (fun x => decide (x.1 ≠ k))

/-- Change the record of `k`. -/
def upd (d : β) (m : AMap κ β) (k : κ) (f : β → β) : AMap κ β := put m k (f (get d m k))

end AMap

/-- A set of natural numbers as a list in rising order without repeats. -/
abbrev NSet := List Nat

namespace NSet

/-- Membership. -/
def mem (s : NSet) (k : Nat) : Bool := s.any (fun x => decide (x = k))

/-- The set without `k`. -/
def erase (s : NSet) (k : Nat) : NSet := s.filter (fun x => decide (x ≠ k))

/-- Put `k` at its place. -/
def ins : NSet → Nat → NSet
  | [], k => [k]
  | a :: r, k => if k < a then k :: a :: r else if k = a then a :: r else a :: ins r k

/-- Add or remove `k`. -/
def put (s : NSet) (k : Nat) (b : Bool) : NSet := if b then ins s k else erase s k

end NSet

/-- Replace the first element that satisfies `p` by its image. -/
def updFirst {α : Type} (p : α → Bool) (f : α → α) : List α → List α
  | [] => []
  | a :: r => if p a then f a :: r else a :: updFirst p f r

/-- Drop the first element that satisfies `p`. -/
def dropFirst {α : Type} (p : α → Bool) : List α → List α
  | [] => []
  | a :: r => if p a then r else a :: dropFirst p r

/-- The first number from `i` on, of at most `n`, that satisfies `p`. -/
def firstFrom (p : Nat → Bool) : Nat → Nat → Option Nat
  | 0, _ => none
  | n + 1, i => if p i then some i else firstFrom p n (i + 1)

end Sys2Proof.Machine
end

