-- ==== Sys2Proof/Machine/Num.lean ====
section
/-! DEFINITION. Number formats and exact arithmetic (R34 to R55): the value of a code, rounding once
from the exact value by any mode of R46, the special inputs and out-of-range results of R49 and R50,
the exception conditions of R52, and the random numbers of R48. -/

namespace Sys2Proof

/-- The exact value of a floating-point code: `fin neg m e` is (−1)^neg × m × 2^e, a signed zero
where m = 0 (R35). -/
inductive Fl where
  | nan
  | inf (neg : Bool)
  | fin (neg : Bool) (m : Nat) (e : Int)
  deriving DecidableEq, Repr

/-- An exact value to be rounded: (−1)^neg × (m + θ) × 2^e with 0 < θ < 1 where `more` is set and θ = 0
where it is not. A value with `more` carries enough bits in `m` that θ lies below every bit a rounding
looks at. -/
structure Ex where
  neg : Bool
  m : Nat
  e : Int
  more : Bool := false
  deriving DecidableEq, Repr

/-- The status flags NV DZ OF UF NX (R133). -/
structure FFlags where
  nv : Bool := false
  dz : Bool := false
  ovf : Bool := false
  uf : Bool := false
  nx : Bool := false
  deriving DecidableEq, Repr

/-- cstat[4:0] as R133 places the flags. -/
def FFlags.bits (f : FFlags) : BitVec 5 :=
  (BitVec.ofBool f.nv ++ BitVec.ofBool f.dz ++ BitVec.ofBool f.ovf ++ BitVec.ofBool f.uf ++ BitVec.ofBool f.nx)

/-- Two sets of sticky conditions together (R134). -/
def FFlags.or (a b : FFlags) : FFlags :=
  ⟨a.nv || b.nv, a.dz || b.dz, a.ovf || b.ovf, a.uf || b.uf, a.nx || b.nx⟩

/-- The layout and range of a floating-point or binary8 format: `t` trailing bits, exponent bias,
largest finite code, and which specials it has (R35, R37). -/
structure FFmt where
  bits : Nat
  t : Nat
  bias : Int
  maxCode : Nat
  signed : Bool
  hasInf : Bool
  ieee : Bool
  deriving DecidableEq, Repr

/-- R35: sign 1, exponent `eb`, trailing `t`. -/
def ieeeFmt (eb t : Nat) : FFmt :=
  ⟨1 + eb + t, t, 2 ^ (eb - 1) - 1, (2 ^ eb - 1) * 2 ^ t - 1, true, true, true⟩

/-- R37 to R39: binary8 of precision `p`. -/
def b8Fmt (p : Nat) (uns inf : Bool) : FFmt :=
  ⟨8, p - 1, if uns then 2 ^ (8 - p) else 2 ^ (7 - p),
   if uns then (if inf then 0xFD else 0xFE) else (if inf then 0x7E else 0x7F), !uns, inf, false⟩

/-- The format of a float kind (R43). -/
def FloatTy.fmt : FloatTy → FFmt
  | .f32 => ieeeFmt 8 23
  | .bf16 => ieeeFmt 8 7
  | .h16 => ieeeFmt 5 10
  | .f64 => ieeeFmt 11 52

/-- The magnitude of a code: exponent field and trailing significand by the first two cases of R35. -/
def FFmt.magnitude (f : FFmt) (neg : Bool) (c : Nat) : Fl :=
  let E := c / 2 ^ f.t
  let T := c % 2 ^ f.t
  if E = 0 then .fin neg T (1 - f.bias - f.t) else .fin neg (2 ^ f.t + T) (E - f.bias - f.t)

/-- The code of NaN a format delivers (R36, R37). -/
def FFmt.nanCode (f : FFmt) : Nat :=
  if f.ieee then f.maxCode + 1 + 2 ^ (f.t - 1) else if f.signed then 0x80 else 0xFF

/-- The code of an infinity; a format without infinities has none and answers its NaN (R49). -/
def FFmt.infCode (f : FFmt) (neg : Bool) : Nat :=
  if f.hasInf then
    if f.ieee then f.maxCode + 1 + (if neg then 2 ^ (f.bits - 1) else 0)
    else if f.signed then (if neg then 0xFF else 0x7F) else 0xFE
  else f.nanCode

/-- The code of the largest finite value of a sign. An unsigned format holds no negative one. -/
def FFmt.maxFinite (f : FFmt) (neg : Bool) : Nat :=
  f.maxCode + (if neg && f.signed then 2 ^ (f.bits - 1) else 0)

/-- The value of a code (R35, R37). -/
def FFmt.value (f : FFmt) (code : Nat) : Fl :=
  let c := code % 2 ^ f.bits
  if f.ieee then
    let neg := decide (2 ^ (f.bits - 1) ≤ c)
    let m := c % 2 ^ (f.bits - 1)
    if m ≤ f.maxCode then f.magnitude neg m else if m = f.maxCode + 1 then .inf neg else .nan
  else if f.signed then
    let neg := decide (0x80 ≤ c)
    let m := c % 0x80
    if c = 0x80 then .nan else if m ≤ f.maxCode then f.magnitude neg m else .inf neg
  else if c ≤ f.maxCode then f.magnitude false c else if c = 0xFF then .nan else .inf false

/-- Where the leading bit of a nonzero natural number stands: floor(log2 m). -/
def lead (m : Nat) : Int := (m.log2 : Int)

/-- m × 2^(e − q), cut to an integer, and what was cut: (integer, remainder, width of the cut). -/
def cut (m : Nat) (e q : Int) : Nat × Nat × Nat :=
  if q ≤ e then (m * 2 ^ (e - q).toNat, 0, 0)
  else (m / 2 ^ (q - e).toNat, m % 2 ^ (q - e).toNat, (q - e).toNat)

/-- Whether rounding moves one unit away from zero (R46, R47); `r` is the random number of R48. -/
def moves (mode : RMode) (neg : Bool) (n rem sh : Nat) (more : Bool) (r : Nat) : Bool :=
  let inexact := decide (rem ≠ 0) || more
  match mode with
  | .rne => decide (2 ^ sh < 2 * rem) || (decide (2 * rem = 2 ^ sh) && decide (sh ≠ 0) && (more || decide (n % 2 = 1)))
  | .rtz => false
  | .rdn => neg && inexact
  | .rup => !neg && inexact
  | .sr => decide (2 ^ 16 ≤ rem * 2 ^ 16 / 2 ^ sh + r)

/-- A magnitude rounded to units of 2^q: the number of units and whether it differs from x. -/
def roundAt (x : Ex) (q : Int) (mode : RMode) (r : Nat) : Nat × Bool :=
  let (n, rem, sh) := cut x.m x.e q
  ((if moves mode x.neg n rem sh x.more r then n + 1 else n), decide (rem ≠ 0) || x.more)

/-- The unit of 2^q in which a nonzero x rounds in format f: precision t + 1 down to the smallest
subnormal. -/
def FFmt.unit (f : FFmt) (x : Ex) : Int := max (lead x.m + x.e - f.t) (1 - f.bias - f.t)

/-- The magnitude code of n units of 2^q, where q is a unit of the format (R35, first two cases). -/
def FFmt.assemble (f : FFmt) (n : Nat) (q : Int) : Nat :=
  if n < 2 ^ f.t then n
  else if n < 2 ^ (f.t + 1) then ((q + f.t + f.bias).toNat) * 2 ^ f.t + (n - 2 ^ f.t)
  else ((q + 1 + f.t + f.bias).toNat) * 2 ^ f.t

/-- Tiny after rounding (R36): rounded with unbounded exponent, the magnitude is below the smallest
normal. -/
def FFmt.tiny (f : FFmt) (x : Ex) (mode : RMode) (r : Nat) : Bool :=
  let L := lead x.m + x.e
  let emin := 1 - f.bias
  if emin ≤ L then false
  else if L = emin - 1 then decide ((roundAt x (L - f.t) mode r).1 < 2 ^ (f.t + 1))
  else true

/-- The sign bit of a code. A binary8 format has no negative zero. -/
def FFmt.signed0 (f : FFmt) (neg : Bool) (mag : Nat) : Nat :=
  if neg && f.signed && (f.ieee || decide (mag ≠ 0)) then mag + 2 ^ (f.bits - 1) else mag

/-- What overflow delivers without saturation (R49, fourth row). -/
def FFmt.overflow (f : FFmt) (neg : Bool) : RMode → Nat
  | .rtz => f.maxFinite neg
  | .rdn => if neg then f.infCode true else f.maxFinite false
  | .rup => if neg then f.maxFinite true else f.infCode false
  | _ => f.infCode neg

/-- Round a nonzero exact value to a format (R46 to R49), with the conditions of R52. -/
def FFmt.round (f : FFmt) (x : Ex) (mode : RMode) (sat : Bool) (r : Nat) : Nat × FFlags :=
  if x.neg && !f.signed then (if sat then 0 else f.nanCode, { nv := true })
  else
    let q := f.unit x
    let (n, inexact) := roundAt x q mode r
    let mag := f.assemble n q
    if f.maxCode < mag then
      let c := f.overflow x.neg mode
      (if sat then f.maxFinite x.neg else c, { nv := decide (c = f.nanCode), ovf := true, nx := true })
    else (f.signed0 x.neg mag, { uf := f.tiny x mode r && inexact, nx := inexact })

/-- Deliver an exact value in a format: special inputs by R49, everything else by `FFmt.round`. -/
def FFmt.deliver (f : FFmt) (v : Fl) (mode : RMode) (sat : Bool) (r : Nat) : Nat × FFlags :=
  match v with
  | .nan => (f.nanCode, {})
  | .inf neg =>
    if neg && !f.signed then (if sat then 0 else f.nanCode, { nv := true })
    else (if sat then f.maxFinite neg else f.infCode neg, { nv := !f.hasInf })
  | .fin neg m e => if m = 0 then (f.signed0 neg 0, {}) else f.round ⟨neg, m, e, false⟩ mode sat r

/-! ### Integer formats -/

/-- The range of an integer type (R34). -/
def intMin (signed : Bool) (w : Nat) : Int := if signed then -(2 ^ (w - 1)) else 0

@[inherit_doc intMin]
def intMax (signed : Bool) (w : Nat) : Int := if signed then 2 ^ (w - 1) - 1 else 2 ^ w - 1

/-- The indefinite value (R51). -/
def intIndefinite (signed : Bool) (w : Nat) : Nat := if signed then 2 ^ (w - 1) else 2 ^ w - 1

/-- The integer a code of an integer type stands for (R34). -/
def intValue (signed : Bool) (w code : Nat) : Int := if signed then sx w code else (code % 2 ^ w : Nat)

/-- Clamp to the range of an integer type. -/
def clampInt (signed : Bool) (w : Nat) (i : Int) : Int := max (intMin signed w) (min (intMax signed w) i)

/-- An exact value converted to an integer type (R50). -/
def deliverInt (signed : Bool) (w : Nat) (v : Fl) (mode : RMode) (sat : Bool) (r : Nat) : Nat × FFlags :=
  match v with
  | .nan => (if sat then 0 else intIndefinite signed w, { nv := true })
  | .inf neg =>
    (if sat then wrap w (if neg then intMin signed w else intMax signed w) else intIndefinite signed w, { nv := true })
  | .fin neg m e =>
    let (n, inexact) := roundAt ⟨neg, m, e, false⟩ 0 mode r
    let i : Int := if neg then -(n : Int) else n
    if intMin signed w ≤ i ∧ i ≤ intMax signed w then (wrap w i, { nx := inexact })
    else (if sat then wrap w (clampInt signed w i) else intIndefinite signed w, { nv := true })

/-! ### Every convertible format -/

/-- A format that conversions name: an integer type or a floating-point one. -/
inductive NFmt where
  | int (signed : Bool) (w : Nat)
  | flt (f : FFmt)
  deriving DecidableEq, Repr

/-- Width of a code in bits. -/
def NFmt.bits : NFmt → Nat
  | .int _ w => w
  | .flt f => f.bits

/-- Whether it is an integer type. -/
def NFmt.isInt : NFmt → Bool
  | .int _ _ => true
  | .flt _ => false

/-- The exact value of a code. -/
def NFmt.value : NFmt → Nat → Fl
  | .int s w, c => let i := intValue s w c; .fin (decide (i < 0)) i.natAbs 0
  | .flt f, c => f.value c

/-- The format a code of R43 names, where it is one that conversions accept: 0x01 to 0x0B and binary8
with P ≠ 0. -/
def NFmt.ofCode (c : Nat) : Option NFmt :=
  if c = 0x01 then some (.int true 8) else if c = 0x02 then some (.int false 8)
  else if c = 0x03 then some (.int true 16) else if c = 0x04 then some (.int false 16)
  else if c = 0x05 then some (.int true 32) else if c = 0x06 then some (.int false 32)
  else if c = 0x07 then some (.int true 64) else if c = 0x08 then some (.flt FloatTy.f32.fmt)
  else if c = 0x09 then some (.flt FloatTy.bf16.fmt) else if c = 0x0A then some (.flt FloatTy.h16.fmt)
  else if c = 0x0B then some (.flt FloatTy.f64.fmt)
  else if 0x20 ≤ c ∧ c < 0x40 ∧ c % 8 ≠ 0 then
    some (.flt (b8Fmt (c % 8) (decide (c / 8 % 2 = 1)) (decide (c / 16 % 2 = 1))))
  else none

/-- Convert a code by R49 to R52. Integer to integer wraps or clamps and never rounds (R50). -/
def convertBy (src dst : NFmt) (code : Nat) (mode : RMode) (sat : Bool) (r : Nat) : Nat × FFlags :=
  match src, dst with
  | .int s w, .int s' w' =>
    let i := intValue s w code
    (wrap w' (if sat then clampInt s' w' i else i), {})
  | src, .int s' w' => deliverInt s' w' (src.value code) mode sat r
  | src, .flt f => f.deliver (src.value code) mode sat r

/-- Convert a code as `fcvt`, `dcvt` and `vcvt` do (R142, R147, R169): a code of the destination's own format is
copied, a NaN made canonical; every other by R49 to R52. -/
def convert (src dst : NFmt) (code : Nat) (mode : RMode) (sat : Bool) (r : Nat) : Nat × FFlags :=
  match dst with
  | .flt f =>
    if src = dst then (if f.value code = .nan then f.nanCode else code % 2 ^ f.bits, {})
    else convertBy src dst code mode sat r
  | .int _ _ => convertBy src dst code mode sat r

/-! ### Arithmetic (R137 to R141) -/

/-- Integer square root of m, by `k` bits from the top. -/
def isqrt (m : Nat) : Nat → Nat → Nat
  | 0, acc => acc
  | k + 1, acc => isqrt m k (if (acc + 2 ^ k) * (acc + 2 ^ k) ≤ m then acc + 2 ^ k else acc)

/-- The exact sum of two finite values, as a signed integer of units 2^e. -/
def sumFin (n1 : Bool) (m1 : Nat) (e1 : Int) (n2 : Bool) (m2 : Nat) (e2 : Int) : Int × Int :=
  let e := min e1 e2
  let a : Int := (m1 * 2 ^ (e1 - e).toNat : Nat)
  let b : Int := (m2 * 2 ^ (e2 - e).toNat : Nat)
  ((if n1 then -a else a) + (if n2 then -b else b), e)

/-- An exact result and the conditions that R137 sets before rounding. -/
inductive Arith where
  | nan (nv : Bool)
  | inf (neg dz : Bool)
  | zero (neg : Bool)
  | val (x : Ex)
  deriving DecidableEq, Repr

/-- The sign of an exact zero sum (R137); that of like zeros also in a fused multiply-add (the model's reading, log entry 78). -/
def zeroSum (neg1 neg2 bothZero : Bool) (mode : RMode) : Bool :=
  if bothZero && (neg1 == neg2) then neg1 else decide (mode = .rdn)

/-- a + b (R137). -/
def addA (a b : Fl) (mode : RMode) : Arith :=
  match a, b with
  | .nan, _ => .nan false
  | _, .nan => .nan false
  | .inf x, .inf y => if x == y then .inf x false else .nan true
  | .inf x, .fin _ _ _ => .inf x false
  | .fin _ _ _, .inf y => .inf y false
  | .fin n1 m1 e1, .fin n2 m2 e2 =>
    let (i, e) := sumFin n1 m1 e1 n2 m2 e2
    if i = 0 then .zero (zeroSum n1 n2 (decide (m1 = 0) && decide (m2 = 0)) mode)
    else .val ⟨decide (i < 0), i.natAbs, e, false⟩

/-- The value with its sign inverted. -/
def Fl.neg : Fl → Fl
  | .nan => .nan
  | .inf n => .inf (!n)
  | .fin n m e => .fin (!n) m e

/-- The exact product; `none` is an invalid product of zero and infinity. -/
def mulF (a b : Fl) : Option Fl :=
  match a, b with
  | .nan, _ => some .nan
  | _, .nan => some .nan
  | .inf x, .inf y => some (.inf (x != y))
  | .inf x, .fin y m _ => if m = 0 then none else some (.inf (x != y))
  | .fin x m _, .inf y => if m = 0 then none else some (.inf (x != y))
  | .fin x m e, .fin y n e' => some (.fin (x != y) (m * n) (e + e'))

/-- a × b (R137). -/
def mulA (a b : Fl) : Arith :=
  match mulF a b with
  | none => .nan true
  | some .nan => .nan false
  | some (.inf n) => .inf n false
  | some (.fin n m e) => if m = 0 then .zero n else .val ⟨n, m, e, false⟩

/-- a × b + c, fused (R137). A NaN operand sets no flag. -/
def fmaA (a b c : Fl) (mode : RMode) : Arith :=
  if a = .nan ∨ b = .nan ∨ c = .nan then .nan false
  else match mulF a b with
    | none => .nan true
    | some p => addA p c mode

/-- a / b (R137). -/
def divA (a b : Fl) : Arith :=
  match a, b with
  | .nan, _ => .nan false
  | _, .nan => .nan false
  | .inf _, .inf _ => .nan true
  | .inf x, .fin y _ _ => .inf (x != y) false
  | .fin x _ _, .inf y => .zero (x != y)
  | .fin x m e, .fin y n e' =>
    if n = 0 then (if m = 0 then .nan true else .inf (x != y) true)
    else if m = 0 then .zero (x != y)
    else
      let k := 160 + n.log2
      .val ⟨x != y, m * 2 ^ k / n, e - e' - k, decide (m * 2 ^ k % n ≠ 0)⟩

/-- sqrt a (R137). -/
def sqrtA (a : Fl) : Arith :=
  match a with
  | .nan => .nan false
  | .inf neg => if neg then .nan true else .inf false false
  | .fin neg m e =>
    if m = 0 then .zero neg
    else if neg then .nan true
    else
      let k := 200 + (e % 2).toNat
      let m' := m * 2 ^ k
      let r := isqrt m' (m'.log2 / 2 + 2) 0
      .val ⟨false, r, (e - k) / 2, decide (r * r ≠ m')⟩

/-- Deliver an arithmetic result in format f: one rounding, R49, flags by R52 and R137. -/
def FFmt.finish (f : FFmt) (a : Arith) (mode : RMode) (sat : Bool) (r : Nat) : Nat × FFlags :=
  match a with
  | .nan nv => (f.nanCode, { nv := nv })
  | .inf neg dz => (if sat then f.maxFinite neg else f.infCode neg, { dz := dz })
  | .zero neg => (f.signed0 neg 0, {})
  | .val x => f.round x mode sat r

/-- The arithmetic operations that the scalar, wide and vector units share. -/
inductive FOp where
  | add | sub | mul | fma | div | sqrt
  deriving DecidableEq, Repr

/-- The exact result of an operation on decoded values (R137). -/
def FOp.exact (op : FOp) (a b c : Fl) (mode : RMode) : Arith :=
  match op with
  | .add => addA a b mode
  | .sub => addA a b.neg mode
  | .mul => mulA a b
  | .fma => fmaA a b c mode
  | .div => divA a b
  | .sqrt => sqrtA a

/-- An arithmetic instruction on codes of one format (R137). -/
def farith (op : FOp) (f : FFmt) (a b c : Nat) (mode : RMode) (sat : Bool) (r : Nat) : Nat × FFlags :=
  f.finish (op.exact (f.value a) (f.value b) (f.value c) mode) mode sat r

/-- Order of two values that are not NaN; +0 and −0 are equal. -/
def Fl.lt : Fl → Fl → Bool
  | .nan, _ => false
  | _, .nan => false
  | .inf x, .inf y => x && !y
  | .inf x, .fin _ _ _ => x
  | .fin _ _ _, .inf y => !y
  | .fin n1 m1 e1, .fin n2 m2 e2 => decide ((sumFin n1 m1 e1 (!n2) m2 e2).1 < 0)

/-- Numerical equality; a NaN equals nothing. -/
def Fl.eqv (a b : Fl) : Bool :=
  decide (a ≠ .nan) && decide (b ≠ .nan) && !a.lt b && !b.lt a

/-- Whether the value carries a negative sign. -/
def Fl.isNeg : Fl → Bool
  | .nan => false
  | .inf n => n
  | .fin n _ _ => n

/-- `fmin` and `fmax` (R138): −0 counts as less than +0; one NaN gives the other operand's code. -/
def fminmax (isMax : Bool) (f : FFmt) (a b : Nat) : Nat :=
  let x := f.value a
  let y := f.value b
  if x = .nan then (if y = .nan then f.nanCode else b % 2 ^ f.bits)
  else if y = .nan then a % 2 ^ f.bits
  else
    let aLess := x.lt y || (x.eqv y && x.isNeg && !y.isNeg)
    (if aLess != isMax then a else b) % 2 ^ f.bits

/-- The conditions of `fcmp` and class F `vcmp` (R140): the outcome and whether NV is set. -/
def fcompare (cc : FCond) (a b : Fl) : Bool × Bool :=
  let un := decide (a = .nan) || decide (b = .nan)
  match cc with
  | .eq => (!un && a.eqv b, false)
  | .lt => (!un && a.lt b, un)
  | .le => (!un && !b.lt a, un)
  | .un => (un, false)
  | .ne => (un || !a.eqv b, false)

/-- The class mask of R139. -/
def fclassMask (f : FFmt) (code : Nat) : Nat :=
  match f.value code with
  | .nan => 0x100
  | .inf neg => if neg then 0x001 else 0x080
  | .fin neg m _ =>
    if m = 0 then (if neg then 0x008 else 0x010)
    else if m < 2 ^ f.t then (if neg then 0x004 else 0x020)
    else (if neg then 0x002 else 0x040)

/-! ### Random numbers (R48) -/

/-- One step of the generator. -/
def rngStep (x : Word) : Word :=
  let x := if x = 0 then 1 else x
  let x := x ^^^ (x <<< 13)
  let x := x ^^^ (x >>> 7)
  x ^^^ (x <<< 17)

/-- `k` steps: the states S1 to Sk and the last one. -/
def rngSteps : Nat → Word → List Word × Word
  | 0, x => ([], x)
  | k + 1, x => let y := rngStep x; let (r, z) := rngSteps k y; (y :: r, z)

/-- The draws of an instruction that rounds n values stochastically: the values by number, and the
state afterwards. -/
def rngDraws (n : Nat) (x : Word) : List Nat × Word :=
  let (ss, z) := rngSteps ((n + 3) / 4) x
  (ss.flatMap (fun s => [fld s.toNat 0 16, fld s.toNat 16 16, fld s.toNat 32 16, fld s.toNat 48 16]), z)

/-- The draws where the mode is stochastic; no draw and an unchanged state otherwise (R48). -/
def drawsFor (mode : RMode) (n : Nat) (x : Word) : List Nat × Word :=
  if mode = .sr then rngDraws n x else ([], x)

/-! ### MX block formats (R40 to R42) -/

/-- Element width in bits. -/
def MxTy.bits : MxTy → Nat
  | .e2m1 => 4 | .e3m2 => 6 | .e2m3 => 6 | .i4 => 4

/-- Trailing bits and bias of a floating element. -/
def MxTy.layout : MxTy → Nat × Int
  | .e2m1 => (1, 1) | .e3m2 => (2, 3) | .e2m3 => (3, 1) | .i4 => (0, 0)

/-- emax of R40. -/
def MxTy.emax : MxTy → Int
  | .e2m1 => 2 | .e3m2 => 4 | .e2m3 => 2 | .i4 => 0

/-- The value of an element code (R40). -/
def MxTy.value (ty : MxTy) (c : Nat) : Fl :=
  match ty with
  | .i4 => let i := sx 4 c; .fin (decide (i < 0)) i.natAbs (-2)
  | _ =>
    let (t, bias) := ty.layout
    let w := ty.bits
    let neg := decide (2 ^ (w - 1) ≤ c % 2 ^ w)
    let m := c % 2 ^ (w - 1)
    if m / 2 ^ t = 0 then .fin neg m (1 - bias - t) else .fin neg (2 ^ t + m % 2 ^ t) ((m / 2 ^ t : Nat) - bias - t)

/-- An element with its block's scale (R41, R55). -/
def mxScaled (ty : MxTy) (scale c : Nat) : Fl :=
  if scale = 0xFF then .nan
  else match ty.value c with
    | .fin n m e => .fin n m (e + (scale : Int) - 127)
    | v => v

/-- The largest magnitude code of an element type that quantising writes, and its unit count and unit:
i4 uses codes −7 to 7. -/
def MxTy.maxMag (ty : MxTy) : Nat := if ty = .i4 then 7 else 2 ^ (ty.bits - 1) - 1

/-- Quantise one element of a block whose exponent is X (R54). -/
def mxQuantElem (ty : MxTy) (X : Int) (v : Fl) (mode : RMode) (r : Nat) : Nat :=
  match v with
  | .fin neg m e =>
    if m = 0 then 0
    else
      let x : Ex := ⟨neg, m, e - X, false⟩
      let (t, bias) := ty.layout
      let mag :=
        if ty = .i4 then (roundAt x (-2) mode r).1
        else
          let q := max (lead x.m + x.e - t) (1 - bias - t)
          let n := (roundAt x q mode r).1
          if n < 2 ^ t then n
          else if n < 2 ^ (t + 1) then ((q + t + bias).toNat) * 2 ^ t + (n - 2 ^ t)
          else ((q + 1 + t + bias).toNat) * 2 ^ t
      let mag := min mag ty.maxMag
      if mag = 0 then 0
      else if ty = .i4 then (if neg then 16 - mag else mag)
      else if neg then mag + 2 ^ (ty.bits - 1) else mag
  | _ => 0

/-- Quantise a block of f32 values (R54): the scale and the element codes; `rs` are the random numbers
of its elements. -/
def mxQuant (ty : MxTy) (xs : List Fl) (mode : RMode) (sat : Bool) (rs : List Nat) : Nat × List Nat :=
  if xs.any (fun v => decide (v = .nan)) || (!sat && xs.any (fun v => match v with | .inf _ => true | _ => false)) then
    (0xFF, xs.map (fun _ => 0))
  else
    let ys := xs.map (fun v => match v with | .inf n => FloatTy.f32.fmt.value (FloatTy.f32.fmt.maxFinite n) | v => v)
    let top := ys.foldl (fun (acc : Option Int) v => match v with
      | .fin _ m e => if m = 0 then acc else some (match acc with | none => lead m + e | some a => max a (lead m + e))
      | _ => acc) none
    match top with
    | none => (0, xs.map (fun _ => 0))
    | some L =>
      let X := min (max (L - ty.emax) (-127)) 127
      ((X + 127).toNat, (ys.zipIdx).map (fun (v, i) => mxQuantElem ty X v mode (rs.getD i 0)))

/-! ### Exact matrix accumulation (R53) -/

/-- One K-group of exact products on an accumulator element: `none` leaves it unchanged. -/
def groupSum (ps : List (Option Fl)) : Option Fl :=
  if ps.any (fun p => decide (p = none) || decide (p = some .nan)) then some .nan
  else if ps.any (fun p => decide (p = some (.inf false))) then
    (if ps.any (fun p => decide (p = some (.inf true))) then some .nan else some (.inf false))
  else if ps.any (fun p => decide (p = some (.inf true))) then some (.inf true)
  else
    let top := ps.foldl (fun (acc : Option Int) p => match p with
      | some (.fin _ m e) => if m = 0 then acc else some (match acc with | none => lead m + e | some a => max a (lead m + e))
      | _ => acc) none
    match top with
    | none => none
    | some E =>
      let S : Int := ps.foldl (fun (acc : Int) p => match p with
        | some (.fin n m e) => let c : Int := (cut m e (E - 49)).1; if n then acc - c else acc + c
        | _ => acc) 0
      some (.fin (decide (S < 0)) S.natAbs (E - 49))

/-- Add one K-group to an f32 accumulator code (R53): one rounding, RNE, non-saturating. -/
def accGroup (acc : Nat) (ps : List (Option Fl)) : Nat :=
  match groupSum ps with
  | none => acc
  | some g => (FloatTy.f32.fmt.finish (addA (FloatTy.f32.fmt.value acc) g .rne) .rne false 0).1

/-- Cut a list into groups of m. -/
def chunks {α : Type} (m : Nat) : Nat → List α → List (List α)
  | 0, _ => []
  | fuel + 1, l => if l.isEmpty then [] else l.take m :: chunks m fuel (l.drop m)

/-- All K-groups of an element, in ascending k (R53). -/
def accumulate (acc m : Nat) (ps : List (Option Fl)) : Nat :=
  (chunks m (ps.length + 1) ps).foldl accGroup acc

end Sys2Proof
end

