-- ==== Sys2Proof/Machine/Types.lean ====
section
/-! DEFINITION. The records that State is made of: contexts, cores, vtiles. Plain data throughout. -/

namespace Sys2Proof.Machine

/-- The causes of R78. -/
inductive Cause where
  | opcodeUndefined | operandReserved | targetEmpty | extensionAbsent | misaligned | addressForm
  | pageAbsent | permission | poisonConsumed | memoryUncorrectable | matrixCombination | engineAbsent
  | semaphoreOverflow | channelMisuse | channelDenied | combBind | combLimit | privilege | watchdog
  | barrierScope | quota | trap | breakpoint
  | tileAbsent | deadlock | thermalMigrated | tileRetired | saveTimeout
  deriving DecidableEq, Repr

/-- The states of R335; `joined` and `detached` are the membership of a ready or blocked context. -/
inductive SlotSt where
  | empty | ready | blocked | parked | migrating
  deriving DecidableEq, Repr

/-- The reasons of the blocked row of R335. -/
inductive BlockWhy where
  | channel | alt | semaphore | barrier | mwait | queueFull | quota
  deriving DecidableEq, Repr

/-- How the process of a slot began (R345, R300); a host packet by its physical address, its signal's, and word 0 as the
host wrote it (R460). -/
inductive Origin where
  | launch
  | forager
  | packet (addr signal word0 : Nat)
  deriving DecidableEq, Repr

/-- A comb frame (R215, R398): binding, micro-ops executed, micro-PC, h0 to h7 and q0 to q3. -/
structure Frame where
  k : Nat
  cnt : Nat
  upc : Nat
  h : NMap Word
  q : NMap Vec
  deriving DecidableEq, Repr

/-- The live frame of a running sequence, with the operands of its comb instruction (R69, R397). -/
structure Live where
  f : Frame
  d : Nat
  a : Nat
  b : Nat
  imm : Word
  deriving DecidableEq, Repr

/-- An entry of the binding table (R389); classes: 0 unused, 1 g, 2 v, 3 p. -/
structure Binding where
  valid : Bool := false
  start : Nat := 0
  len : Nat := 0
  cd : Nat := 0
  ca : Nat := 0
  cb : Nat := 0
  deriving DecidableEq, Repr

/-- The monitor of a context (R277); `phys` is the physical word address of a heap word it watches. -/
structure Monitor where
  maddr : Nat := 0
  phys : Option Nat := none
  mval : Word := 0
  armed : Bool := false
  fired : Bool := false
  deriving DecidableEq, Repr

/-- A home of SRAM accesses of a vtile (R249): quad memory q or the instruction store of core c. -/
inductive Home where
  | quad (q : Nat)
  | istore (c : Nat)
  deriving DecidableEq, Repr

/-- A store on its way to its bank (R249, R251): vtile address and bytes. -/
structure Posted where
  home : Home
  addr : Nat
  bytes : List Byte
  deriving DecidableEq, Repr

/-- A cache line as a fill read it (R237): physical line number, data, and the words that are poisoned and those that were
uncorrectable; a word that was valid in the cache keeps what it held there (R236). -/
structure Fill where
  line : Nat
  data : Vec
  pois : BitVec 8
  bad : BitVec 8
  deriving DecidableEq, Repr

/-- An access that is held where it has arrived, at the port of a sleeping quad (R441), at a granule that is being zeroed
(R245) or at a bank (R438): one of a context's instruction, a posted store, a write-through, a cache fill; with the line that
it goes to, one of a step of a core's copy engine or matrix unit, of a bulk transfer, of a page walk, of a write of a
host function, and the completion of a host packet (R460). -/
inductive Arrival where
  | ctx (c : CtxId)
  | store (c : CtxId) (h : Home)
  | through (k : CoreId) (line : Nat)
  | fill (k : CoreId) (line : Nat)
  | copy (k : CoreId) (line : Nat)
  | mat (k : CoreId) (line : Nat)
  | bulk (p : PortId) (line : Nat)
  | walk (v : VtId) (vpn line : Nat)
  | host (f line : Nat)
  | packet (c : CtxId) (addr line : Nat)
  deriving DecidableEq, Repr

/-- Who makes an access, whichever of its lines it is: all lines of one step arrive together. -/
def Arrival.agent : Arrival → Arrival
  | .ctx c => .ctx c
  | .store c h => .store c h
  | .through k l => .through k l
  | .fill k l => .fill k l
  | .copy k _ => .copy k 0
  | .mat k _ => .mat k 0
  | .bulk p _ => .bulk p 0
  | .walk v n _ => .walk v n 0
  | .host f _ => .host f 0
  | .packet c a _ => .packet c a 0

/-- The access of the same agent to a line. -/
def Arrival.onLine (l : Nat) : Arrival → Arrival
  | .ctx c => .ctx c
  | .store c h => .store c h
  | .through k m => .through k m
  | .fill k m => .fill k m
  | .copy k _ => .copy k l
  | .mat k _ => .mat k l
  | .bulk p _ => .bulk p l
  | .walk v n _ => .walk v n l
  | .host f _ => .host f l
  | .packet c a _ => .packet c a l

/-- The line of an access whose step has several. -/
def Arrival.line : Arrival → Option Nat
  | .ctx _ => none
  | .store _ _ => none
  | .through _ _ => none
  | .fill _ _ => none
  | .copy _ l => some l
  | .mat _ l => some l
  | .bulk _ l => some l
  | .walk _ _ l => some l
  | .host _ l => some l
  | .packet _ _ l => some l

/-- The partition in whose name an access is made. -/
def Arrival.part : Arrival → Nat
  | .ctx c => c.vt.part
  | .store c _ => c.vt.part
  | .through k _ => k.vt.part
  | .fill k _ => k.vt.part
  | .copy k _ => k.vt.part
  | .mat k _ => k.vt.part
  | .bulk p _ => p.vt.part
  | .walk v _ _ => v.part
  | .host f _ => f
  | .packet c _ _ => c.vt.part

/-- Kinds of access to a translated address, by the codes of R90 and R358. -/
inductive Acc where
  | read | write | fetch | atomic
  deriving DecidableEq, Repr

/-- What an instruction that has issued waits for before it is performed. -/
inductive Need where
  | none
  /-- a walk of the page of this virtual page number (R358) -/
  | walk (vpn : Nat)
  /-- a cache fill of this physical line (R236), and whether the access goes through a gallery page -/
  | fill (line : Nat) (gal : Bool)
  /-- the fetch of this word for a store of a part of it: physical line and word (R236, R254) -/
  | word (line w : Nat)
  /-- the context's own posted store to this 64-bit word (R250) -/
  | posted (word : Nat)
  /-- a sleeping or waking quad of its tile (R441) -/
  | quad (q : Nat)
  /-- the zeroing of this granule, or another step of a rim controller on this line (R241, R245, R246) -/
  | home (line : Nat)
  /-- the write-through of this line by its core (R264) -/
  | through (line : Nat)
  /-- Q = 0, and H = 0 unless the scope is `.core` (R259) -/
  | release (tile : Bool)
  /-- room in Q for so many posted stores (R413) -/
  | room (n : Nat)
  /-- room in H for a write-through (R413) -/
  | roomH
  /-- room in H for the acquire that ends the instruction (R261) -/
  | acquire
  /-- the result of an atomic performed at home (R284) -/
  | result
  /-- the answer to the forager it has offered (R319) -/
  | offered
  /-- the remote table operation that a store to RTGO began (R386) -/
  | remote
  /-- the copy of a logical core's stores by a thermal migration (R235) -/
  | move (core : Nat)
  /-- the completion of its matrix commands before an extension move (R207) -/
  | matrix
  /-- the turn of its quad's fetch port for the line of this target of a taken transfer (R338) -/
  | port (t : Nat)
  deriving DecidableEq, Repr

/-- The result of an atomic on its way (R283, R284): the register, the value it receives, `.acq`. -/
structure AtomRes where
  d : Nat
  val : Word
  acq : Bool
  deriving DecidableEq, Repr

/-- How far the instruction at the context's pc has come: what it waits for, a release begun (R259), fills
that have arrived for it, an atomic's result; `entry`: it has not issued, and what is waited for is the line it stands in;
`served`: the fetch port has served its target's line (R338). -/
structure Prog where
  need : Need := .none
  rel : Bool := false
  fills : List Fill := []
  res : Option AtomRes := none
  entry : Bool := false
  served : Bool := false
  deriving DecidableEq, Repr

/-- A copy or transform command (R288): its request words, slot, logical core and PC; the privilege of the
context that pushed it (R360) and whether that process still exists. -/
structure CopyCmd where
  src : Word
  dst : Word
  mode : Word
  sig : Sig
  slot : Nat
  core : Nat
  pc : Word
  user : Bool
  alive : Bool := true
  deriving DecidableEq, Repr

/-- The operations of the matrix unit (R191). -/
inductive MatOp where
  | mmq | mmqg | mzero | mld | mst
  | mqz (rm : RMode) (sat : Bool)
  | mdq (add : Bool)
  deriving DecidableEq, Repr

/-- A matrix command as captured at push (R192, R296), with the state of `csrng` it draws from. -/
structure MatCmd where
  op : MatOp
  acc : Nat
  a : Word
  b : Word
  c : Word
  idx : Vec
  geo : Word
  rng : Word
  core : Nat
  slot : Nat
  pc : Word
  sig : Sig
  user : Bool
  alive : Bool := true
  deriving DecidableEq, Repr

/-- Where an access of n bytes goes: a bank of the vtile, a register of its device window, or a line at home
with its virtual address. -/
inductive Loc where
  | sram (a : Nat)
  | device (off : Nat)
  | home (pa va : Nat) (gal : Bool)
  deriving DecidableEq, Repr

/-- The operand latch of a matrix command that has been fetched (R193): codes and values read, whether a word
was poisoned, and where it will write. -/
structure Latch where
  codes : List Nat
  vals : List Fl
  pois : Bool
  dest : List Loc
  deriving DecidableEq, Repr

/-- The phases of a command at the head of its queue (R193, R293). -/
inductive Phase where
  | enqueued | fetch | effect | completion
  deriving DecidableEq, Repr

/-- A forager (R319, R321): entry PC, payload, how it began, and the vtile it comes from; one of a host packet comes from
none. -/
structure Forager where
  entry : Word
  payload : List Word
  poison : Bool
  origin : Origin
  src : Option VtId := none
  deriving DecidableEq, Repr

/-- What a blocked context waits for, with what its instruction does when it is satisfied. -/
inductive Wait where
  /-- `chs` on port p (R309) -/
  | chs (p : Nat)
  /-- `vsift` on port p: the mask register, the vector register and the sifted lanes (R318) -/
  | vsift (p d v : Nat) (vt : VTy) (mask : Nat)
  /-- `chr` of n registers from r on (R309) -/
  | chr (p r n : Nat)
  /-- `chbs` (R311) -/
  | chbs (p d : Nat)
  /-- `chbr` (R311) -/
  | chbr (p d : Nat)
  /-- `alt`: result register, ports and guard (R315) -/
  | alt (d : Nat) (ports guard : Word)
  /-- `semw` (R409) -/
  | sem (s : Nat)
  /-- `bar` (both) or `bara` before its arrival (R417): scope, result register -/
  | arrive (sc : BScope) (d : Nat) (both : Bool)
  /-- `barw`, or `bar` after its arrival (R417) -/
  | gen (sc : BScope) (x : Nat)
  /-- `mwait` (R278) -/
  | mwait (d : Nat)
  /-- `idle` (R222) -/
  | idle
  /-- a push of a copy command (R291) -/
  | copyPush (c : CopyCmd)
  /-- a push of a matrix command (R192) -/
  | matPush (c : MatCmd)
  /-- `mdrain` (R203) -/
  | mdrain
  /-- `pend` (R345) -/
  | pend
  /-- `tlbi`: result register, result, vtiles that have not acknowledged (R368) -/
  | tlbi (d : Nat) (r : Word) (left : List VtId)
  /-- `swl` (R339) -/
  | swl (d n : Nat)
  /-- `swj` (R339) -/
  | swj (d c : Nat)
  /-- `rejoin` (R343) -/
  | rejoin
  /-- `spawn` at the quota (R320) -/
  | spawnQuota (dest : VtId) (f : Forager)
  /-- `spawn` to an absent vtile (R319) -/
  | spawnAbsent
  /-- `spawn` refused as full (R319) -/
  | spawnFull (dest : VtId) (f : Forager)
  deriving DecidableEq, Repr

/-- Membership of a swarm (R337): table entry, index, detached, and the next PC of a joined member that
has issued at the swarm PC. -/
structure Member where
  entry : Nat
  idx : Nat
  det : Bool
  next : Option Word
  deriving DecidableEq, Repr

/-- Why a parked context is parked: the SEQ of its message once the fault queue has accepted it, or for
the curator colony its HSEQ (R91, R93). -/
structure Parked where
  seq : Option Nat := none
  hseq : Option Nat := none
  deriving DecidableEq, Repr

/-- A fault-port message (R89); `bulk` and `core`: an ENG message is of a bulk transfer, or of a command in the queue of
that logical core; `raw` holds words 1 to 3 of the command that a KIND 3 message answers. -/
structure Msg where
  part : Nat
  col : Nat
  cause : Nat := 0
  kind : Nat := 0
  cm : Bool := false
  df : Bool := false
  eng : Bool := false
  sum : Bool := false
  short : Bool := false
  lost : Bool := false
  gang : Nat := 0
  vt : Option VtId := none
  ctx : Option CtxId := none
  pc : Word := 0
  val : Word := 0
  w4 : Word := 0
  w5 : Word := 0
  tile : Nat := 0
  time : Nat := 0
  seq : Nat := 0
  poison : Bool := false
  bulk : Bool := false
  core : Nat := 0
  raw : Option (Word × Word × Word) := none
  deriving DecidableEq, Repr

/-- A context slot (R335) with everything that belongs to its process. -/
structure Ctx where
  st : SlotSt := .empty
  why : BlockWhy := .channel
  wait : Option Wait := none
  stamp : Nat := 0
  issuedAt : Nat := 0
  lineWait : Nat := 0
  prog : Prog := {}
  pc : Word := 0
  g : NMap Word := []
  p : BitVec 8 := 0
  v : NMap Vec := []
  acc : NMap (BitVec 32) := []
  done : BitVec 32 := 0
  pz : BitVec 4 := 0
  cstat : Word := 0
  ccause : Word := 0
  cepc : Word := 0
  ctval : Word := 0
  ctvec : Word := 0
  cfsave : Word := 0
  csrng : Word := 1
  cgeo : Word := 0x0040010000000000
  calt : Word := 0
  cprobe : Word := 0x10000
  cwdog : Word := 0
  shadow : Option Frame := none
  live : Option Live := none
  resume : Option Frame := none
  binds : NMap Binding := []
  mon : Monitor := {}
  posted : List Posted := []
  commit : Option Nat := none
  reserved : Option Msg := none
  probeLeft : Nat := 0
  knot : Bool := false
  origin : Origin := .launch
  pend : List (Cause × Word) := []
  line : Option (Nat × Vec) := none
  rtsel : Word := 0
  rtd : NMap Word := []
  rtstat : Word := 0
  rtgo : Word := 0
  member : Option Member := none
  lim : Option Nat := none
  parked : Parked := {}
  arrQuad : Bool := false
  arrTile : Bool := false
  arrColony : Bool := false
  yielded : Option (Nat × List Nat) := none
  moveTo : Option (Nat × Nat) := none
  deriving DecidableEq, Repr

/-- A line of a data cache (R236): physical line number, masks by word, gallery flag, data and the
words marked poisoned (R237). -/
structure Line where
  tag : Nat
  valid : BitVec 8
  dirty : BitVec 8
  gal : Bool
  data : Vec
  pois : BitVec 8
  deriving DecidableEq, Repr

/-- A write-through under way (R251): line, words and data. -/
structure Through where
  line : Nat
  mask : BitVec 8
  data : Vec
  deriving DecidableEq, Repr

/-- An entry of a translation cache (R362): the first virtual page number of its page, the size code,
the frame and the permissions. -/
structure TEntry where
  vpn : Nat
  sz : Nat
  frame : Nat
  rd : Bool
  wr : Bool
  us : Bool
  g : Bool
  dc : Bool
  deriving DecidableEq, Repr

/-- Who waits on a semaphore (R406): a `semw` of a slot, or the head of a queue of the core. -/
inductive SemWho where
  | ctx (slot : Nat)
  | copy
  | matrix
  deriving DecidableEq, Repr

/-- A waiter of a semaphore with its threshold (R406). -/
structure SemWaiter where
  sem : Nat
  who : SemWho
  thr : Nat
  consume : Bool
  deriving DecidableEq, Repr

/-- A logical core (R13); `matKept`: the accumulators and poison flags of a removed process whose command still writes them out
(R207); `stale`: slot and line of a fill that has arrived for an instruction of the slot and that an access
of another slot has overtaken (R254). -/
structure Core where
  sems : NMap Nat := []
  waiters : List SemWaiter := []
  copyQ : List CopyCmd := []
  copyPhase : Phase := .enqueued
  copyOff : Nat := 0
  copyOut : Nat := 0
  copyN : Nat := 0
  copyBad : Bool := false
  copyHeld : Bool := false
  copyBlocked : List Nat := []
  matQ : List MatCmd := []
  matPhase : Phase := .enqueued
  matHeld : Bool := false
  matLatch : Option Latch := none
  matKept : Option (NMap (BitVec 32) × BitVec 4) := none
  matBlocked : List Nat := []
  cache : List Line := []
  through : List Through := []
  tlb : List TEntry := []
  comb : NMap (BitVec 32) := []
  combPois : NSet := []
  rot : Nat := 0
  lastIssue : Option Nat := none
  stale : List (Nat × Nat) := []
  moving : Bool := false
  deriving DecidableEq, Repr

/-- Directions of a port (R76). -/
inductive Dir where
  | inp | out | bin | bout
  deriving DecidableEq, Repr

/-- States of a port (R307). -/
inductive PortSt where
  | idle | held | own | commit | move
  deriving DecidableEq, Repr

/-- What a port holds from its peer (R304): a register offer, a bulk offer (pointer, length) or a ready
notice; a bulk ready notice carries the destination pointer and MAX. -/
inductive Notice where
  | offer (ws : List Word) (poison : Bool)
  | bulk (ptr len : Word)
  | ready
  | bready (ptr : Word) (max : Nat)
  deriving DecidableEq, Repr

/-- A bulk transfer as its sender's port holds it (R312, R313): absolute source and destination pointers, L,
whether len exceeded MAX, whether a fault holds it, and whether the source range has failed its check. -/
structure Bulk where
  src : Word
  dst : Word
  len : Nat
  clip : Bool
  halted : Bool := false
  unfit : Bool := false
  deriving DecidableEq, Repr

/-- A port (R304). `gone`: the peer has withdrawn the notice held, and its withdrawal is on its way (R307);
`partner`: the context that holds a commitment on the peer port (R316); `bulk`: the transfer under way. -/
structure Port where
  decl : Bool := false
  dir : Dir := .inp
  width : Nat := 0
  max : Nat := 0
  peer : PortId := ⟨⟨0, 0, 0, 0⟩, 0⟩
  st : PortSt := .idle
  owner : Nat := 0
  held : Option Notice := none
  pending : Nat := 0
  gone : Bool := false
  partner : Option CtxId := none
  bulk : Option Bulk := none
  deriving DecidableEq, Repr

/-- What a packet carries (R307, R312, R319): `tell` is the result register of the `spawnt` whose forager it
is. -/
inductive Body where
  | offer (n : Notice)
  | ready (n : Notice)
  | ack
  | start (b : Bulk)
  | commit (c : CtxId)
  | release
  | withdraw
  | refuse
  | forager (f : Forager) (tell : Option Nat)
  deriving DecidableEq, Repr

/-- A packet under way (R307, R319) or parked (R323): from port to port (a forager names the vtiles alone), with
the context whose traffic it is, whether it has been poisoned, the physical tile that its NI has translated the
destination to (R379), whether it waits at its source NI for room in the park queue (R323), and the router that holds it
during a flush (R97). -/
structure Packet where
  src : PortId
  dst : PortId
  body : Body
  ctx : Option CtxId := none
  poison : Bool := false
  tile : Nat := 0
  waits : Bool := false
  router : Option Nat := none
  deriving DecidableEq, Repr

/-- A wait-graph probe under way (R326): its initiator and identifier, the initiator's physical tile. -/
structure Probe where
  init : CtxId
  id : Nat
  tile : Nat
  deriving DecidableEq, Repr

/-- A pointer entry in a tile's pointer cache (R363): its level, the address bits above that level's index
field and the entry. -/
structure Ptr where
  lvl : Nat
  pre : Nat
  e : Nat
  deriving DecidableEq, Repr

/-- What missed a translation (R363): a context's instruction, the frame that its handler entry saves (R82), the copy engine
or the matrix unit of its core, a bulk transfer at a port. -/
inductive MissBy where
  | instr
  | spill
  | copy
  | matrix
  | bulk (p : PortId)
  deriving DecidableEq, Repr

/-- A miss that waits for a walk (R363): who waits, the address as the instruction formed it, the kind, the
privilege, and the address that its fault reports. An engine is named by slot 0 of its core; `failed`: the walk for a frame
has failed, and its context has still to see it. -/
structure Miss where
  by_ : MissBy := .instr
  ctx : CtxId
  ea : Word
  acc : Acc
  user : Bool
  tval : Word
  failed : Bool := false
  deriving DecidableEq, Repr

/-- The virtual address of a miss. -/
def Miss.va (m : Miss) : Nat := m.ea.toNat % 2 ^ 48

/-- Whether a miss is of a context's instruction or of its frame. -/
def Miss.ofCtx (m : Miss) (c : CtxId) : Bool := decide (m.ctx = c) && (match m.by_ with
  | .instr => true
  | .spill => true
  | .copy => false
  | .matrix => false
  | .bulk _ => false)

/-! ### The synchronised stop (R95 to R101) -/

/-- Why gangs are stopped, and so what follows the save: a swap-out of the first or the second class (R352), the
retirement of a tile (R28), pre-emption, repartitioning, the freeing of the partition (R27), or room for a curator
vtile (R18). -/
inductive StopWhy where
  | quiescent | quantum | retired | preempt | repartition | free | curator
  deriving DecidableEq, Repr

/-- A synchronised stop under way: its gangs, the stop count its notice carries, the vtiles with the tiles they stand
on, the notices in a row that a tile has missed and the tiles that missed the last one, whether T has passed, the flush
tokens each router has received and the routers that are swept, the vtiles whose save has begun and is done, the tiles
that missed the save, and the gangs a tile of which has retired meanwhile (R28). -/
structure Halt where
  part : Nat
  gangs : List GangId
  why : StopWhy
  t : Option Nat := none
  tiles : List (VtId × Nat) := []
  misses : NMap Nat := []
  missed : NSet := []
  halted : Bool := false
  tokens : NMap Nat := []
  swept : NSet := []
  saving : List VtId := []
  saved : List VtId := []
  late : NSet := []
  heads : List GangId := []
  deriving DecidableEq, Repr

/-- A thermal migration under way (R25): the vtile, its logical core, and the source and target physical cores. -/
structure Thermal where
  vt : VtId
  core : Nat
  src : Nat
  dst : Nat
  deriving DecidableEq, Repr

/-! ### The host's side (R297, R444 to R457) -/

/-- A host queue (R297), with the request that waits for its end (R448); `stalled`: its packet was not valid, and the
dispatcher waits for a write to NOTIFY (R299). -/
structure HostQ where
  part : Nat
  col : Nat
  k : Nat
  base : Nat
  rd : Nat := 0
  notify : Nat := 0
  err : Bool := false
  scaleout : Bool := false
  ending : Option (Nat × Nat) := none
  stalled : Bool := false
  deriving DecidableEq, Repr

/-- A BAR4 window (R445, R447): its offset, its first granule and count, and whether it may be written. -/
structure Window where
  off : Nat
  first : Nat
  n : Nat
  wr : Bool
  deriving DecidableEq, Repr

/-- A write of the host that the adapter has received and home has not performed yet (R445): bytes at an offset of BAR4,
or a write of NOTIFY of a host queue. -/
inductive HostWrite where
  | mem (off : Nat) (bs : List Byte)
  | notify (q : Nat) (w : Word)
  deriving DecidableEq, Repr

/-- A function of the endpoint (R444 to R449), 0 to 15 the virtual ones and 16 the physical one: requests taken
and those still in its ring, the TAG of the one under way, the error bits, its events, responses, interrupts by
vector, DMA writes, windows, and the writes that wait for an earlier one (R445); `reqMem` and `evMem`: what the entries of the
request and event rings hold, whether taken or not. -/
structure Func where
  taken : Nat := 0
  ring : List (List Word) := []
  busy : Option Nat := none
  reqErr : Bool := false
  evErr : Bool := false
  evWritten : Nat := 0
  evTaken : Nat := 0
  events : List (List Word) := []
  evRing : List (List Word) := []
  resps : List (List Word) := []
  irqs : NMap Nat := []
  dma : List (Nat × List Byte) := []
  windows : List Window := []
  held : List HostWrite := []
  reqMem : NMap (List Word) := []
  evMem : NMap (List Word) := []
  deriving DecidableEq, Repr

/-- A grant that waits for its mirror (R453), with its function's TAG and the time it lapses. -/
structure PendGrant where
  tag : Nat
  part : Nat
  g : Grant
  until_ : Nat
  deriving DecidableEq, Repr

/-- A firmware image (R436, R428, R456): its version, its digest, the throttle threshold it fixes and its energy
model's identifier. -/
structure Image where
  version : Nat := 0
  digest : Nat := 0
  threshold : Nat := 95
  model : Nat := 0
  deriving DecidableEq, Repr

/-- What the rim controllers are about (R456, R457): an activation, with the controllers that have changed over, or the
return of those after a failure; the controller that restarts; a restart on request with its function and TAG. On a device
with one controller: the controller that restarts once every partition has stopped, and the partitions that then run again. -/
structure Upkeep where
  activating : Bool := false
  changed : NSet := []
  back : Bool := false
  restarting : Option Nat := none
  asker : Option (Nat × Nat) := none
  waiting : Option Nat := none
  ran : List Nat := []
  deriving DecidableEq, Repr

/-- A launch packet that a scale-out port has received and that waits for its queue's partition (R455): the queue, its
sequence number and its words. -/
structure PeerPacket where
  q : Nat
  seq : Nat
  ws : List Word
  deriving DecidableEq, Repr

/-- A scale-out port (R448, R455): its mode, a mode that waits with its TAG, and the launch packets that wait. -/
structure ScalePort where
  mode : Nat := 0
  want : Option (Nat × Nat) := none
  pkts : List PeerPacket := []
  deriving DecidableEq, Repr

/-- A grade change under way (R242): the granule, the new grade, and the function and TAG to answer. -/
structure Regrade where
  gran : Nat
  grade : Nat
  func : Nat
  tag : Nat
  deriving DecidableEq, Repr

/-- A remap under way (R241): its stack and channel, the lines copied, and the TAG to answer. -/
structure Remap where
  stack : Nat
  channel : Nat
  line : Nat
  tag : Option Nat
  deriving DecidableEq, Repr

/-- An accession record (R429, R430): its words 0 to 17 and its hash chain entry as fields, and whether it is signed. -/
structure Record where
  seq : Nat
  time : Nat
  kind : Nat
  model : Nat
  epoch : Nat
  totals : List Nat
  prev : Nat
  signed : Bool
  deriving DecidableEq, Repr

/-- A self-test under way (R103). -/
structure SelfTest where
  tile : Nat
  u : UnitId
  deriving DecidableEq, Repr

/-- Requests that end with a stop: tiles that move to another partition (R27), the freeing of a partition (R447), the
retirement of a tile (R457). -/
inductive Xfer where
  | move (to_ : Nat)
  | free
  | retire
  deriving DecidableEq, Repr

/-- Such a request under way: its function and TAG, the partition it stops, the tiles it names, and the dies and the
assignment of engines that a repartitioning brings (R295). -/
structure Transfer where
  func : Nat
  tag : Nat
  part : Nat
  what : Xfer
  tiles : List Nat
  dies : List Nat := []
  engines : List (Nat × Nat) := []
  deriving DecidableEq, Repr

end Sys2Proof.Machine
end

