-- ==== Sys2Proof/Machine/State.lean ====
section
/-! DEFINITION. The state of a Strelpen device as plain data (INVENTORY.md lists every field with its
rule), the reasons a step can stop, and the state right after device reset. -/

namespace Sys2Proof.Machine

/-- A vtile (R15, R17): its entry of the vtile map (R377), the tables of its tile context and what its
NI, walker and barrier hardware hold; `linePorts`: for each quad, one more than the cycle in which the fetch port that its
detached swarm members share last read a line (R338). -/
structure VTile where
  exist : Bool := false
  gang : Nat := 0
  res : Bool := false
  issue : Bool := false
  ptile : Nat := 0
  mask : Word := 0
  root : Nat := 0
  entry : Option Word := none
  lpct : List Nat := List.range 48
  ports : AMap Nat Port := []
  perms : NMap Word := []
  spcap : Nat := 0
  arrivals : List Forager := []
  spill : List Forager := []
  qg : NMap Nat := []
  tg : Nat := 0
  swarms : NMap Nat := []
  tags : NMap Word := []
  tlb : List TEntry := []
  ptrs : List Ptr := []
  misses : List Miss := []
  migs : List (CtxId × Nat) := []
  lastStart : Nat := 0
  linePorts : NMap Nat := []
  deriving DecidableEq, Repr

/-- An entry of an NI translation cache (R379): the vtile, and the tile it stands on or the mark absent. -/
structure NiEntry where
  vt : VtId
  tile : Option Nat
  deriving DecidableEq, Repr

/-- Power state of a quad (R440 to R442). -/
inductive QPower where
  | awake | asleep | waking | off
  deriving DecidableEq, Repr

/-- A quad of a physical tile: points, throttle, reading and timers (R427, R434 to R436), power state
and idle cycles (R440, R441), the accesses held at its port, and the place of the core its copy engine served last
(R293). -/
structure Quad where
  op : Nat := 0
  granted : Option Nat := none
  pendOp : Option Nat := none
  throttled : Bool := false
  reading : Nat := 0
  hold : Nat := 0
  trans : Nat := 0
  power : QPower := .awake
  idle : Nat := 0
  wake : Nat := 0
  stall : Nat := 0
  rotCore : Nat := 0
  held : List Arrival := []
  deriving DecidableEq, Repr

/-- A physical tile (R14, R20, R25, R97, R103, R104), with its NI's translation cache (R379), its colony latch and the
tree channels for which its segment mask bit is 0 (R414). -/
structure Tile where
  owner : Option Nat := none
  working : Bool := true
  retired : Bool := false
  wide : List Bool := [true, true]
  vtile : Option VtId := none
  engine : Option Nat := none
  quads : NMap Quad := []
  saveBuf : List Packet := []
  spares : NMap Nat := []
  lastMove : Option Nat := none
  testing : Bool := false
  ni : List NiEntry := []
  latch : Bool := false
  unmasked : NSet := []
  deriving DecidableEq, Repr

/-- States of a gang (R350). -/
inductive GangSt where
  | absent | queued | resident | lost
  deriving DecidableEq, Repr

/-- A gang (R350 to R353). -/
structure Gang where
  st : GangSt := .absent
  since : Nat := 0
  start : Option Nat := none
  placing : Bool := false
  stopping : Bool := false
  summoned : Bool := false
  expired : Bool := false
  deriving DecidableEq, Repr

/-- A colony entry (R376) with its barrier generation (R414, R418). -/
structure Colony where
  live : Bool := false
  cores : Bool := false
  summon : Bool := false
  reqmask : Word := 0
  gridX : Nat := 0
  gridY : Nat := 0
  gangs : Nat := 0
  faultVt : Nat × Nat := (0, 0)
  cg : Nat := 0
  tree : Option Nat := none
  digest : List Byte := []
  image : List Byte := []
  deriving DecidableEq, Repr

/-- An ENG message that is open (R91): its SEQ, the context it names, the engine kind of R90, 4 for a bulk transfer, and
the logical core whose queue is held. -/
structure EngOpen where
  seq : Nat
  ctx : CtxId
  kind : Nat
  core : Nat := 0
  deriving DecidableEq, Repr

/-- A bank of an HBM stack (R427, R438, R439): its activation window in eighths of the nominal one, the sub-queue pointer,
and the times in ns of its latest activations. -/
structure Bank where
  win : Nat := 8
  ptr : Nat := 0
  acts : List Nat := []
  deriving DecidableEq, Repr

/-- A partition entry (R375, R424) with its fault queue and counters. -/
structure Part where
  valid : Bool := false
  freed : Bool := false
  state : Nat := 0
  curcol : Nat := 0
  granules : Nat := 0
  saveto : Nat := 2000
  quantum : Nat := 10
  fquota : Nat := 65536
  fcount : Nat := 0
  parkcap : Nat := 2 ^ 20
  keyepoch : BitVec 32 := 0
  faultQ : List Msg := []
  offered : List Msg := []
  lastSeq : Nat := 0
  lastHseq : Nat := 0
  hostMsgs : List Msg := []
  openEng : List EngOpen := []
  curTiles : List Nat := []
  cmdQ : List (CtxId × List Word) := []
  runq : List (Nat × Option Nat) := []
  heldSummons : List GangId := []
  quotaQ : List CtxId := []
  parkQ : List Packet := []
  rate : Nat := 0
  depth : Nat := 0
  tokens : Int := 0
  lend : Bool := false
  recalled : Bool := false
  debt : NMap Nat := []
  use : NMap Nat := []
  energy : Nat := 0
  cap : Option Nat := none
  logInt : Nat := 1000
  logLast : Nat := 0
  recSeq : Nat := 0
  lastHash : Nat := 0
  records : List Record := []
  key : Option Vec := none
  newkey : Option Vec := none
  rekeyed : NSet := []
  imgKey : List Byte := []
  launched : List Nat := []
  deriving DecidableEq, Repr

/-- The forms of the device (R1, R212). -/
inductive Form where
  | sd64 | sp256 | sw2304
  deriving DecidableEq, Repr

/-- The bins (R1, R212). -/
inductive Bin where
  | single | a | b | c
  deriving DecidableEq, Repr

/-- The completion of a host packet whose process has ended (R300): the slot and core whose stores come first,
the packet, its signal, its word 0 as the host wrote it (R460) and the STATUS to write. -/
structure PacketEnd where
  ctx : CtxId
  addr : Nat
  signal : Nat
  word0 : Nat
  status : Nat
  deriving DecidableEq, Repr

/-- An event that the machine brings about on its own: one that a count makes due, or one that may follow from what is
under way. Each stands for the row of the opcode table that its name spells (Sys2Proof.Instr). -/
inductive Auto where
  | mwaitLimit (c : CtxId)
  | idleTimeout (c : CtxId)
  | altTimeout (c : CtxId)
  | swarmTimeout (c : CtxId)
  | spawnRetry (c : CtxId)
  | watchdog (c : CtxId)
  | probe (c : CtxId)
  | quadSleep (q : QuadId)
  | quadWake (q : QuadId)
  | quadWakeComplete (q : QuadId)
  | pointChangeEnd (q : QuadId)
  | transitionTimer (q : QuadId)
  | holdTimer (q : QuadId)
  | stopCount (g : GangId)
  | saveTimeout (g : GangId)
  | startCount (g : GangId)
  | quantum (g : GangId)
  | refill
  | logInterval (p : Nat)
  | grantLapse (f : Nat)
  | posted (c : CtxId)
  | atomicResult (c : CtxId)
  | pageWalk (v : VtId) (vpn : Nat)
  | cacheFill (k : CoreId) (line : Nat)
  | extensionMove (c : CtxId)
  | tlbiAck (c : CtxId)
  | writeThrough (k : CoreId) (line : Nat)
  | copyStep (k : CoreId)
  | packStep (k : CoreId)
  | unpackStep (k : CoreId)
  | reduceStep (k : CoreId)
  | matrixFetch (k : CoreId)
  | matrixEffect (k : CoreId)
  | matrixCompletion (k : CoreId)
  | offer (p : PortId)
  | readyNotice (p : PortId)
  | ack (p : PortId)
  | start (p : PortId)
  | commitNotice (p : PortId)
  | releaseNotice (p : PortId)
  | withdrawal (p : PortId)
  | refusal (p : PortId)
  | forager (v : VtId)
  | foragerStart (v : VtId)
  | zeroing (g : Nat)
  | faultMessage (p : Nat)
  | bulkStep (p : PortId)
  | migratingMove (v : VtId)
  deriving DecidableEq, Repr

/-- Who moves next: a core issues for a context, an event happens, an event of the machine's own, or a cycle passes. -/
inductive Move where
  | issue (c : CtxId)
  | event (i : Instr)
  | own (a : Auto)
  | cycle
  deriving DecidableEq, Repr

/-- The machine. -/
structure State where
  agenda : List Move
  cur : CtxId
  time : Nat
  refills : Nat
  net : List Packet
  probes : List Probe
  ends : List PacketEnd
  form : Form
  bin : Bin
  mem : NMap Byte
  pois : NSet
  poisLine : NSet
  badLine : NSet
  side : NMap Word
  written : NSet
  granules : NMap (BitVec 8)
  zeroing : NSet
  homeQ : NMap (List Arrival)
  rows : List Arrival
  ctxs : AMap CtxId Ctx
  cores : AMap CoreId Core
  vtiles : AMap VtId VTile
  tiles : NMap Tile
  colonies : AMap (Nat × Nat) Colony
  parts : NMap Part
  gangs : AMap GangId Gang
  dies : NMap (Option Nat)
  dieQ : AMap Nat (List CoreId)
  stops : List Halt
  treeWait : List (Nat × Nat)
  thermals : List Thermal
  tests : List SelfTest
  transfers : List Transfer
  hqs : AMap Nat HostQ
  funcs : AMap Nat Func
  grants : List PendGrant
  fw : Image
  staged : Option Image
  rollback : Nat
  upkeep : Upkeep
  rims : NSet
  regrades : List Regrade
  remaps : List Remap
  spare : NMap Nat
  banks : NMap Bank
  dieUnmasked : NMap NSet
  ports24 : NMap ScalePort
  sent : List (Nat × List Byte)
  links : NSet
  modno : Nat
  deriving DecidableEq, Repr

/-- Why a step stops without a next state. -/
inductive Fault where
  /-- Raised by `step` where the agenda hands it, as an event, an instruction form of the opcode table:
  such an instruction is issued by a context, never delivered. Safe. -/
  | notAnEvent
  deriving DecidableEq, Repr

/-- Why the model gives no meaning. -/
inductive Refusal where
  /-- Raised by `exec` for a row of the opcode table that has no meaning yet. Safe. -/
  | notModelled (mnemonic : String)
  deriving DecidableEq, Repr

/-- The context of no process. -/
def CtxId.none : CtxId := ⟨⟨0, 0, 0, 0⟩, 0, 0⟩

/-- A device of a form and bin right after device reset (R245, R423, INVENTORY.md): nothing is placed, owned or mapped,
the time base is 0 and every granule is cleared. -/
def State.initial (f : Form) (n : Bin) : State :=
  { agenda := [], cur := CtxId.none, time := 0, refills := 0, net := [], probes := [], ends := [], form := f, bin := n
    mem := [], pois := [], poisLine := [], badLine := [], side := [], written := [], granules := [], zeroing := [], homeQ := [], rows := []
    ctxs := [], cores := [], vtiles := [], tiles := [], colonies := [], parts := [], gangs := [], dies := [], dieQ := []
    stops := [], treeWait := [], thermals := [], tests := [], transfers := [], hqs := [], funcs := [], grants := []
    fw := {}, staged := none, rollback := 0, upkeep := {}, rims := [], regrades := [], remaps := [], spare := []
    banks := [], dieUnmasked := [], ports24 := [], sent := [], links := [], modno := 0 }

/-- The machine right after reset: an SW-2304 module of bin A with every tile working. -/
def State.reset : State := State.initial .sw2304 .a

end Sys2Proof.Machine
end

