-- ==== Sys2Proof/Machine/Regs.lean ====
section
/-! DEFINITION. Reading and writing the records of State: contexts and their registers (R105, R107,
R152, R183), cores, vtiles, tiles, partitions, colonies and gangs. -/

namespace Sys2Proof

/-! ### Names -/

/-- The core a context stands on. -/
def CtxId.coreId (c : CtxId) : CoreId := ⟨c.vt, c.core⟩

/-- The quad of a logical core (R249). -/
def CtxId.quad (c : CtxId) : Nat := c.core / 4

/-- All 192 contexts of a vtile in order of core and slot. -/
def VtId.slots (v : VtId) : List CtxId :=
  (List.range 48).flatMap (fun k => (List.range 4).map (fun j => ⟨v, k, j⟩))

/-- The four contexts of a core. -/
def CoreId.slots (k : CoreId) : List CtxId := (List.range 4).map (fun j => ⟨k.vt, k.core, j⟩)

end Sys2Proof

namespace Sys2Proof.Machine

/-! ### Records -/

/-- The context in a slot; an empty one where nothing was ever put. -/
def State.ctx (s : State) (c : CtxId) : Ctx := AMap.get {} s.ctxs c
/-- Put a context into its slot. -/
def State.putCtx (s : State) (c : CtxId) (x : Ctx) : State := { s with ctxs := AMap.put s.ctxs c x }
/-- Change a context. -/
def State.modCtx (s : State) (c : CtxId) (f : Ctx → Ctx) : State := s.putCtx c (f (s.ctx c))

/-- A logical core of a vtile. -/
def State.core (s : State) (k : CoreId) : Core := AMap.get {} s.cores k
/-- Put a core's record. -/
def State.putCore (s : State) (k : CoreId) (x : Core) : State := { s with cores := AMap.put s.cores k x }
/-- Change a core's record. -/
def State.modCore (s : State) (k : CoreId) (f : Core → Core) : State := s.putCore k (f (s.core k))

/-- A vtile. -/
def State.vtile (s : State) (v : VtId) : VTile := AMap.get {} s.vtiles v
/-- Put a vtile's record. -/
def State.putVt (s : State) (v : VtId) (x : VTile) : State := { s with vtiles := AMap.put s.vtiles v x }
/-- Change a vtile's record. -/
def State.modVt (s : State) (v : VtId) (f : VTile → VTile) : State := s.putVt v (f (s.vtile v))

/-- A physical tile. -/
def State.tile (s : State) (t : Nat) : Tile := NMap.get {} s.tiles t
/-- Change a tile's record. -/
def State.modTile (s : State) (t : Nat) (f : Tile → Tile) : State :=
  { s with tiles := NMap.set {} s.tiles t (f (s.tile t)) }

/-- A quad of a tile. -/
def State.quad (s : State) (q : QuadId) : Quad := NMap.get {} (s.tile q.tile).quads q.quad
/-- Change a quad's record. -/
def State.modQuad (s : State) (q : QuadId) (f : Quad → Quad) : State :=
  s.modTile q.tile (fun t => { t with quads := NMap.set {} t.quads q.quad (f (s.quad q)) })

/-- A partition's entry. -/
def State.part (s : State) (p : Nat) : Part := NMap.get {} s.parts p
/-- Change a partition's entry. -/
def State.modPart (s : State) (p : Nat) (f : Part → Part) : State :=
  { s with parts := NMap.set {} s.parts p (f (s.part p)) }

/-- A usage counter of a partition rises, saturating (R428): 0 TCYC, 1 MAC16, 2 MAC8, 3 MAC4, 4 MACF64, 5 HBMRD,
6 HBMWR, 8 ACTDLY, 9 BORROW; a rise of one of the first seven raises ENERGY by what the energy model in force says. -/
def State.tally (s : State) (p i n : Nat) : State :=
  if n = 0 then s
  else s.modPart p (fun q => { q with
    use := NMap.set 0 q.use i (min (2 ^ 64 - 1) (NMap.get 0 q.use i + n))
    energy := if i < 7 then min (2 ^ 64 - 1)
        (q.energy + Config.energy s.fw.model ((List.range 7).map (NMap.get 0 q.use)) i n)
      else q.energy })

/-- A colony's entry. -/
def State.colony (s : State) (p k : Nat) : Colony := AMap.get {} s.colonies (p, k)
/-- Change a colony's entry. -/
def State.modColony (s : State) (p k : Nat) (f : Colony → Colony) : State :=
  { s with colonies := AMap.put s.colonies (p, k) (f (s.colony p k)) }

/-- A gang. -/
def State.gang (s : State) (g : GangId) : Gang := AMap.get {} s.gangs g
/-- Change a gang's record. -/
def State.modGang (s : State) (g : GangId) (f : Gang → Gang) : State :=
  { s with gangs := AMap.put s.gangs g (f (s.gang g)) }

/-- The gang of a vtile. -/
def State.gangOf (s : State) (v : VtId) : GangId := ⟨v.part, v.col, (s.vtile v).gang⟩

/-- Whether a vtile is resident for the network (R17, R29, R350): RES is set, and the start count of its gang has come. -/
def State.present (s : State) (v : VtId) : Bool :=
  (s.vtile v).exist && (s.vtile v).res && !(s.gang (s.gangOf v)).placing
/-- Whether a vtile is resident outside a stop (R99). -/
def State.running (s : State) (v : VtId) : Bool := s.present v && (s.vtile v).issue

/-- The physical quad that a logical core stands on (R249, R380). -/
def State.quadOf (s : State) (k : CoreId) : QuadId :=
  let v := s.vtile k.vt
  ⟨v.ptile, v.lpct.getD k.core k.core / 4⟩

/-- Whether a vtile stands on its tile: its monitors are watched (R279, R280). -/
def State.stands (s : State) (v : VtId) : Bool := decide ((s.tile (s.vtile v).ptile).vtile = some v)

/-- A sleeping quad begins to wake (R441). -/
def State.wakeQuad (s : State) (q : QuadId) : State :=
  s.modQuad q (fun x => if x.power = .asleep then { x with power := .waking, wake := 1200, idle := 0 } else x)

/-- The quad of a core begins to wake. -/
def State.wakeCore (s : State) (k : CoreId) : State := if s.present k.vt then s.wakeQuad (s.quadOf k) else s

/-- Whether the engines of a core run its commands (R99, R207, R440). -/
def State.runs (s : State) (k : CoreId) : Bool :=
  s.running k.vt && !(s.core k).moving && decide ((s.quad (s.quadOf k)).power = .awake)

/-- The logical cores of a tile's vtile that stand on a quad. -/
def State.coresOn (s : State) (q : QuadId) : List CoreId :=
  match (s.tile q.tile).vtile with
  | none => []
  | some v => ((List.range 48).filter (fun k => decide ((s.vtile v).lpct.getD k k / 4 = q.quad))).map (fun k => ⟨v, k⟩)

/-- The contexts of a vtile that hold a process. -/
def State.ctxsOf (s : State) (v : VtId) : List CtxId :=
  (s.ctxs.filter (fun e => decide (e.1.vt = v) && decide (e.2.st ≠ .empty))).map (·.1)

/-! ### Registers -/

/-- G(r) (R105): g0 reads zero. -/
def Ctx.rg (x : Ctx) (r : Nat) : Word := if r = 0 then 0 else NMap.get 0 x.g r
/-- G(r) := w: a write to g0 is discarded. -/
def Ctx.wg (x : Ctx) (r : Nat) (w : Word) : Ctx := if r = 0 then x else { x with g := NMap.set 0 x.g r w }

/-- P(r) (R107): p0 reads one. -/
def Ctx.rp (x : Ctx) (r : Nat) : Bool := if r = 0 then true else x.p.getLsbD r
/-- P(r) := b: a write to p0 is discarded. -/
def Ctx.wp (x : Ctx) (r : Nat) (b : Bool) : Ctx :=
  if r = 0 then x
  else { x with p := if b then x.p ||| (1#8 <<< r) else x.p &&& ~~~(1#8 <<< r) }

/-- V(r) (R152). -/
def Ctx.rv (x : Ctx) (r : Nat) : Vec := NMap.get 0 x.v r
/-- V(r) := w. -/
def Ctx.wv (x : Ctx) (r : Nat) (w : Vec) : Ctx := { x with v := NMap.set 0 x.v r w }

/-- Element (i, j) of accumulator n as an f32 code (R183). -/
def Ctx.ra (x : Ctx) (n i j : Nat) : BitVec 32 := NMap.get 0 x.acc (n * 256 + i * 16 + j)
/-- Write an element of an accumulator. -/
def Ctx.wa (x : Ctx) (n i j : Nat) (w : BitVec 32) : Ctx :=
  { x with acc := NMap.set 0 x.acc (n * 256 + i * 16 + j) w }

/-- Entry k of a binding table (R389). -/
def Ctx.bind (x : Ctx) (k : Nat) : Binding := NMap.get {} x.binds k

/-- cstat.PRIV (R211). -/
def Ctx.priv (x : Ctx) : Bool := x.cstat.getLsbD 10
/-- cstat.CF. -/
def Ctx.cf (x : Ctx) : Bool := x.cstat.getLsbD 9
/-- cstat.TH. -/
def Ctx.th (x : Ctx) : Bool := x.cstat.getLsbD 8

/-- A word with one bit set or cleared. -/
def setBit (w : Word) (k : Nat) (b : Bool) : Word :=
  if b then w ||| (1#64 <<< k) else w &&& ~~~(1#64 <<< k)

/-- cstat.CF := b. -/
def Ctx.setCf (x : Ctx) (b : Bool) : Ctx := { x with cstat := setBit x.cstat 9 b }
/-- cstat.TH := b. -/
def Ctx.setTh (x : Ctx) (b : Bool) : Ctx := { x with cstat := setBit x.cstat 8 b }

/-- Record sticky conditions in cstat[4:0] (R133, R134). -/
def Ctx.orFlags (x : Ctx) (f : FFlags) : Ctx := { x with cstat := x.cstat ||| f.bits.zeroExtend 64 }

/-- Q: the posted stores of the context not yet performed (R251). -/
def Ctx.q (x : Ctx) : Nat := x.posted.length
/-- H: the write-throughs of the core not yet performed at home (R251). -/
def Core.h (x : Core) : Nat := x.through.length

/-- The context's own registers at process creation and forager start (R105, R107, R152, R183, R184,
R209, R277, R389): everything at its reset value but the entry PC, the privilege and how it began. The
posted stores of the slot stay (R413). -/
def Ctx.fresh (old : Ctx) (pc : Word) (priv : Bool) (origin : Origin) : Ctx :=
  { posted := old.posted, st := .ready, pc := pc, cstat := setBit 0 10 priv, origin := origin }

/-- An emptied slot keeps only its posted stores. -/
def Ctx.emptied (old : Ctx) : Ctx := { posted := old.posted }

/-! ### Program counters -/

/-- The line of a PC: its address (R59). -/
def lineOf (pc : Word) : Nat := pc.toNat / 64 * 64
/-- The head slot of a PC. -/
def slotOf (pc : Word) : Nat := fld pc.toNat 1 5
/-- The head count a line's descriptor gives (R56). -/
def headCount (l : Vec) : Nat := fld l.toNat 0 5
/-- Halfword k of a line. -/
def halfword (l : Vec) (k : Nat) : Nat := fld l.toNat (16 * k) 16
/-- The sum of the tail lengths of heads 1 to k (R56 S(k+1)). -/
def tailSum (l : Vec) : Nat → Nat
  | 0 => 0
  | k + 1 => tailSum l k + tailLen (halfword l (k + 1))
/-- The check of R57. -/
def lineOk (l : Vec) : Bool :=
  let n := headCount l
  decide (n ≠ 0) && decide (fld l.toNat 5 11 = 0) && decide (1 + n + tailSum l n ≤ 32)
/-- The tail of head i as one number (R56). -/
def tailAt (l : Vec) (i : Nat) : Nat :=
  let len := tailLen (halfword l i)
  fld l.toNat (512 - 16 * (tailSum l (i - 1) + len)) (16 * len)

/-- NextPC for a line of n heads (R59). -/
def nextPcN (n : Nat) (pc : Word) : Word :=
  if slotOf pc < n then pc + 2
  else BitVec.ofNat 64 (((pc.toNat / 64 + 1) % 2 ^ 58) * 64 + 2)

/-- Target of a PC-relative transfer (R61). -/
def target (pc : Word) (d : Int) (slot : Nat) : Word :=
  BitVec.ofNat 64 ((((pc.toNat / 64 : Nat) : Int) + d) % 2 ^ 58).toNat * 64 + BitVec.ofNat 64 (slot * 2)

end Sys2Proof.Machine
end

