-- ==== Sys2Proof/Machine/Trans.lean ====
section
/-! DEFINITION. HBM at home (R241 to R245) and address translation (R355 to R363). -/

namespace Sys2Proof.Machine

/-! ### Bytes -/

/-- n bytes of a memory from key k on, little-endian (R9). -/
def rdBytes (m : NMap Byte) (k : Nat) : Nat → Nat
  | 0 => 0
  | n + 1 => (NMap.get 0 m k).toNat + 256 * rdBytes m (k + 1) n

/-- Write the n low bytes of v from key k on. -/
def wrBytes (m : NMap Byte) (k v : Nat) : Nat → NMap Byte
  | 0 => m
  | n + 1 => wrBytes (NMap.set 0 m k (BitVec.ofNat 8 v)) (k + 1) (v / 256) n

/-- The words of a mask, as pairs of word number and value. -/
def maskWords (mask : BitVec 8) (data : Vec) : List (Nat × Nat) :=
  ((List.range 8).filter (fun i => mask.getLsbD i)).map (fun i => (i, fld data.toNat (64 * i) 64))

/-! ### HBM -/

/-- Stacks of a form (R1, R241). -/
def Form.stacks : Form → Nat
  | .sd64 => 2 | .sp256 => 8 | .sw2304 => 32

/-- Bytes of HBM that the form has: an address at or above is absent (R241). -/
def State.hbmEnd (s : State) : Nat := s.form.stacks * 2 ^ 36

/-- The granule of a physical address. -/
def granuleOf (pa : Nat) : Nat := pa / 65536

/-- The cleared bitmap's bit of a granule (R245). -/
def State.cleared (s : State) (g : Nat) : Bool := !NSet.mem s.written g

/-- The rim controller of an address: four stacks each on SW-2304, one controller on the other forms (R241, R456). -/
def State.rimOf (s : State) (pa : Nat) : Nat := if s.form = .sw2304 then pa / 2 ^ 38 else 0

/-- The monitors that watch a heap word fire when it is written at home (R279); those of a vtile that stands on no tile are
not watched (R280). -/
def State.fireHome (s : State) (pa n : Nat) : State :=
  { s with ctxs := s.ctxs.map (fun e =>
      match e.2.mon.phys with
      | some w => if e.2.mon.armed ∧ pa / 8 * 8 ≤ w ∧ w < pa + n ∧ s.stands e.1.vt
                  then (e.1, { e.2 with mon := { e.2.mon with fired := true } }) else e
      | none => e) }

/-- Whether the rim controller serves an access to a line now: no zeroing of its granule under way (R245), and the
controller is not restarting (R456). -/
def State.homeFree (s : State) (pa : Nat) : Bool :=
  !NSet.mem s.zeroing (granuleOf pa) && decide (s.upkeep.restarting ≠ some (s.rimOf pa))

/-- Whether it is the turn of an access that waits at a granule: those that arrived earlier have been served (R245). -/
def State.homeTurn (s : State) (pa : Nat) (a : Arrival) : Bool :=
  match NMap.get [] s.homeQ (granuleOf pa) with
  | [] => true
  | b :: _ => decide (a.agent = b.agent)

/-- An access that cannot be served yet has arrived at its granule. -/
def State.holdHome (s : State) (pa : Nat) (a : Arrival) : State :=
  let l := NMap.get [] s.homeQ (granuleOf pa)
  if a ∈ l then s else { s with homeQ := NMap.set [] s.homeQ (granuleOf pa) (l ++ [a]) }

/-- An access has been served at its granule. -/
def State.servedHome (s : State) (pa : Nat) (a : Arrival) : State :=
  let l := NMap.get [] s.homeQ (granuleOf pa)
  if a ∈ l then { s with homeQ := NMap.set [] s.homeQ (granuleOf pa) (dropFirst (fun b => decide (a = b)) l) } else s

/-- The time base in ns (R10). -/
def State.ns (s : State) : Nat := s.time * 5 / 3

/-- A usage counter of the partition that owns a granule rises (R428). -/
def State.tallyHbm (s : State) (g i n : Nat) : State :=
  let e := NMap.get 0 s.granules g
  if e.getLsbD 4 then s.tally (fld e.toNat 0 4) i n else s

/-- Bytes read from DRAM; a cleared granule is not read there (R245, R428). -/
def State.tallyRead (s : State) (pa n : Nat) : State :=
  if s.cleared (granuleOf pa) then s else s.tallyHbm (granuleOf pa) 5 n

/-- Zero-initialise a granule and clear its bit (R245), charged to its owner (R428). -/
def State.zeroGranule (s : State) (g : Nat) : State :=
  let s := s.tallyHbm g 6 65536
  { s with
    mem := NMap.keep s.mem (fun k => !(decide (g * 65536 ≤ k) && decide (k < (g + 1) * 65536)))
    side := NMap.keep s.side (fun k => decide (k / 1024 ≠ g))
    poisLine := s.poisLine.filter (fun k => decide (k / 1024 ≠ g))
    badLine := s.badLine.filter (fun k => decide (k / 1024 ≠ g))
    written := NSet.ins s.written g }

/-- Read a line at home (R237, R245): data, whether it is poisoned, whether it is uncorrectable. -/
def State.homeLine (s : State) (line : Nat) : Fill :=
  if s.cleared (line / 1024) then ⟨line, 0, 0, 0⟩
  else ⟨line, BitVec.ofNat 512 (rdBytes s.mem (line * 64) 64), if NSet.mem s.poisLine line then 0xFF else 0,
    if NSet.mem s.badLine line then 0xFF else 0⟩

/-- The side bits that a grade leaves free (R242). -/
def State.freeSide (s : State) (g : Nat) : Word :=
  match fld (NMap.get 0 s.granules g).toNat 5 2 with
  | 1 => 0xFFFFFFF000000000
  | 2 => 0xFFFFFFFFFFFFFF00
  | _ => 0

/-- Bytes at home; a cleared granule reads zero (R245). -/
def State.homeBytes (s : State) (pa n : Nat) : Nat :=
  if s.cleared (granuleOf pa) then 0 else rdBytes s.mem pa n

/-- Merge bytes into a line at home (R242): a partial write of an uncorrectable line leaves it poisoned,
one of a poisoned line leaves it poisoned, a write of the whole line clears the poison. -/
def State.homeWrite (s : State) (pa n v : Nat) : State :=
  let l := pa / 64
  let whole := decide (n = 64)
  let s := s.tallyHbm (granuleOf pa) 6 n
  { s with
    mem := wrBytes s.mem pa v n
    poisLine := NSet.put s.poisLine l (!whole && (NSet.mem s.poisLine l || NSet.mem s.badLine l))
    badLine := NSet.erase s.badLine l }

/-- Start zeroing a granule (R245). -/
def State.startZero (s : State) (g : Nat) : State := { s with zeroing := NSet.ins s.zeroing g }

/-- A write at home by an agent that zeroes the granule itself, before what arrives later (R245): the wafer manager, the
host, the dispatcher. -/
def State.homeWriteNow (s : State) (pa n v : Nat) : State :=
  let g := granuleOf pa
  let s := if s.cleared g then s.zeroGranule g else s
  (s.homeWrite pa n v).fireHome pa n

/-- Whether the partition reaches a granule: given to it and not a system granule (R384, R359). -/
def State.granOk (s : State) (part g : Nat) : Bool :=
  let e := NMap.get 0 s.granules g
  decide (g * 65536 < s.hbmEnd) && e.getLsbD 4 && !e.getLsbD 7 && decide (fld e.toNat 0 4 = part)

/-! ### Entries of the tree -/

/-- The walk's outcome: a fault with its cause and the entry of word 5 (R358), or a leaf. -/
inductive Walked where
  | fault (c : Cause) (e : Nat)
  | leaf (e level first : Nat)
  deriving DecidableEq, Repr

/-- Size code of a leaf (R356). -/
def leafSz (e : Nat) : Nat := fld e 2 4
/-- Log2 of a page's size in 4 KiB pages (R357). -/
def szLog (sz : Nat) : Nat := 2 * sz
/-- The level of a size code (R357). -/
def szLevel (sz : Nat) : Nat := if sz < 3 then 0 else if sz < 6 then 1 else if sz < 9 then 2 else 3
/-- The run of a size code (R357). -/
def szRun (sz : Nat) : Nat := if sz = 9 then 1 else 4 ^ (sz % 3)

/-- The bits that every entry of a run shares (R357): [55:11] and [8:0]. -/
def runBits (e : Nat) : Nat × Nat := (fld e 11 45, fld e 0 9)

/-- R359, for a leaf at level n whose run begins at physical address `first`. -/
def State.malformed (s : State) (part e n first : Nat) : Bool :=
  let sz := leafSz e
  let pages := 2 ^ szLog sz
  let frame := fld e 12 29
  decide (10 ≤ sz) || decide (szLevel sz ≠ n) || decide (fld e 41 15 ≠ 0) ||
  (decide (fld e 6 1 = 0) && decide (fld e 7 1 = 1)) || decide (frame % pages ≠ 0) ||
  (List.range (szRun sz)).any (fun i => decide (runBits (s.homeBytes (first + 8 * i) 8) ≠ runBits e)) ||
  (List.range (max 1 (pages / 16))).any (fun i => !s.granOk part (frame / 16 + i))

/-- Whether an entry can be read (R358): its line is neither poisoned nor uncorrectable. -/
def State.entryOk (s : State) (pa : Nat) : Bool :=
  s.cleared (granuleOf pa) || !(NSet.mem s.poisLine (pa / 64) || NSet.mem s.badLine (pa / 64))

/-- The levels of a walk below a table at physical address t that the entry `via` named (R358). -/
def State.walkFrom (s : State) (part va : Nat) : Nat → Nat → Nat → Walked
  | 0, _, _ => .fault .permission 0
  | n + 1, t, via =>
    if !s.granOk part (granuleOf t) then .fault .permission via
    else
      let idx := fld va (6 * n + 12) 6
      let pa := t + 8 * idx
      if !s.entryOk pa then .fault .permission 0
      else
        let e := s.homeBytes pa 8
        if fld e 0 1 = 0 then .fault .pageAbsent e
        else if fld e 1 1 = 0 then
          if n = 0 ∨ fld e 41 15 ≠ 0 ∨ fld e 2 7 ≠ 0 then .fault .permission e
          else s.walkFrom part va n (fld e 9 32 * 512) e
        else
          let first := t + 8 * (idx / szRun (leafSz e) * szRun (leafSz e))
          if s.malformed part e n first then .fault .permission e else .leaf e n first

/-- The pointer entries that the same walk reads, from the table at t down (R363). -/
def State.walkPtrs (s : State) (part va : Nat) : Nat → Nat → List Ptr
  | 0, _ => []
  | n + 1, t =>
    let e := s.homeBytes (t + 8 * fld va (6 * n + 12) 6) 8
    if !s.granOk part (granuleOf t) || !s.entryOk (t + 8 * fld va (6 * n + 12) 6) || fld e 0 2 != 1 || n == 0 || fld e 41 15 != 0 || fld e 2 7 != 0 then []
    else ⟨n, va / 2 ^ (6 * n + 12), e⟩ :: s.walkPtrs part va n (fld e 9 32 * 512)

/-- The lines of n bytes from a physical address on. -/
def linesOf (pa n : Nat) : List Nat := (List.range ((pa % 64 + n + 63) / 64)).map (fun i => pa / 64 + i)

/-- The lines at home that a walk reads from the table at t down: an entry of each table, and the whole run of a leaf (R358,
R359). -/
def State.walkLines (s : State) (part va : Nat) : Nat → Nat → List Nat
  | 0, _ => []
  | n + 1, t =>
    let idx := fld va (6 * n + 12) 6
    let pa := t + 8 * idx
    let e := s.homeBytes pa 8
    if !s.granOk part (granuleOf t) then []
    else if !s.entryOk pa || fld e 0 1 == 0 then [pa / 64]
    else if fld e 1 1 = 0 then
      pa / 64 :: (if n = 0 ∨ fld e 41 15 ≠ 0 ∨ fld e 2 7 ≠ 0 then [] else s.walkLines part va n (fld e 9 32 * 512))
    else pa / 64 :: (linesOf (t + 8 * (idx / szRun (leafSz e) * szRun (leafSz e))) (8 * szRun (leafSz e))).filter
      (fun l => decide (l ≠ pa / 64))

/-- The cached pointer entry of the lowest level that covers an address (R363). -/
def cachedPtr (l : List Ptr) (va : Nat) : Nat → Option Ptr
  | 0 => none
  | k + 1 =>
    match l.find? (fun q => decide (q.lvl = 5 - k) && decide (q.pre = va / 2 ^ (6 * (5 - k) + 12))) with
    | some q => some q
    | none => cachedPtr l va k

/-- A walk (R358, R363), with no permission check: from the vtile's root, or below a cached pointer
entry. -/
def State.walk (s : State) (v : VtId) (va : Nat) : Walked :=
  let root := (s.vtile v).root
  if root = 0 then .fault .pageAbsent 0
  else match cachedPtr (s.vtile v).ptrs va 5 with
    | some q => s.walkFrom v.part va q.lvl (fld q.e 9 32 * 512) q.e
    | none => s.walkFrom v.part va 6 (root * 512) 0

/-- The lines at home that the walk of an address by a vtile's walker reads, in order (R358, R363). -/
def State.walkPath (s : State) (v : VtId) (va : Nat) : List Nat :=
  let root := (s.vtile v).root
  if root = 0 then []
  else match cachedPtr (s.vtile v).ptrs va 5 with
    | some q => s.walkLines v.part va q.lvl (fld q.e 9 32 * 512)
    | none => s.walkLines v.part va 6 (root * 512)

/-- The pointer entries of a walk enter the tile's pointer cache of 128 (R363). -/
def State.notePtrs (s : State) (v : VtId) (va : Nat) : State :=
  let root := (s.vtile v).root
  let new := match cachedPtr (s.vtile v).ptrs va 5 with
    | some q => s.walkPtrs v.part va q.lvl (fld q.e 9 32 * 512)
    | none => s.walkPtrs v.part va 6 (root * 512)
  if root = 0 then s
  else s.modVt v (fun x => { x with ptrs :=
    (new ++ x.ptrs.filter (fun q => !new.any (fun r => decide (r.lvl = q.lvl) && decide (r.pre = q.pre)))).take 128 })

/-- R360. -/
def permitted (e va : Nat) (acc : Acc) (user : Bool) : Bool :=
  let rd := decide (fld e 6 1 = 1)
  let wr := decide (fld e 7 1 = 1)
  let g := decide (fld e 11 1 = 1)
  decide (g = decide (fld va 47 1 = 1)) && !(g && wr) &&
  (match acc with
   | .read => rd
   | .fetch => rd
   | .write => wr
   | .atomic => rd && wr) &&
  (!user || decide (fld e 8 1 = 1))

/-- The translation that a leaf gives (R362). -/
def entryOf (e va : Nat) (dirty : Bool) : TEntry :=
  let sz := leafSz e
  let pages := 2 ^ szLog sz
  { vpn := va / 4096 / pages * pages, sz := sz, frame := fld e 12 29,
    rd := decide (fld e 6 1 = 1), wr := decide (fld e 7 1 = 1), us := decide (fld e 8 1 = 1),
    g := decide (fld e 11 1 = 1), dc := dirty || decide (fld e 10 1 = 1) }

/-- Whether a cached translation covers a virtual address. -/
def TEntry.covers (t : TEntry) (va : Nat) : Bool :=
  decide (t.vpn ≤ va / 4096) && decide (va / 4096 < t.vpn + 2 ^ szLog t.sz)

/-- The physical address a cached translation gives. -/
def TEntry.phys (t : TEntry) (va : Nat) : Nat := t.frame * 4096 + (va - t.vpn * 4096)

/-- Whether a cached translation permits an access; a write needs DC = 1 (R360, R362). -/
def TEntry.allows (t : TEntry) (va : Nat) (acc : Acc) (user : Bool) : Bool :=
  decide (t.g = decide (fld va 47 1 = 1)) &&
  (match acc with
   | .read => t.rd
   | .fetch => t.rd
   | .write => t.wr && t.dc
   | .atomic => t.rd && t.wr && t.dc) &&
  (!user || t.us)

/-- The translation caches of a core: its own, then its tile's (R362). -/
def State.lookup (s : State) (k : CoreId) (va : Nat) (acc : Acc) (user : Bool) : Option TEntry :=
  ((s.core k).tlb ++ (s.vtile k.vt).tlb).find? (fun t => t.covers va && t.allows va acc user)

/-- Put an entry in front of a cache of n entries, in place of any entry for the same page. -/
def putEntry (n : Nat) (t : TEntry) (l : List TEntry) : List TEntry :=
  (t :: l.filter (fun u => !(u.covers (t.vpn * 4096) || t.covers (u.vpn * 4096)))).take n

/-- The set of a tile cache that an entry is placed in, by its size group (R362). -/
def TEntry.set (t : TEntry) : Nat := t.vpn / 2 ^ (if t.sz < 3 then 4 else if t.sz < 6 then 10 else 18) % 512

/-- Put an entry in front of a tile cache of 512 sets of eight; where its set is full, its oldest entry makes room. -/
def putTile (t : TEntry) (l : List TEntry) : List TEntry :=
  let rest := l.filter (fun u => !(u.covers (t.vpn * 4096) || t.covers (u.vpn * 4096)))
  let mates := rest.filter (fun u => decide (u.set = t.set))
  t :: (if mates.length < 8 then rest else match mates.getLast? with
    | some o => rest.filter (fun u => decide (u ≠ o))
    | none => rest)

/-- Install a translation in the core's and the tile's cache (R362). -/
def State.install (s : State) (k : CoreId) (t : TEntry) : State :=
  (s.modCore k (fun c => { c with tlb := putEntry 48 t c.tlb })).modVt k.vt
    (fun v => { v with tlb := putTile t v.tlb })

/-- Set A, and D for a write, in a run's first entry (R361): an atomic at home, which fires the monitors that watch the
entry whatever the value was (R279). -/
def State.setAD (s : State) (first : Nat) (write : Bool) : State :=
  let e := s.homeBytes first 8
  (s.homeWrite first 8 (e ||| 0x200 ||| (if write then 0x400 else 0))).fireHome first 8

/-- Whether an access kind writes (R361: k ≠ 0). -/
def Acc.writes : Acc → Bool
  | .write => true
  | .atomic => true
  | .read => false
  | .fetch => false

/-- The code of an access kind (R90, R358). -/
def Acc.code : Acc → Nat
  | .read => 0 | .write => 1 | .fetch => 2 | .atomic => 3

/-- A whole walk for one access: the state afterwards and the translation, or the fault (R358 to R361). -/
def State.walkFor (s : State) (k : CoreId) (va : Nat) (acc : Acc) (user : Bool) : State × Except (Cause × Nat) TEntry :=
  match s.walk k.vt va with
  | .fault c e => (s, .error (c, e))
  | .leaf e _ first =>
    if !permitted e va acc user then (s, .error (.permission, e))
    else
      let s := s.setAD first acc.writes
      let t := entryOf (s.homeBytes first 8) va acc.writes
      ((s.notePtrs k.vt va).install k t, .ok t)

/-- The pages that the walker works on: the first 32 that have been missed (R363). -/
def VTile.walking (v : VTile) : List Nat :=
  (((v.misses.filter (fun m => !m.failed)).map (fun m => m.va / 4096)).reverse.dedup.reverse).take 32

/-- What a translation by an engine or for a frame that is saved comes to: the physical address, or a miss that the walker
takes up (R363). -/
def State.translateNow (s : State) (k : CoreId) (va : Nat) (acc : Acc) (user : Bool) : Option Nat :=
  (s.lookup k va acc user).map (fun t => t.phys va)

/-- A miss joins those that the tile's walker has, in the order in which they reach it (R363, R365); one that has reached it
keeps its place. -/
def State.miss (s : State) (m : Miss) : State :=
  let same (x : Miss) : Bool := decide (x.by_ = m.by_) && decide (x.ctx = m.ctx)
  if (s.vtile m.ctx.vt).misses.any (fun x => decide (x = m)) then s
  else s.modVt m.ctx.vt (fun v => { v with misses := v.misses.filter (fun x => !same x) ++ [m] })

/-- The walker has no miss of some kind of a core any more. -/
def State.dropMiss (s : State) (k : CoreId) (by_ : MissBy) : State :=
  s.modVt k.vt (fun v => { v with
    misses := v.misses.filter (fun m => !(decide (m.by_ = by_) && decide (m.ctx.coreId = k))) })

/-- The physical address that a walk from a vtile's root gives the wafer manager for a read, which installs nothing. -/
def State.walkRead (s : State) (v : VtId) (va : Nat) (user : Bool) : Option Nat :=
  match s.walk v va with
  | .fault _ _ => none
  | .leaf e _ _ => if permitted e va .read user then some ((entryOf e va false).phys va) else none

end Sys2Proof.Machine
end

