-- ==== Sys2Proof/Machine/Mem.lean ====
section
/-! DEFINITION. The tile address space and its stores (R226 to R240, R249 to R260): spaces and what they
accept, banks, posted stores, the data cache, release and acquire. -/

namespace Sys2Proof.Machine

/-! ### Spaces -/

/-- The spaces of R226; the alias window has been resolved (R229). -/
inductive Space where
  | quad (q : Nat)
  | istore (c : Nat)
  | device
  | heap
  | gallery
  | unmapped
  deriving DecidableEq, Repr

/-- The absolute address an address names for an access of logical core lc (R229). -/
def resolve (lc a : Nat) : Nat :=
  if 0x00F00000 ≤ a ∧ a ≤ 0x00FFFFFF then lc / 4 * 0x00100000 + (a - 0x00F00000) else a

/-- R226, for a resolved address. -/
def spaceOf (a : Nat) : Space :=
  if a ≤ 0x00BFFFFF then .quad (a / 0x00100000)
  else if 0x01000000 ≤ a ∧ a ≤ 0x012FFFFF then .istore ((a - 0x01000000) / 0x00010000)
  else if 0x02000000 ≤ a ∧ a ≤ 0x0200FFFF then .device
  else if 0x000100000000 ≤ a ∧ a ≤ 0x7FFFFFFFFFFF then .heap
  else if 0x800000000000 ≤ a ∧ a ≤ 0xFFFFFFFFFFFF then .gallery
  else .unmapped

/-- Two addresses lie in one space: one row of the table of R226. -/
def sameSpace (a b : Nat) : Bool :=
  match spaceOf a, spaceOf b with
  | .quad _, .quad _ => true
  | .istore _, .istore _ => true
  | .device, .device => true
  | .heap, .heap => true
  | .gallery, .gallery => true
  | .unmapped, .unmapped => true
  | _, _ => false

/-- The alias window is 1 MiB long at 0x00F0_0000, like a quad memory. -/
def inAlias (a : Nat) : Bool := decide (0x00F00000 ≤ a) && decide (a ≤ 0x00FFFFFF)

/-- The home of an SRAM address (R249). -/
def homeOf (a : Nat) : Home :=
  match spaceOf a with
  | .istore c => .istore c
  | .quad q => .quad q
  | _ => .quad 0

/-- What kind of instruction makes an access; each accepts its own spaces. -/
inductive Via where
  | scalar (n : Nat)
  | pair | vector | atomic | mon | sbr | sbw | cload
  deriving DecidableEq, Repr

/-- The cause that a space raises for an access it does not accept (R226, R227, R232, R278, R281,
R283, R394, R395); the device window answers by privilege first. -/
def refuse (via : Via) (write user : Bool) (sp : Space) : Option Cause :=
  match sp with
  | .unmapped => some .addressForm
  | .device =>
    if user then some .permission
    else match via with
      | .scalar n => if n = 8 then none else some .addressForm
      | _ => some .addressForm
  | .quad _ =>
    match via with
    | .sbr => some .addressForm
    | .sbw => some .addressForm
    | _ => none
  | .istore _ =>
    match via with
    | .scalar _ => none
    | .pair => none
    | .vector => none
    | _ => some .addressForm
  | .heap => none
  | .gallery =>
    match via with
    | .atomic => some .permission
    | .sbw => some .permission
    | .mon => some .addressForm
    | _ => if write then some .permission else none

/-! ### What stops an access -/

/-- A cause with its ctval and the detail words of R90. -/
structure Raise where
  cause : Cause
  tval : Word
  w4 : Word := 0
  w5 : Word := 0
  deriving DecidableEq, Repr

/-- Why an instruction does not complete now: a cause, or something it waits for. -/
inductive Stop where
  | raise (r : Raise)
  | need (n : Need)
  | walk (ea : Word) (acc : Acc) (tval : Word)
  | zero (g : Nat)
  deriving DecidableEq, Repr

/-- Whether a stop is something to wait for. -/
def Stop.waits : Stop → Bool
  | .raise _ => false
  | .need _ => true
  | .walk _ _ _ => true
  | .zero _ => true

/-- A fault carries another address. -/
def Stop.atLane (ea : Word) : Stop → Stop
  | .raise r => .raise { r with tval := ea }
  | .walk a k _ => .walk a k ea
  | .need n => .need n
  | .zero g => .zero g

/-- A stop with a plain cause. -/
def Stop.cause (c : Cause) (tval : Word) : Stop := .raise ⟨c, tval, 0, 0⟩

/-! ### Addresses -/

/-- Bits [47:0] of a pointer. -/
def adr (p : Word) : Nat := fld p.toNat 0 48

/-- base + o as `lea` forms it (R118). -/
def leaAdd (base : Word) (o : Int) : Word :=
  BitVec.ofNat 64 (base.toNat / 2 ^ 48 * 2 ^ 48) + BitVec.ofNat 64 (((adr base : Int) + o) % 2 ^ 48).toNat

/-- Bits [54:48] of a pointer are zero (R45). -/
def tagOk (p : Word) : Bool := decide (fld p.toNat 48 7 = 0)

/-- The key of a vtile's SRAM byte in the memory map of State. -/
def sramKey (v : VtId) (a : Nat) : Nat :=
  ((((v.part * 64 + v.col) * 512 + v.y) * 512 + v.x) + 1) * 2 ^ 48 + a

/-- Whether the quad that holds an SRAM address is awake (R441): a vtile that stands on no tile reaches
no bank. -/
def State.quadAwake (s : State) (v : VtId) (a : Nat) : Bool :=
  let x := s.vtile v
  let q := match homeOf a with
    | .quad q => q
    | .istore c => x.lpct.getD c c / 4
  decide ((s.quad ⟨x.ptile, q⟩).power = .awake)

/-- The quad number that `Need.quad` names. -/
def State.quadNo (s : State) (v : VtId) (a : Nat) : Nat :=
  match homeOf a with
  | .quad q => q
  | .istore c => (s.vtile v).lpct.getD c c / 4

/-- The port of the quad that holds an SRAM address. -/
def State.portOf (s : State) (v : VtId) (a : Nat) : QuadId := ⟨(s.vtile v).ptile, s.quadNo v a⟩

/-- What the port of a quad holds for its banks now: a store into an instruction store that is being moved waits aside
(R235). -/
def State.heldNow (s : State) (q : QuadId) : List Arrival :=
  (s.quad q).held.filter (fun a => match a with
    | .store c (.istore k) => !(s.core ⟨c.vt, k⟩).moving
    | _ => true)

/-- Whether a port takes an access now (R441): its quad is awake, and what it has held from before is performed. -/
def State.portFree (s : State) (q : QuadId) (w : Arrival) : Bool :=
  decide ((s.quad q).power = .awake) && (match s.heldNow q with
    | [] => true
    | b :: _ => decide (w.agent = b.agent))

/-- Whether an access to an SRAM address reaches its bank now. -/
def State.portOpen (s : State) (v : VtId) (a : Nat) (w : Arrival) : Bool := s.portFree (s.portOf v a) w

/-- Whether the store of an SRAM address is being copied by a thermal migration (R235): the core that an access waits for. -/
def State.movingAt (s : State) (v : VtId) (a : Nat) : Option Nat :=
  match homeOf a with
  | .istore k => if (s.core ⟨v, k⟩).moving then some k else none
  | .quad _ => none

/-- What an access to an SRAM address of a context waits for before it reaches its bank (R235, R441). -/
def State.bankWait (s : State) (c : CtxId) (a : Nat) : Option Need :=
  match s.movingAt c.vt a with
  | some k => some (.move k)
  | none => if s.portOpen c.vt a (.ctx c) then none else some (.quad (s.quadNo c.vt a))

/-- The checks of one access (R270): address form, alignment, space, translation. Each cause has the address with its bits
[63:48] (the model's reading, log entry 80). -/
def State.place (s : State) (c : CtxId) (via : Via) (ea : Word) (n : Nat) (acc : Acc) : Except Stop Loc :=
  let x := s.ctx c
  let a := resolve c.core (adr ea)
  let user := !x.priv
  if !tagOk ea then .error (.cause .addressForm ea)
  else if adr ea % n ≠ 0 then .error (.cause .misaligned ea)
  else
    let sp := spaceOf a
    match refuse via acc.writes user sp with
    | some .permission => .error (.raise ⟨.permission, ea, BitVec.ofNat 64 acc.code, 0⟩)
    | some k => .error (.cause k ea)
    | none =>
      match sp with
      | .device => .ok (.device (a - 0x02000000))
      | .quad _ => .ok (.sram a)
      | .istore _ => .ok (.sram a)
      | .unmapped => .error (.cause .addressForm ea)
      | .heap =>
        match s.lookup c.coreId a acc user with
        | some t => .ok (.home (t.phys a) a false)
        | none => .error (.walk ea acc ea)
      | .gallery =>
        match s.lookup c.coreId a acc user with
        | some t => .ok (.home (t.phys a) a true)
        | none => .error (.walk ea acc ea)

/-! ### Banks -/

/-- The number by which an error or a test names the SRAM array of an instruction store (R103): quad memory q is array q. -/
def istoreArray (p : Nat) : Nat := 12 + p
/-- The number of the array of a comb store. -/
def combArray (p : Nat) : Nat := 60 + p

/-- The word number of an SRAM byte. -/
def sramWord (v : VtId) (a : Nat) : Nat := sramKey v a / 8

/-- Bytes of a vtile's SRAM. -/
def State.sramBytes (s : State) (v : VtId) (a n : Nat) : Nat := rdBytes s.mem (sramKey v a) n

/-- Whether the word of an SRAM byte is poisoned. -/
def State.sramPois (s : State) (v : VtId) (a : Nat) : Bool := NSet.mem s.pois (sramWord v a)

/-- The monitors that watch an SRAM word fire (R279, R280). -/
def State.fireSram (s : State) (v : VtId) (a : Nat) : State :=
  { s with ctxs := s.ctxs.map (fun e =>
      if e.1.vt = v ∧ e.2.mon.armed ∧ e.2.mon.phys = none ∧ e.2.mon.maddr / 8 = a / 8 ∧ s.stands v
      then (e.1, { e.2 with mon := { e.2.mon with fired := true } }) else e) }

/-- A store at its bank (R230): a whole word clears the poison, a partial one keeps it. -/
def State.sramWrite (s : State) (v : VtId) (a n val : Nat) : State :=
  let s := { s with
    mem := wrBytes s.mem (sramKey v a) val n
    pois := if n = 8 then NSet.erase s.pois (sramWord v a) else s.pois }
  s.fireSram v a

/-- An engine's write of a whole word, which carries poison (R240). -/
def State.sramWord64 (s : State) (v : VtId) (a val : Nat) (poison : Bool) : State :=
  let s := { s with
    mem := wrBytes s.mem (sramKey v a) val 8
    pois := NSet.put s.pois (sramWord v a) poison }
  s.fireSram v a

/-! ### The data cache (R236) -/

/-- The line of a physical line number, where it is cached. -/
def Core.find (k : Core) (l : Nat) : Option Line := k.cache.find? (fun x => decide (x.tag = l))

/-- Whether word w of a line is valid in the cache. -/
def Core.hasWord (k : Core) (l w : Nat) : Bool :=
  match k.find l with
  | some x => x.valid.getLsbD w
  | none => false

/-- Start writing a line's dirty words through (R251). -/
def Core.startThrough (k : Core) (l : Nat) : Core :=
  match k.find l with
  | none => k
  | some x =>
    if x.dirty = 0 then k
    else { k with
      cache := k.cache.map (fun y => if y.tag = l then { y with dirty := 0 } else y)
      through := k.through ++ [⟨l, x.dirty, x.data⟩] }

/-- The lines with a dirty word. -/
def Core.dirtyLines (k : Core) : List Nat := (k.cache.filter (fun x => decide (x.dirty ≠ 0))).map (·.tag)

/-- Room in H for so many more write-throughs (R413). -/
def Core.roomFor (k : Core) (n : Nat) : Bool := decide (k.h + n ≤ 1023)

/-- Write every dirty word through (R259, R260). -/
def Core.throughAll (k : Core) : Core := k.dirtyLines.foldl Core.startThrough k

/-- The line that makes room for a new one in its set of eight: the one cached longest. The manual leaves
the order open (R236); programs do not see it. -/
def Core.victim (k : Core) (l : Nat) : Option Nat :=
  let set := k.cache.filter (fun x => decide (x.tag % 64 = l % 64))
  if set.length < 8 then none else set.head?.map (·.tag)

/-- Evict a line: its dirty words are written through (R236). -/
def Core.evict (k : Core) (l : Nat) : Core :=
  let k := k.startThrough l
  { k with cache := k.cache.filter (fun x => decide (x.tag ≠ l)) }

/-- A cache with room for line l. -/
def Core.makeRoom (k : Core) (l : Nat) : Core :=
  match k.victim l with
  | some o => k.evict o
  | none => k

/-- The cache's line l, or a new one with no valid word. -/
def Core.lineOr (k : Core) (l : Nat) : Line := (k.find l).getD ⟨l, 0, 0, false, 0, 0⟩

/-- Put a line: in place, or at the end as the newest. -/
def Core.putLine (k : Core) (x : Line) : Core :=
  if k.cache.any (fun y => decide (y.tag = x.tag)) then
    { k with cache := k.cache.map (fun y => if y.tag = x.tag then x else y) }
  else let k := k.makeRoom x.tag
    { k with cache := k.cache ++ [x] }

/-- A vector with n bytes at byte offset o replaced. -/
def vecPut (v : Vec) (o n val : Nat) : Vec :=
  BitVec.ofNat 512 (v.toNat - fld v.toNat (8 * o) (8 * n) * 2 ^ (8 * o) + val % 2 ^ (8 * n) * 2 ^ (8 * o))

/-- Set bit w of a mask. -/
def orBit (m : BitVec 8) (w : Nat) : BitVec 8 := m ||| (1#8 <<< w)
/-- Clear bit w of a mask. -/
def clrBit (m : BitVec 8) (w : Nat) : BitVec 8 := m &&& ~~~(1#8 <<< w)

/-- Install what a fill read (R236, R237): words already valid keep their value; a poisoned line marks
every word it brings. -/
def Core.fillLine (k : Core) (f : Fill) (gal : Bool) : Core :=
  let x := k.lineOr f.line
  let data := (List.range 8).foldl (fun d w =>
    if x.valid.getLsbD w then d else vecPut d (8 * w) 8 (fld f.data.toNat (64 * w) 64)) x.data
  let pois := (List.range 8).foldl (fun m w =>
    if x.valid.getLsbD w then m else if f.pois.getLsbD w then orBit m w else clrBit m w) x.pois
  k.putLine { x with valid := 0xFF, data := data, pois := pois, gal := gal && (decide (x.valid = 0) || x.gal) }

/-- What a fill brings to the instructions that wait for it: words that are valid in the cache are the core's own (R236,
R254). -/
def Core.merged (k : Core) (f : Fill) : Fill :=
  match k.find f.line with
  | none => f
  | some x => (List.range 8).foldl (fun (f : Fill) w =>
      if x.valid.getLsbD w then { f with
        data := vecPut f.data (8 * w) 8 (fld x.data.toNat (64 * w) 64), bad := clrBit f.bad w
        pois := if x.pois.getLsbD w then orBit f.pois w else clrBit f.pois w }
      else f) f

/-- Write n bytes of a word into the cache: the word becomes valid and dirty and loses its poison
(R236, R237). -/
def Core.storeLine (k : Core) (l o n val : Nat) : Core :=
  let x := k.lineOr l
  let w := o / 8
  k.putLine { x with
    valid := orBit x.valid w, dirty := orBit x.dirty w, pois := clrBit x.pois w, gal := false,
    data := vecPut x.data o n val }

/-- Whether a cache can take the fill of a line: no write-through of it is under way, and H has room for a line that must
make way (R254, R413). -/
def Core.takesFill (k : Core) (line : Nat) : Bool :=
  !k.through.any (fun t => decide (t.line = line)) &&
  (match k.find line, k.victim line with
  | none, some o => k.roomFor 1 || !k.dirtyLines.any (fun d => decide (d = o))
  | _, _ => true)

/-! ### Banks (R427, R438, R439) -/

/-- The bank of an address: one for each channel of a stack (the model's layout, log entry 88). -/
def bankOf (pa : Nat) : Nat := pa / 2 ^ 36 * 16 + pa / 256 % 16

/-- A bank. -/
def State.bank (s : State) (b : Nat) : Bank := NMap.get {} s.banks b

/-- The activation window in force at a bank, in ns (R427, R438). -/
def Bank.window (x : Bank) : Nat := min 65535 (Config.nominalWindow * x.win / 8)

/-- Whether a bank may activate a row now: fewer than four activations in its window (R438). -/
def State.bankReady (s : State) (pa : Nat) : Bool :=
  let x := s.bank (bankOf pa)
  decide (x.acts.length < 4) || decide (x.acts.headD 0 + x.window ≤ s.ns)

/-- Whether an access has come to DRAM and its bank alone keeps it (R245, R439). -/
def State.atBank (s : State) (b line : Nat) (a : Arrival) : Bool :=
  decide (bankOf (line * 64) = b) && s.homeFree (line * 64) && s.homeTurn (line * 64) a && !s.cleared (line / 1024)

/-- Whether a partition has a request at a bank (R439): a write-through, a fill, an atomic or an access to side bits, or a row
that a step of an engine, a walk, a host write or a completion still needs. -/
def State.asks (s : State) (b p : Nat) : Bool :=
  s.cores.any (fun e => decide (e.1.vt.part = p) && e.2.through.any (fun t => s.atBank b t.line (.through e.1 t.line))) ||
  s.ctxs.any (fun e => decide (e.1.vt.part = p) && (match e.2.prog.need with
    | .fill l _ => s.atBank b l (.fill e.1.coreId l) && (s.core e.1.coreId).takesFill l
    | .word l _ => s.atBank b l (.fill e.1.coreId l) && (s.core e.1.coreId).takesFill l
    | .home l => s.atBank b l (.ctx e.1)
    | _ => false)) ||
  s.homeQ.any (fun e => e.2.any (fun a => decide (a.part = p) && (match a.line with
    | some l => s.atBank b l a && !decide (a ∈ s.rows)
    | none => false)))

/-- Whether it is a partition's turn at a bank: no other that asks stands before it, counted from the sub-queue pointer
(R439). -/
def State.bankTurn (s : State) (pa p : Nat) : Bool :=
  let b := bankOf pa
  let d (q : Nat) : Nat := (q + 16 - (s.bank b).ptr) % 16
  (List.range 16).all (fun q => decide (q = p) || decide (d p ≤ d q) || !s.asks b q)

/-- An access of a partition activates a row of its bank: the pointer moves past the partition, and the slot counts against
it where another partition waits (R438, R439). -/
def State.activate (s : State) (pa p : Nat) : State :=
  let b := bankOf pa
  let s := if (List.range 16).any (fun q => decide (q ≠ p) && s.asks b q) then s.tally p 8 ((s.bank b).window / 4) else s
  let x := s.bank b
  let l := x.acts ++ [s.ns]
  { s with banks := NMap.set {} s.banks b { x with ptr := (p + 1) % 16, acts := l.drop (l.length - 4) } }

/-- Whether the rim controller comes to an access now: no zeroing or restart is under way, and those that arrived earlier
have been served (R245, R456). -/
def State.homeHere (s : State) (pa : Nat) (a : Arrival) : Bool := s.homeFree pa && s.homeTurn pa a

/-- Whether an access of a partition to a line is performed now (R245, R438, R439): a cleared granule is not read in DRAM. -/
def State.homeOpen (s : State) (pa p : Nat) (a : Arrival) : Bool :=
  s.homeHere pa a && (s.cleared (granuleOf pa) || (s.bankReady pa && s.bankTurn pa p))

/-- Whether a bank takes the row of an access of a step now. -/
def State.rowOpen (s : State) (p : Nat) (a : Arrival) : Bool :=
  match a.line with
  | some l => decide (a ∉ s.rows) && !s.cleared (l / 1024) && s.homeOpen (l * 64) p a
  | none => false

/-- The rows that a step needs are activated as far as their banks take them (R438, R439): each once, however long the step
then waits for the others. -/
def State.openRows (s : State) (p : Nat) (rs : List Arrival) : State :=
  rs.foldl (fun (s : State) a =>
    if s.rowOpen p a then { s.activate (a.line.getD 0 * 64) p with rows := s.rows ++ [a] } else s) s

/-- Whether a step has a row for each of its lines: a cleared granule is not read in DRAM. -/
def State.rowsOpen (s : State) (rs : List Arrival) : Bool :=
  rs.all (fun a => decide (a ∈ s.rows) || s.cleared (a.line.getD 0 / 1024))

/-! ### Loads and stores -/

/-- The fill that has arrived for an instruction. -/
def Prog.fill (p : Prog) (l : Nat) : Option Fill := p.fills.find? (fun f => decide (f.line = l))

/-- The fill of a line that has arrived for a context's instruction and that no access of another slot has overtaken. -/
def State.fillOf (s : State) (c : CtxId) (l : Nat) : Option Fill :=
  if (c.slot, l) ∈ (s.core c.coreId).stale then none else (s.ctx c).prog.fill l

/-- The fills that have arrived for the other slots of a context's core, where `p` holds of the line: an access of the
context overtakes them (R254). -/
def State.overtaken (s : State) (c : CtxId) (p : Nat → Bool) : List (Nat × Nat) :=
  (c.coreId.slots.filter (fun d => decide (d ≠ c))).flatMap (fun d =>
    ((s.ctx d).prog.fills.filter (fun f => p f.line)).map (fun f => (d.slot, f.line)))

/-- The newest value of a word among the write-throughs of a core that are under way: what a fill reads once they are
performed (R254). -/
def Core.throughWord (k : Core) (l w : Nat) : Option Nat :=
  (k.through.reverse.find? (fun t => decide (t.line = l) && t.mask.getLsbD w)).map (fun t => fld t.data.toNat (64 * w) 64)

/-- The posted stores of a context that touch a word. -/
def Ctx.postedTo (x : Ctx) (a : Nat) : Bool := x.posted.any (fun p => decide (p.addr / 8 = a / 8))

/-- The value a context loads (R230, R231, R236, R237, R250). The address of the poisoned word or of the uncorrectable line
is the virtual one, that of a word reached through the alias window the absolute one, without bits [63:48] (the model's
reading, log entry 80). -/
def State.load (s : State) (c : CtxId) (loc : Loc) (n : Nat) : Except Stop Nat :=
  let x := s.ctx c
  match loc with
  | .device _ => .ok 0
  | .sram a =>
    if x.postedTo a then .error (.need (.posted (a / 8)))
    else match s.bankWait c a with
    | some n => .error (.need n)
    | none =>
    if s.sramPois c.vt a then .error (.cause .poisonConsumed (BitVec.ofNat 64 (a / 8 * 8)))
    else .ok (s.sramBytes c.vt a n)
  | .home pa va gal =>
    let l := pa / 64
    let o := pa % 64
    let w := o / 8
    let k := s.core c.coreId
    let poisoned : Stop := .cause .poisonConsumed (BitVec.ofNat 64 (va / 8 * 8))
    match k.find l with
    | some ln =>
      if ln.valid.getLsbD w then
        if ln.pois.getLsbD w then .error poisoned else .ok (fld ln.data.toNat (8 * o) (8 * n))
      else match s.fillOf c l with
        | some f =>
          if f.bad.getLsbD w then .error (.cause .memoryUncorrectable (BitVec.ofNat 64 (va / 64 * 64)))
          else if f.pois.getLsbD w then .error poisoned else .ok (fld f.data.toNat (8 * o) (8 * n))
        | none => .error (.need (.fill l gal))
    | none =>
      match s.fillOf c l with
      | some f =>
        if f.bad.getLsbD w then .error (.cause .memoryUncorrectable (BitVec.ofNat 64 (va / 64 * 64)))
        else if f.pois.getLsbD w then .error poisoned else .ok (fld f.data.toNat (8 * o) (8 * n))
      | none => .error (.need (.fill l gal))

/-- Whether a store to an SRAM address is posted: not to the home quad (R249). -/
def postedHome (c : CtxId) (a : Nat) : Bool := decide (homeOf a ≠ .quad c.quad)

/-- The value of a word that a store of a part of it merges into, where the word is not valid in the cache: what the core's
own write-throughs leave, or what has been fetched for the store (R236, R254). -/
def State.mergeBase (s : State) (c : CtxId) (l w : Nat) : Option Nat :=
  ((s.core c.coreId).throughWord l w).orElse (fun _ => (s.fillOf c l).map (fun f => fld f.data.toNat (64 * w) 64))

/-- What must hold before a store of n bytes is made (R236, R413, R441): the home quad awake, the word
valid or fetched where only part of it is written, room in H for a line it evicts. A poisoned or uncorrectable line that the
store merges into is read as it stands (R237, R242). -/
def State.storeReady (s : State) (c : CtxId) (loc : Loc) (n : Nat) : Except Stop Unit :=
  match loc with
  | .device _ => .ok ()
  | .sram a =>
    if postedHome c a then .ok ()
    else match s.bankWait c a with
    | some n => .error (.need n)
    | none => .ok ()
  | .home pa _ _ =>
    let l := pa / 64
    let w := pa % 64 / 8
    let k := s.core c.coreId
    if n < 8 ∧ ¬ k.hasWord l w ∧ s.mergeBase c l w = none then .error (.need (.word l w))
    else
      match k.find l, k.victim l with
      | none, some o =>
        if o ∈ k.dirtyLines ∧ ¬ k.roomFor 1 then .error (.need .roomH) else .ok ()
      | _, _ => .ok ()

/-- A store is posted (R249, R251); at the port of a sleeping quad it is held, and the quad wakes (R441). -/
def State.post (s : State) (c : CtxId) (a : Nat) (bs : List Byte) : State :=
  let h := homeOf a
  let q := s.portOf c.vt a
  let free := s.quadAwake c.vt a && (s.quad q).held.isEmpty
  let s := s.modCtx c (fun x => { x with posted := x.posted ++ [⟨h, a, bs⟩] })
  if free then s else (s.wakeQuad q).modQuad q (fun x => { x with held := x.held ++ [.store c h] })

/-- Make a store (R236, R249): performed at the home quad's bank, posted to any other bank, or written
into the data cache, where only the words it writes or has fetched become valid. `base`: the word that a store of a part of
it merges into, where the word is not valid in the cache and no write-through of the core holds it. -/
def State.storeOver (s : State) (c : CtxId) (loc : Loc) (n val : Nat) (base : Option Nat) : State :=
  match loc with
  | .device _ => s
  | .sram a =>
    if postedHome c a then
      s.post c a ((List.range n).map (fun i => BitVec.ofNat 8 (val / 256 ^ i)))
    else s.sramWrite c.vt a n val
  | .home pa _ _ =>
    let l := pa / 64
    let w := pa % 64 / 8
    s.modCore c.coreId (fun k =>
      let k := if n < 8 ∧ ¬ k.hasWord l w then
        match (k.throughWord l w).orElse (fun _ => base) with
        | some b => k.storeLine l (8 * w) 8 b
        | none => k
        else k
      { k.storeLine l (pa % 64) n val with stale := s.overtaken c (fun m => decide (m = l)) ++ k.stale })

/-- The value of the word of a place as the core has it: valid in its cache, or what a store of a part would merge into. -/
def State.baseOf (s : State) (c : CtxId) (loc : Loc) : Option Nat :=
  match loc with
  | .home pa _ _ =>
    let l := pa / 64
    let w := pa % 64 / 8
    match (s.core c.coreId).find l with
    | some x => if x.valid.getLsbD w then some (fld x.data.toNat (64 * w) 64) else s.mergeBase c l w
    | none => s.mergeBase c l w
  | _ => none

/-- A single store. -/
def State.store (s : State) (c : CtxId) (loc : Loc) (n val : Nat) : State := s.storeOver c loc n val (s.baseOf c loc)

/-! ### Release and acquire (R259, R260) -/

/-- Whether a release has nothing left to wait for. -/
def State.released (s : State) (c : CtxId) (tile : Bool) : Bool :=
  decide ((s.ctx c).q = 0) && (!tile || decide ((s.core c.coreId).h = 0))

/-- A release of a context (R259): its write-throughs start when it begins; it ends when Q, and H unless
the scope is `.core`, are zero. The state has the write-throughs begun. -/
def State.release (s : State) (c : CtxId) (tile : Bool) : State × Except Stop Unit :=
  if (s.ctx c).prog.rel then (s, if s.released c tile then .ok () else .error (.need (.release tile)))
  else
    let k := s.core c.coreId
    if tile && !k.roomFor k.dirtyLines.length then (s, .error (.need .roomH))
    else
      let s := if tile then s.putCore c.coreId k.throughAll else s
      if s.released c tile then (s, .ok ())
      else (s.modCtx c (fun x => { x with prog := { x.prog with rel := true } }), .error (.need (.release tile)))

/-- The lines an acquire removes: all but gallery lines, dirty words written through first (R260). -/
def Core.acquire (k : Core) : Core :=
  let k := k.throughAll
  { k with cache := k.cache.filter (·.gal) }

/-- An acquire of a context at `.quad` or `.tile` (R260). -/
def State.acquire (s : State) (c : CtxId) : State :=
  s.modCore c.coreId (fun k => { k.acquire with stale := s.overtaken c (fun _ => true) ++ k.stale })

/-- Whether an acquire has room in H for the write-throughs it starts (R413). -/
def State.acquireRoom (s : State) (c : CtxId) : Bool :=
  (s.core c.coreId).roomFor (s.core c.coreId).dirtyLines.length

/-! ### A store made within a step: a frame spill, an engine write -/

/-- The physical address that a walk from a vtile's root gives the wafer manager for a write, with no cache of the tile in
use; `none` where it faults. -/
def State.walkWrite (s : State) (v : VtId) (va : Nat) (user : Bool) : Option (State × Nat) :=
  match s.walk v va with
  | .fault _ _ => none
  | .leaf e _ first =>
    if permitted e va .write user then some (s.setAD first true, (entryOf e va true).phys va) else none

/-- A store of eight bytes of a frame (R398): its checks as R270 makes them, translation within the
step. `none` where a check fails. That of a context whose vtile is absent is made where the saved vtile lies: in its saved
memory, or at home (R92). -/
def State.spillStore (s : State) (c : CtxId) (ea : Word) (v : Word) : Option State :=
  let a := resolve c.core (adr ea)
  if !tagOk ea || adr ea % 8 != 0 then none
  else match spaceOf a with
    | .quad _ => some (if s.present c.vt then s.store c (.sram a) 8 v.toNat else s.sramWrite c.vt a 8 v.toNat)
    | .heap =>
      if !s.present c.vt then (s.walkWrite c.vt a (!(s.ctx c).priv)).map (fun (s, pa) => s.homeWriteNow pa 8 v.toNat)
      else match s.translateNow c.coreId a .write (!(s.ctx c).priv) with
      | some pa => some (s.store c (.home pa a false) 8 v.toNat)
      | none => none
    | _ => none

/-- A load of word i of a spilled frame for `tret` (R218), under the address rule of R398: the frame
begins at a multiple of 64 and lies in quad memory or the heap; the tile device window is refused to
privilege U as R232 says. A word of an uncorrectable line is taken as poisoned: R225 gives no other cause for it (log
entry 67). -/
def State.spillLoad (s : State) (c : CtxId) (base : Word) (i : Nat) : Except Stop Nat :=
  let ea := leaAdd base (8 * i)
  let a := resolve c.core (adr ea)
  if !tagOk base then .error (.cause .addressForm ea)
  else if adr base % 64 ≠ 0 then .error (.cause .misaligned base)
  else match spaceOf a with
    | .quad _ => s.load c (.sram a) 8
    | .heap =>
      match s.lookup c.coreId a .read (!(s.ctx c).priv) with
      | some t => (match s.load c (.home (t.phys a) a false) 8 with
        | .error (.raise ⟨.memoryUncorrectable, _, _, _⟩) => .error (.cause .poisonConsumed (BitVec.ofNat 64 a))
        | r => r)
      | none => .error (.walk ea .read ea)
    | .device =>
      if (s.ctx c).priv then .error (.cause .addressForm ea)
      else .error (.raise ⟨.permission, ea, 0, 0⟩)
    | _ => .error (.cause .addressForm ea)

end Sys2Proof.Machine
end

