-- ==== Sys2Proof/Machine/Ops.lean ====
section
/-! DEFINITION. The shared operations of instructions: going on to the next PC, blocking, leaving a
swarm (R342), fetching and checking lines (R57, R60, R62), taking a cause and returning from the
handler (R78 to R90, R218). -/

namespace Sys2Proof.Machine

/-! ### Going on -/

/-- Whether a context is a joined member of a swarm (R335). -/
def Ctx.joined (x : Ctx) : Bool :=
  match x.member with
  | some m => !m.det
  | none => false

/-- The line of a context's instruction store address as fetch reads it (R265). -/
def State.lineAt (s : State) (v : VtId) (a : Nat) : Vec := BitVec.ofNat 512 (s.sramBytes v a 64)

/-- The line that holds a PC: the one held for fetch, or the one in its instruction store. -/
def State.lineOfPc (s : State) (c : CtxId) : Vec :=
  let x := s.ctx c
  match x.line with
  | some (a, l) => if a = lineOf x.pc then l else s.lineAt c.vt (lineOf x.pc)
  | none => s.lineAt c.vt (lineOf x.pc)

/-- The head halfword at a context's PC. -/
def State.headAt (s : State) (c : CtxId) : Word := BitVec.ofNat 64 (halfword (s.lineOfPc c) (slotOf (s.ctx c).pc))

/-- NextPC of a context's instruction (R59). -/
def State.nextPc (s : State) (c : CtxId) : Word := nextPcN (headCount (s.lineOfPc c)) (s.ctx c).pc

/-- A context goes on at a PC. A joined member has issued and waits for the others (R337). -/
def Ctx.goto (x : Ctx) (np : Word) : Ctx :=
  let x := { x with st := .ready, wait := none, lim := none, prog := {} }
  match x.member with
  | some m => if m.det then { x with pc := np } else { x with member := some { m with next := some np } }
  | none => { x with pc := np }

/-- The instruction of a context completes and the context goes on at NextPC. -/
def State.complete (s : State) (c : CtxId) : State :=
  let np := s.nextPc c
  s.modCtx c (fun x => x.goto np)

/-- The context blocks on its instruction (R335): the reason, what it waits for, and its block stamp. -/
def State.block (s : State) (c : CtxId) (why : BlockWhy) (w : Wait) (lim : Option Nat := none) : State :=
  s.modCtx c (fun x => { x with
    st := .blocked, why := why, wait := some w, lim := lim, stamp := x.issuedAt, prog := {}, knot := false,
    probeLeft := fld x.cprobe.toNat 0 32 })

/-- Whether an instruction has been issued and goes on; one that waits for the line it stands in has not been issued. -/
def Ctx.going (x : Ctx) : Bool := decide (x.prog ≠ {}) && !x.prog.entry

/-- An access arrives at the port of a quad that does not take it now: it is held there, and a sleeping quad wakes (R441). -/
def State.reachPort (s : State) (q : QuadId) (a : Arrival) : State :=
  (s.wakeQuad q).modQuad q (fun x => if a ∈ x.held then x else { x with held := x.held ++ [a] })

/-- The instruction has issued and waits; the miss of a walk is handed to the tile's walker (R363). -/
def State.await (s : State) (c : CtxId) (st : Stop) : State :=
  match st with
  | .need n =>
    let s := match n with
      | .quad q => s.reachPort ⟨(s.vtile c.vt).ptile, q⟩ (.ctx c)
      | .home l => s.holdHome (l * 64) (.ctx c)
      | _ => s
    s.modCtx c (fun x => { x with prog := { x.prog with need := n } })
  | .walk ea acc tval =>
    let s := s.modCtx c (fun x => { x with prog := { x.prog with need := .walk (adr ea / 4096) } })
    s.miss { ctx := c, ea := ea, acc := acc, user := !(s.ctx c).priv, tval := tval }
  | .zero g =>
    ((s.startZero g).holdHome (g * 65536) (.ctx c)).modCtx c (fun x => { x with prog := { x.prog with need := .home (g * 1024) } })
  | .raise _ => s

/-! ### Swarms (R342) -/

/-- The members of a swarm of a vtile, by logical core. -/
def State.swarm (s : State) (v : VtId) (e : Nat) : List CtxId :=
  (v.slots.filter (fun c => ((s.ctx c).member.map (·.entry)) = some e))

/-- The leader of a swarm: the member whose index the table holds. -/
def State.leader (s : State) (v : VtId) (e : Nat) : Option CtxId :=
  (s.swarm v e).find? (fun c => ((s.ctx c).member.map (fun m => m.idx + 1)) = some (NMap.get 0 (s.vtile v).swarms e))

/-- A member becomes an ordinary process; one that had issued goes on where its instruction left it. -/
def Ctx.unswarm (x : Ctx) : Ctx :=
  match x.member with
  | some m => { x with member := none, pc := m.next.getD x.pc }
  | none => x

/-- A member becomes an ordinary process; outside a swarm the `rejoin` at which it waits is complete (R343). -/
def State.dismiss (s : State) (c : CtxId) : State :=
  let s := s.modCtx c Ctx.unswarm
  if (s.ctx c).wait = some .rejoin then s.complete c else s

/-- A swarm ends: its entry is free, and each of its members is an ordinary process. -/
def State.endSwarm (s : State) (v : VtId) (e : Nat) : State :=
  ((s.swarm v e).foldl State.dismiss s).modVt v (fun x => { x with swarms := NMap.set 0 x.swarms e 0 })

/-- Dissolve a swarm of fewer than two members; otherwise pass the lead on if the leader has left. -/
def State.settleLead (s : State) (v : VtId) (e : Nat) : State :=
  let ms := s.swarm v e
  if ms.length < 2 then s.endSwarm v e
  else match s.leader v e with
    | some _ => s
    | none =>
      let pick := (ms.find? (fun c => (s.ctx c).joined)).orElse (fun _ => ms.head?)
      match pick with
      | none => s
      | some c =>
        let i := ((s.ctx c).member.map (·.idx)).getD 0
        let s := s.modCtx c (fun x => { x with member := x.member.map (fun m => { m with det := false }) })
        s.modVt v (fun x => { x with swarms := NMap.set 0 x.swarms e (i + 1) })

/-- A member leaves its swarm. -/
def State.leaveSwarm (s : State) (c : CtxId) : State :=
  match (s.ctx c).member with
  | none => s
  | some m => (s.modCtx c Ctx.unswarm).settleLead c.vt m.entry

/-! ### Fetch checks -/

/-- R60: the whole line lies in the instruction-store window. -/
def fetchable (pc : Word) : Bool := decide (0x01000000 ≤ lineOf pc) && decide (lineOf pc ≤ 0x012FFFC0)

/-- The first poisoned word of a line, by address. -/
def State.linePoison (s : State) (v : VtId) (a : Nat) : Option Nat :=
  ((List.range 8).find? (fun i => s.sramPois v (a + 8 * i))).map (fun i => a + 8 * i)

/-- The checks of a line that is entered (R62, first three): the line as read, or the cause with its
ctval, given what address-form and operand-reserved hold there. -/
def State.readLine (s : State) (c : CtxId) (pc form res : Word) : Except Stop Vec :=
  let v := c.vt
  if !fetchable pc then .error (.cause .addressForm form)
  else
    let a := lineOf pc
    match s.bankWait c a with
    | some n => .error (.need n)
    | none =>
      match s.linePoison v a with
      | some w => .error (.cause .poisonConsumed (BitVec.ofNat 64 w))
      | none =>
        let l := s.lineAt v a
        if lineOk l then .ok l else .error (.cause .operandReserved res)

/-- Whether a context reads a line through the fetch port of its quad (R338): a detached swarm member. -/
def Ctx.detached (x : Ctx) : Bool := (x.member.map (·.det)).getD false

/-- The checks of a taken transfer to t (R62): the line it will hold, or the first failure. A transfer
within the line held reads nothing (R265); a detached member reads another line when its quad's fetch port serves it (R338).
A target line that R57 refuses is reported with the target, as R62 has it for all causes but poison (log entry 100). -/
def State.checkTarget (s : State) (c : CtxId) (t : Word) : Except Stop (Nat × Vec) :=
  let held := match (s.ctx c).line with
    | some (a, l) => if a = lineOf t then some l else none
    | none => none
  let r : Except Stop Vec := match held with
    | some l => if fetchable t then .ok l else .error (.cause .addressForm t)
    | none =>
      if fetchable t && (s.ctx c).detached && !(s.ctx c).prog.served then .error (.need (.port t.toNat)) else s.readLine c t t t
  match r with
  | .error e => .error e
  | .ok l =>
    if slotOf t = 0 ∨ fld t.toNat 0 1 = 1 ∨ headCount l < slotOf t then .error (.cause .targetEmpty t)
    else .ok (lineOf t, l)

/-! ### Causes -/

/-- The code of a cause (R78). -/
def Cause.code : Cause → Nat
  | .opcodeUndefined => 0x01 | .operandReserved => 0x02 | .targetEmpty => 0x03 | .extensionAbsent => 0x04
  | .misaligned => 0x05 | .addressForm => 0x06 | .pageAbsent => 0x07 | .permission => 0x08
  | .poisonConsumed => 0x09 | .memoryUncorrectable => 0x0A | .matrixCombination => 0x0B
  | .engineAbsent => 0x0C | .semaphoreOverflow => 0x0D | .channelMisuse => 0x0E | .channelDenied => 0x0F
  | .combBind => 0x10 | .combLimit => 0x11 | .privilege => 0x12 | .watchdog => 0x13
  | .barrierScope => 0x14 | .quota => 0x15 | .trap => 0x16 | .breakpoint => 0x17
  | .tileAbsent => 0x20 | .deadlock => 0x21 | .thermalMigrated => 0x22 | .tileRetired => 0x23
  | .saveTimeout => 0x24

/-- Whether a cause is delivered to the handler (R78). -/
def Cause.toHandler : Cause → Bool
  | .extensionAbsent => false | .pageAbsent => false | .permission => false | .engineAbsent => false
  | .channelDenied => false | .quota => false
  | .tileAbsent => false | .deadlock => false | .thermalMigrated => false | .tileRetired => false
  | .saveTimeout => false
  | .opcodeUndefined => true | .operandReserved => true | .targetEmpty => true | .misaligned => true
  | .addressForm => true | .poisonConsumed => true | .memoryUncorrectable => true
  | .matrixCombination => true | .semaphoreOverflow => true | .channelMisuse => true | .combBind => true
  | .combLimit => true | .privilege => true | .watchdog => true | .barrierScope => true | .trap => true
  | .breakpoint => true

/-- The eight words of a message (R89). -/
def Msg.words (m : Msg) : List Word :=
  let b := fun (x : Bool) (k : Nat) => x.toNat * 2 ^ k
  let w0 := m.seq % 2 ^ 32 * 2 ^ 32 + m.col * 2 ^ 20 + m.part * 2 ^ 16 + b m.cm 10 + b m.df 11 + b m.eng 12 +
    b m.sum 13 + b m.short 14 + b m.lost 15 + m.kind * 2 ^ 8 + m.cause
  let v := match m.ctx with
    | some c => some c.vt
    | none => m.vt
  let w1 := m.gang * 2 ^ 48 + (match v with
    | some v => v.y * 2 ^ 16 + v.x
    | none => 0) + (match m.ctx with
    | some c => 2 ^ 44 + c.slot * 2 ^ 40 + c.core * 2 ^ 32
    | none => 0)
  let (a, p, q) := m.raw.getD (BitVec.ofNat 64 w1, m.pc, m.val)
  [BitVec.ofNat 64 w0, a, p, q, m.w4, m.w5, BitVec.ofNat 64 m.tile, BitVec.ofNat 64 m.time]

/-- The next value of a count that starts at 1 and wraps from 2^32 − 1 to 1 (R88, R93). -/
def nextSeq (n : Nat) : Nat := if n + 1 < 2 ^ 32 then n + 1 else 1

/-- Offer a message to its partition's fault queue (R88). -/
def State.offer (s : State) (m : Msg) : State :=
  s.modPart m.part (fun p => { p with offered := p.offered ++ [{ m with time := s.time }] })

/-- The fields of a message that name a context and where it stands. -/
def State.msgOf (s : State) (c : CtxId) : Msg :=
  let v := s.vtile c.vt
  { part := c.vt.part, col := c.vt.col, gang := v.gang, ctx := some c, tile := v.ptile }

/-- Park a context (R87): its registers stay, the message carries PC and value. In the curator colony the
message goes to the wafer manager with the next HSEQ (R93). -/
def State.park (s : State) (c : CtxId) (m : Msg) : State :=
  let p := s.part c.vt.part
  let s := s.modCtx c (fun x => { x with st := .parked, wait := none, lim := none, prog := {}, parked := {} })
  if p.curcol = c.vt.col then
    let h := nextSeq p.lastHseq
    let s := s.modCtx c (fun x => { x with parked := { hseq := some h } })
    s.modPart c.vt.part (fun p => { p with
      lastHseq := h, hostMsgs := p.hostMsgs ++ [{ m with seq := h, time := s.time }] })
  else s.offer m

/-- The 48 words of a comb frame (R398). -/
def Frame.words (f : Frame) : List Word :=
  [BitVec.ofNat 64 (2 ^ 63 + f.k * 2 ^ 48 + f.cnt * 2 ^ 32 + f.upc)] ++
  (List.range 8).map (fun i => NMap.get 0 f.h i) ++
  (List.range 32).map (fun i => BitVec.ofNat 64 (fld (NMap.get 0 f.q (i / 8)).toNat (64 * (i % 8)) 64)) ++
  List.replicate 7 0

/-- The frame that 48 words hold, where they are a well-formed frame (R218, R398). -/
def frameOf (ws : List Word) : Option Frame :=
  let w0 := (ws.getD 0 0).toNat
  if fld w0 63 1 = 1 ∧ fld w0 53 10 = 0 ∧ fld w0 43 5 = 0 ∧ fld w0 6 26 = 0 ∧ fld w0 32 11 ≤ 1024 ∧
     (ws.drop 41).all (fun w => decide (w = 0)) then
    some { k := fld w0 48 5, cnt := fld w0 32 11, upc := fld w0 0 6
           h := (List.range 8).foldl (fun h i => NMap.set 0 h i (ws.getD (1 + i) 0)) []
           q := (List.range 4).foldl (fun q i => NMap.set 0 q i
             ((List.range 8).foldl (fun v k => vecPut v (8 * k) 8 (ws.getD (9 + 8 * i + k) 0).toNat) 0)) [] }
  else none

/-- Write a frame to `cfsave` (R82, R398); `none` where it cannot be saved. -/
def State.spillFrame (s : State) (c : CtxId) (f : Frame) : Option State :=
  let base := (s.ctx c).cfsave
  let a := resolve c.core (adr base)
  let ok := sameSpace a (a + 383) && (match spaceOf a with
    | .quad _ => true
    | .heap => true
    | _ => false)
  if adr base % 64 ≠ 0 ∨ !ok then none
  else (f.words.zipIdx).foldl (fun (acc : Option State) (w, i) =>
    acc.bind (fun s => s.spillStore c (leaAdd base (8 * i)) w)) (some s)

/-- The frame of a sequence that a context runs, or that `tret` has reloaded and its instruction has not taken up
yet (R85, R399). -/
def Ctx.frame (x : Ctx) : Option Frame := (x.live.map (·.f)).orElse (fun _ => x.resume)

/-- A context without a frame of a sequence. -/
def Ctx.noFrame (x : Ctx) : Ctx := { x with live := none, resume := none }

/-- Save the live frame for the handler (R82): in the shadow if it is empty, else at `cfsave` if CF is 0.
The state has no live frame any more; the second part says whether CF of ccause is set. -/
def State.saveFrame (s : State) (c : CtxId) (f : Frame) : Option (State × Bool) :=
  let x := s.ctx c
  match x.shadow with
  | none => some (s.modCtx c (fun x => { x.noFrame with shadow := some f }), false)
  | some _ =>
    if x.cf then none
    else (s.spillFrame c f).map (fun s => (s.modCtx c (fun x => x.noFrame.setCf true), true))

/-- Enter the handler with a cause code (R84). -/
def Ctx.enter (x : Ctx) (code : Nat) (tval epc : Word) (cm cf : Bool) (line : Nat × Vec) : Ctx :=
  { x.setTh true with
    st := .ready, wait := none, lim := none, prog := {}
    cepc := epc, ctval := tval
    ccause := BitVec.ofNat 64 (code + cm.toNat * 2 ^ 8 + cf.toNat * 2 ^ 9)
    pc := x.ctvec, line := some line, live := none, resume := none }

/-- Why a cause of handler class goes to the curator (R86, reasons 1 to 3). -/
def State.handlerReason (s : State) (c : CtxId) : Nat × (Nat × Vec) :=
  let x := s.ctx c
  if x.th then (1, (0, 0))
  else if x.ctvec = 0 then (2, (0, 0))
  else
    let l := s.lineAt c.vt (lineOf x.ctvec)
    if !fetchable x.ctvec ∨ s.linePoison c.vt (lineOf x.ctvec) ≠ none ∨ !lineOk l ∨ slotOf x.ctvec = 0 ∨
       fld x.ctvec.toNat 0 1 = 1 ∨ headCount l < slotOf x.ctvec then (3, (0, 0))
    else (0, (lineOf x.ctvec, l))

/-- HANDLER ENTRY with a cause code (R82, R84, R86): the live frame is saved and the handler entered, or the context is
parked with DF and the reason. `epc` is what cepc receives and the message carries. -/
def State.takeCode (s : State) (c : CtxId) (code : Nat) (tval epc : Word) : State :=
  let x := s.ctx c
  let m : Msg := { s.msgOf c with cause := code, cm := x.frame.isSome, pc := epc, val := tval }
  let (reason, line) := s.handlerReason c
  let df (n : Nat) : State := s.park c { m with df := true, w4 := BitVec.ofNat 64 n }
  if reason ≠ 0 then df reason
  else match x.frame with
    | none => s.modCtx c (fun x => x.enter code tval epc false false line)
    | some f => match s.saveFrame c f with
        | none => df 4
        | some (s, cf) => s.modCtx c (fun x => x.enter code tval epc true cf line)

/-- Whether a handler entry must wait for room in Q or in H: it spills a live frame by stores (R82, R398, R413). -/
def State.spillWaits (s : State) (c : CtxId) : Bool :=
  let x := s.ctx c
  x.frame.isSome && x.shadow.isSome && !x.cf && decide ((s.handlerReason c).1 = 0) && s.present c.vt &&
  (let a := resolve c.core (adr x.cfsave)
   match spaceOf a with
   | .quad _ => postedHome c a && decide (1023 < x.q + 48)
   | .heap => !(s.core c.coreId).roomFor 7
   | _ => false)

/-- The address of the first word of a frame which a handler entry stores to the heap and for which the vtile has no
translation; none where the walker has already found that the frame cannot be stored (R363, R398). -/
def State.spillMiss (s : State) (c : CtxId) : Option Word :=
  let x := s.ctx c
  let failed : Bool := (s.vtile c.vt).misses.any (fun m => decide (m.by_ = .spill) && decide (m.ctx = c) && m.failed)
  if x.frame.isNone ∨ x.shadow.isNone ∨ x.cf ∨ (s.handlerReason c).1 ≠ 0 ∨ !s.present c.vt ∨ failed ∨
     adr x.cfsave % 64 ≠ 0 then none
  else ((List.range 48).map (fun (i : Nat) => leaAdd x.cfsave (8 * i))).find? (fun ea =>
    let a := resolve c.core (adr ea)
    tagOk ea && decide (spaceOf a = .heap) && (s.translateNow c.coreId a .write (!x.priv)).isNone)

/-- The walker takes up the miss of a frame that a context saves. -/
def State.missSpill (s : State) (c : CtxId) (ea : Word) : State :=
  s.miss { by_ := .spill, ctx := c, ea := ea, acc := .write, user := !(s.ctx c).priv, tval := ea }

/-- The walker has nothing of a context any more. -/
def State.dropMisses (s : State) (c : CtxId) : State :=
  s.modVt c.vt (fun v => { v with misses := v.misses.filter (fun m => !m.ofCtx c) })

/-- A cause of handler class stays pending while its entry waits: for room for the stores of a frame (R413), or for the walk
of the page that they go to (R363). -/
def State.holdCause (s : State) (c : CtxId) (r : Raise) (n : Need) : State :=
  s.modCtx c (fun x => { x with
    st := .ready, wait := none, lim := none, prog := { need := n }, pend := (r.cause, r.tval) :: x.pend })

/-- TAKING A CAUSE (R79, R82 to R87): a swarm member leaves its swarm; a cause of handler class enters the handler, or
stays pending while the stores of its frame find no room or no translation; a cause of curator class parks the context. -/
def State.take (s : State) (c : CtxId) (r : Raise) (epc : Word) : State :=
  let s := s.leaveSwarm c
  if r.cause.toHandler then
    if s.spillWaits c then s.holdCause c r .none
    else match s.spillMiss c with
      | some ea => (s.missSpill c ea).holdCause c r (.walk (adr ea / 4096))
      | none => (s.dropMisses c).takeCode c r.cause.code r.tval epc
  else
    let s := s.dropMisses c
    let x := s.ctx c
    s.park c { s.msgOf c with
      cause := r.cause.code, cm := x.frame.isSome, pc := epc, val := r.tval, w4 := r.w4, w5 := r.w5 }

/-- A cause raised by the instruction at the context's PC. -/
def State.raise (s : State) (c : CtxId) (r : Raise) : State := s.take c r (s.ctx c).pc

/-- What a stop does to the context whose instruction met it. -/
def State.stopped (s : State) (c : CtxId) (st : Stop) : State :=
  match st with
  | .raise r => s.raise c r
  | .need n => s.await c (.need n)
  | .walk ea acc tval => s.await c (.walk ea acc tval)
  | .zero g => s.await c (.zero g)

/-- A taken transfer: the checks of R62, then `f` on the context, then PC := t. -/
def State.transfer (s : State) (c : CtxId) (t : Word) (f : Ctx → Ctx) : State :=
  match s.checkTarget c t with
  | .error e => s.stopped c e
  | .ok l => s.modCtx c (fun x => ({ f x with line := some l }).goto t)

/-- The head of an instruction as its cause reports it (R78). -/
def headW (i : Instr) : Word :=
  match encode i with
  | some (h, _) => BitVec.ofNat 64 h
  | none => 0

/-- operand-reserved with ctval holding the head. -/
def reservedAt (i : Instr) : Stop := .cause .operandReserved (headW i)

/-- The state after an instruction that completes. -/
abbrev Step := Host.Outcome State Fault Refusal

/-- The waiting of an instruction's wait field (R66, R252): whether the named counts are zero. -/
def State.waitOk (s : State) (c : CtxId) (w : WaitF) : Bool :=
  (!w.getLsbD 0 || decide ((s.ctx c).q = 0)) && (!w.getLsbD 1 || decide ((s.core c.coreId).h = 0))

/-- An instruction with a wait field does not issue until its counts are zero; nothing changes before. One that has issued
goes on (R252). -/
def State.whenWaited (s : State) (w : WaitF) (f : State) : Step :=
  if (s.ctx s.cur).going ∨ s.waitOk s.cur w then .next f else .next s

/-- Do what a check allows, or stop. -/
def State.orStop {α : Type} (s : State) (r : Except Stop α) (f : α → State) : State :=
  match r with
  | .ok a => f a
  | .error e => s.stopped s.cur e

/-- The context's instruction changes only its own registers and completes. -/
def State.finish (s : State) (f : Ctx → Ctx) : State := (s.modCtx s.cur f).complete s.cur

end Sys2Proof.Machine
end

