-- ==== Sys2Proof/Machine/Operands.lean ====
section
/-! DEFINITION. Operand forms: immediates (R65), integer operands and results (R111, R121), lanes and
masks (R154, R155), floating-point codes in g registers (R132), fat pointers (R44). -/

namespace Sys2Proof

/-- The floating-point format of a class F lane type. -/
def VTy.fmt : VTy → FFmt
  | .bf16 => FloatTy.bf16.fmt
  | .h16 => FloatTy.h16.fmt
  | _ => FloatTy.f32.fmt

/-- A lane type as a convertible format; `n64` has none (R43, R169). -/
def VTy.nfmt (t : VTy) : NFmt := if t.isF then .flt t.fmt else .int t.isSigned t.width

/-- An integer result of a conversion as a register holds it, sign- or zero-extended (R132). -/
def extInt (signed : Bool) (w code : Nat) : Word := toWord (intValue signed w code)

/-- A converted code as a g register holds it (R132). -/
def NFmt.toReg (f : NFmt) (code : Nat) : Word :=
  match f with
  | .int s w => extInt s w code
  | .flt _ => BitVec.ofNat 64 code

/-- The conditions of `cmp` over operands of width w (R121). -/
def ICond.holds (cc : ICond) (w : Nat) (a b : Word) : Bool :=
  let ua := a.toNat % 2 ^ w
  let ub := b.toNat % 2 ^ w
  match cc with
  | .eq => decide (ua = ub)
  | .ne => decide (ua ≠ ub)
  | .lt => decide (sx w ua < sx w ub)
  | .ge => decide (sx w ub ≤ sx w ua)
  | .ltn => decide (ua < ub)
  | .gen => decide (ub ≤ ua)
  | .tst => decide (ua &&& ub ≠ 0)
  | .ntst => decide (ua &&& ub = 0)

end Sys2Proof

namespace Sys2Proof.Machine

/-! ### Integers -/

/-- A 16-bit immediate, sign-extended (R65). -/
def imm16 (i : BitVec 16) : Word := i.signExtend 64
/-- A 32-bit immediate, sign-extended (R65). -/
def imm32 (i : BitVec 32) : Word := i.signExtend 64

/-- The width of an integer operation (R111). -/
def opWidth (w : Bool) : Nat := if w then 32 else 64

/-- An operand of width w, signed or with `.n` unsigned (R111). -/
def opVal (w : Nat) (n : Bool) (a : Word) : Int :=
  if n then ((a.toNat % 2 ^ w : Nat) : Int) else sx w a.toNat

/-- What an unbounded result leaves in a register (R111). -/
def opResult (w n : Bool) (r : Int) : Word :=
  if w && !n then toWord (sx 32 (wrap 32 r)) else BitVec.ofNat 64 (wrap (opWidth w) r)

/-- The operations 0x00 to 0x0F (R111). -/
inductive AluOp where
  | add | sub | mul | mulh | div | rem | and | or | xor | andn | shl | shr | sar | rot | min | max
  deriving DecidableEq, Repr

/-- r of R111 for operands of width w. -/
def AluOp.eval (op : AluOp) (w : Nat) (n : Bool) (a b : Word) : Int :=
  let ua := a.toNat % 2 ^ w
  let ub := b.toNat % 2 ^ w
  let xa := opVal w n a
  let xb := opVal w n b
  let c := ub % w
  match op with
  | .add => (ua : Int) + ub
  | .sub => (ua : Int) - ub
  | .mul => (ua : Int) * ub
  | .mulh => xa * xb / 2 ^ w
  | .div => if xb = 0 then 2 ^ w - 1 else xa.tdiv xb
  | .rem => if xb = 0 then xa else xa - xb * xa.tdiv xb
  | .and => ((ua &&& ub : Nat) : Int)
  | .or => ((ua ||| ub : Nat) : Int)
  | .xor => ((ua ^^^ ub : Nat) : Int)
  | .andn => ((ua &&& (ub ^^^ (2 ^ w - 1)) : Nat) : Int)
  | .shl => (ua : Int) * 2 ^ c
  | .shr => ((ua / 2 ^ c : Nat) : Int)
  | .sar => sx w ua / 2 ^ c
  | .rot => (((ua * 2 ^ w + ua) / 2 ^ c : Nat) : Int)
  | .min => if xa ≤ xb then xa else xb
  | .max => if xa ≤ xb then xb else xa

/-- The result of `add` to `max` (R111). -/
def alu (op : AluOp) (w n : Bool) (a b : Word) : Word := opResult w n (op.eval (opWidth w) n a b)

/-- The number of trailing zero bits among the w low bits of a. -/
def ctzN (a : Nat) : Nat → Nat
  | 0 => 0
  | w + 1 => if a % 2 = 1 then 0 else 1 + ctzN (a / 2) w

/-- The number of one bits among the w low bits of a. -/
def popN (a : Nat) : Nat → Nat
  | 0 => 0
  | w + 1 => a % 2 + popN (a / 2) w

/-- The number of leading zero bits among the w low bits of a. -/
def clzN (a w : Nat) : Nat := if a % 2 ^ w = 0 then w else w - 1 - (a % 2 ^ w).log2

/-! ### Lanes -/

/-- Lane i of w bits (R154). -/
def lane (v : Vec) (w i : Nat) : Nat := fld v.toNat (w * i) w

/-- The register whose lane i is f i, for n lanes of w bits. -/
def lanes (w n : Nat) (f : Nat → Nat) : Vec :=
  BitVec.ofNat 512 ((List.range n).foldr (fun i acc => f i % 2 ^ w * 2 ^ (w * i) + acc) 0)

/-- m of R155: the lane mask, every lane where OM is zero. -/
def Ctx.mask (x : Ctx) (om : GReg) : Word := if om = 0 then BitVec.allOnes 64 else x.rg om.toNat

/-- The enabled lanes of w bits replaced, the others kept (R155). -/
def laneMerge (m : Word) (w : Nat) (old : Vec) (f : Nat → Nat) : Vec :=
  lanes w (512 / w) (fun i => if m.getLsbD i then f i else lane old w i)

/-- A class I lane as an integer (R157). -/
def laneInt (t : VTy) (c : Nat) : Int := intValue t.isSigned t.width c

/-- What a class I lane receives of an unbounded result (R157). -/
def laneSat (t : VTy) (sat : Bool) (r : Int) : Nat :=
  wrap t.width (if sat then clampInt t.isSigned t.width r else r)

/-! ### Floating-point values in g registers (R132) -/

/-- The low w bits of a register. -/
def lowBits (w : Nat) (a : Word) : Nat := a.toNat % 2 ^ w

/-! ### Fat pointers (R44) -/

/-- FMT of a pointer. -/
def ptrFmt (p : Word) : Nat := fld p.toNat 58 6
/-- BL of a pointer. -/
def ptrBl (p : Word) : Nat := fld p.toNat 55 3
/-- B of a pointer (R44). -/
def ptrBlock (p : Word) : Nat := 2 ^ (ptrBl p + 2)

/-- A format code that R43 reserves. -/
def fmtReserved (c : Nat) : Bool :=
  (decide (0x0C ≤ c) && decide (c ≤ 0x0F)) || (decide (0x14 ≤ c) && decide (c ≤ 0x1F)) ||
  (decide (0x20 ≤ c) && decide (c % 8 = 0))

/-- The MX element type of a format code. -/
def mxOf (c : Nat) : Option MxTy :=
  if c = 0x10 then some .e2m1 else if c = 0x11 then some .e3m2 else if c = 0x12 then some .e2m3
  else if c = 0x13 then some .i4 else none

end Sys2Proof.Machine
end

