-- ==== Sys2Proof/Machine/Approx.lean ====
section
/-! DEFINITION. The functions of `vfn` (R177). For bf16 and h16 the exact value is needed to more bits than
any rounding looks at: it is computed in fixed point with `prec` fraction bits by series with a bounded rest.
For f32 the codes within the stated bound are listed and the device's choice among them stays open. -/

namespace Sys2Proof.Machine

/-- Fraction bits of the fixed-point computations. -/
def prec : Nat := 320

/-- One in fixed point. -/
def fxOne : Nat := 2 ^ prec

/-- The series of atanh z: the terms from z^k / k on, for a power z^k already formed; k odd. -/
def atanhTail (z2 : Nat) : Nat → Nat → Nat → Nat
  | 0, _, _ => 0
  | n + 1, pw, k => pw / k + atanhTail z2 n (pw * z2 / fxOne) (k + 2)

/-- atanh z for z at most 1/3. -/
def fxAtanh (z : Nat) : Nat := atanhTail (z * z / fxOne) 110 z 1

/-- The alternating series of arctan 1/q: the terms from the power pw / k on, as the sum of those to add and
those to subtract. -/
def atanTail (q : Nat) : Nat → Nat → Nat → Bool → Int
  | 0, _, _, _ => 0
  | n + 1, pw, k, neg => (if neg then -((pw / k : Nat) : Int) else ((pw / k : Nat) : Int)) +
      atanTail q n (pw / (q * q)) (k + 2) (!neg)

/-- ln 2 = 2 atanh 1/3. -/
def fxLn2 : Nat := 2 * fxAtanh (fxOne / 3)

/-- π = 16 arctan 1/5 − 4 arctan 1/239. -/
def fxPi : Nat := (16 * atanTail 5 80 (fxOne / 5) 1 false - 4 * atanTail 239 30 (fxOne / 239) 1 false).toNat

/-- The terms of e^y from y^k / k! on. -/
def expTail (y : Nat) : Nat → Nat → Nat → Nat
  | 0, _, _ => 0
  | n + 1, t, k => t + expTail y n (t * y / fxOne / k) (k + 1)

/-- 2^f for a fraction f in fixed point below 1. -/
def fxExp2 (f : Nat) : Nat := expTail (f * fxLn2 / fxOne) 80 fxOne 1

/-- The terms of sin y from y^k / k! on. -/
def sinTail (y2 : Nat) : Nat → Nat → Nat → Bool → Int
  | 0, _, _, _ => 0
  | n + 1, t, k, neg => (if neg then -(t : Int) else (t : Int)) +
      sinTail y2 n (t * y2 / fxOne / ((k + 1) * (k + 2))) (k + 2) (!neg)

/-- sin (π u / 2^prec) for u at most half. -/
def fxSinPi (u : Nat) : Nat := let y := u * fxPi / fxOne; (sinTail (y * y / fxOne) 45 y 1 false).toNat

/-- m × 2^e in fixed point, cut. -/
def fxOf (m : Nat) (e : Int) : Nat := (cut m e (-(prec : Int))).1

/-- A value just below or just above m × 2^e, closer than any rounding can tell. -/
def hair (neg : Bool) (m : Nat) (e : Int) (above : Bool) : Ex :=
  if above then ⟨neg, m * 2 ^ 200, e - 200, true⟩ else ⟨neg, m * 2 ^ 200 - 1, e - 200, true⟩

/-- An irrational value known in fixed point. -/
def fxVal (neg : Bool) (v : Nat) : Ex := ⟨neg, v, -(prec : Int), true⟩

/-- e^(±m 2^e) for an argument of magnitude below 512, as a fixed-point significand and a binary exponent. -/
def fxExp (neg : Bool) (m : Nat) (e : Int) : Nat × Int :=
  let q := fxOf m e * fxOne / fxLn2
  let n := q / fxOne
  let f := q % fxOne
  if neg then (if f = 0 then (fxOne, -(n : Int)) else (fxExp2 (fxOne - f), -(n : Int) - 1)) else (fxExp2 f, n)

/-- sin (π x) for a nonzero finite x that is no integer multiple of 1/2. -/
def sinPiEx (neg : Bool) (m : Nat) (e : Int) : Ex :=
  if lead m + e < -40 then
    let p := m * fxPi
    ⟨neg, p - 1, e - prec, true⟩
  else
    let u := fxOf m e % (2 * fxOne)
    let (s, u) := if fxOne ≤ u then (!neg, u - fxOne) else (neg, u)
    fxVal s (fxSinPi (if 2 * u ≤ fxOne then u else fxOne - u))

end Sys2Proof.Machine

namespace Sys2Proof

open Sys2Proof.Machine

/-- The exact value of a function at a finite nonzero argument, where R177 gives no special result. The zero of `.cospi` at
half-integers is +0 (the model's choice, log entry 79). -/
def VFun.exact (fn : VFun) (neg : Bool) (m : Nat) (e : Int) : Arith :=
  let L := lead m + e
  match fn with
  | .rcp => divA (.fin false 1 0) (.fin neg m e)
  | .rsqrt =>
    if neg then .nan false
    else
      let k := 2 * m.log2 + 400 + (e % 2).toNat
      let r := isqrt (2 ^ k / m) ((2 ^ k / m).log2 / 2 + 2) 0
      .val ⟨false, r, -((k + e) / 2), decide (r * r * m ≠ 2 ^ k)⟩
  | .exp2 =>
    if 11 ≤ L then .val ⟨false, 1, if neg then -4096 else 4096, false⟩
    else if L < -100 then .val (hair false 1 0 (!neg))
    else
      let q := fxOf m e
      let n : Int := (q / fxOne : Nat)
      let f := q % fxOne
      if f = 0 then .val ⟨false, 1, if neg then -n else n, false⟩
      else if neg then .val ⟨false, fxExp2 (fxOne - f), -n - 1 - prec, true⟩
      else .val ⟨false, fxExp2 f, n - prec, true⟩
  | .log2 =>
    if neg then .nan false
    else
      let g := fxOf m (-(lead m)) - fxOne
      if g = 0 then (if L = 0 then .zero false else .val ⟨decide (L < 0), L.natAbs, 0, false⟩)
      else
        let z := g * fxOne / (2 * fxOne + g)
        let v : Int := L * fxOne + (2 * fxAtanh z * fxOne / fxLn2 : Nat)
        .val (fxVal (decide (v < 0)) v.natAbs)
  | .sinpi =>
    if 0 ≤ e ∨ m % 2 ^ (-e).toNat = 0 then .zero neg
    else if 2 * m % 2 ^ (-e).toNat = 0 then
      .val ⟨neg != decide (2 * m / 2 ^ (-e).toNat % 4 = 3), 1, 0, false⟩
    else .val (sinPiEx neg m e)
  | .cospi =>
    if 0 ≤ e then .val ⟨decide (0 = e ∧ m % 2 = 1), 1, 0, false⟩
    else if m % 2 ^ (-e).toNat = 0 then .val ⟨decide (m / 2 ^ (-e).toNat % 2 = 1), 1, 0, false⟩
    else if 2 * m % 2 ^ (-e).toNat = 0 then .zero false
    else if L < -100 then .val (hair false 1 0 false)
    else .val (sinPiEx false (2 * m + 2 ^ (-e).toNat) (e - 1))
  | .tanh =>
    if L < -60 then .val (hair neg m e false)
    else if 6 ≤ L then .val (hair neg 1 0 false)
    else
      let (s, n) := fxExp false (2 * m) e
      let s := s * 2 ^ n.toNat
      .val (fxVal neg ((s - fxOne) * fxOne / (s + fxOne)))
  | .sigm =>
    if L < -100 then .val (hair false 1 (-1) (!neg))
    else if 9 ≤ L then .val (if neg then ⟨false, 1, -4096, true⟩ else hair false 1 0 false)
    else
      let (s, n) := fxExp neg m e
      if neg then
        let k := (-n).toNat
        .val ⟨false, s * fxOne * 2 ^ k / (fxOne * 2 ^ k + s), -(prec : Int) - k, true⟩
      else .val (fxVal false (fxOne * (s * 2 ^ n.toNat) / (fxOne + s * 2 ^ n.toNat)))

/-- The special results of R177, for NaN, zeros and infinities. -/
def VFun.special (fn : VFun) (v : Fl) : Option Arith :=
  let one : Arith := .val ⟨false, 1, 0, false⟩
  let half : Arith := .val ⟨false, 1, -1, false⟩
  match v with
  | .nan => some (.nan false)
  | .inf neg => some (match fn with
    | .rcp => .zero neg
    | .rsqrt => if neg then .nan false else .zero false
    | .exp2 => if neg then .zero false else .inf false false
    | .log2 => if neg then .nan false else .inf false false
    | .sinpi => .nan false
    | .cospi => .nan false
    | .tanh => .val ⟨neg, 1, 0, false⟩
    | .sigm => if neg then .zero false else one)
  | .fin neg m _ =>
    if m ≠ 0 then none
    else some (match fn with
      | .rcp => .inf neg false
      | .rsqrt => .inf neg false
      | .exp2 => one
      | .log2 => .inf true false
      | .sinpi => .zero neg
      | .cospi => one
      | .tanh => .zero neg
      | .sigm => half)

/-- The bound of R177 around a value x with L = floor(log2 x), in units of 2^q: one unit of 2^−149 where the result is
subnormal, else ulps of an f32 result, or the absolute bound where the table states one. -/
def VFun.bound (fn : VFun) (arg : Fl) (L : Int) : Nat × Int :=
  let q := L - 23
  let wide (n : Int) : Nat × Int := if q < n - 1 then (1, n) else (2, q)
  if L < -126 then (1, -149)
  else match fn with
  | .rcp => (1, q)
  | .rsqrt => (1, q)
  | .exp2 => (2, q)
  | .log2 =>
    match arg with
    | .fin false m e =>
      if -1 ≤ lead m + e ∧ (lead m + e < 1 ∨ lead m + e = 1 ∧ m = 2 ^ m.log2) then wide (-22) else (2, q)
    | _ => (2, q)
  | .sinpi => if L < -2 then wide (-24) else (2, q)
  | .cospi => if L < -2 then wide (-24) else (2, q)
  | .tanh => (2, q)
  | .sigm => if L < -2 then wide (-24) else (2, q)

/-- Whether an f32 code lies within the bound around a value. -/
def withinBound (b : Nat × Int) (x : Ex) (code : BitVec 32) : Bool :=
  match FloatTy.f32.fmt.value code.toNat with
  | .fin neg m e =>
    let u := min (min x.e e) b.2
    let sgn (n : Bool) (k : Nat) : Int := if n then -(k : Int) else k
    let lo := sgn x.neg (x.m * 2 ^ (x.e - u).toNat)
    let hi := sgn x.neg ((if x.more then x.m + 1 else x.m) * 2 ^ (x.e - u).toNat)
    let v := sgn neg (m * 2 ^ (e - u).toNat)
    let w : Int := (b.1 * 2 ^ (b.2 - u).toNat : Nat)
    decide (max lo hi - w ≤ v) && decide (v ≤ min lo hi + w)
  | _ => false

/-- The results that R177 states exactly for finite arguments of f32: an integer x of `.exp2` whose power is
representable, `.log2` of 1, and `.sinpi` and `.cospi` of an integer. -/
def VFun.statedExact (fn : VFun) (m : Nat) (e : Int) (a : Arith) : Bool :=
  let int := decide (0 ≤ e) || decide (m % 2 ^ (-e).toNat = 0)
  match a with
  | .zero _ => decide (fn = .log2) || int
  | .val x => int && (decide (fn = .cospi) || (decide (fn = .exp2) && decide (-149 ≤ x.e)))
  | _ => true

/-- An f32 result (R177): the stated one, or the device's code where it lies within the bound, and the nearest
code otherwise; a value that rounds past the largest finite code overflows. -/
def VFun.f32 (fn : VFun) (code : Nat) (sat : Bool) : Nat :=
  let f := FloatTy.f32.fmt
  let v := f.value code
  match fn.special v with
  | some a => (f.finish a .rne sat 0).1
  | none =>
    match v with
    | .fin neg m e =>
      let a := fn.exact neg m e
      let near := (f.finish a .rne sat 0).1
      let pick := Config.vfnPick fn (BitVec.ofNat 32 code)
      if fn.statedExact m e a then near
      else match a with
        | .val x =>
          if (f.finish a .rne false 0).2.ovf then near
          else if withinBound (fn.bound v (lead x.m + x.e)) x pick then pick.toNat else near
        | .zero _ => if withinBound (1, -24) ⟨false, 0, 0, false⟩ pick then pick.toNat else near
        | _ => near
    | _ => f.nanCode

/-- A lane of `vfn` (R177). -/
def VFun.lane (fn : VFun) (vt : VTy) (code : Nat) (mode : RMode) (sat : Bool) (r : Nat) : Nat :=
  match vt with
  | .f32 => fn.f32 code sat
  | _ =>
    let f := vt.fmt
    match fn.special (f.value code) with
    | some a => (f.finish a mode sat r).1
    | none =>
      match f.value code with
      | .fin neg m e => (f.finish (fn.exact neg m e) mode sat r).1
      | _ => f.nanCode

end Sys2Proof
end

