-- ==== Sys2Proof/Machine/Flags.lean ====
section
/-! DEFINITION. The status flags of `cstat` (R133, R134) as the scalar and wide floating-point
instructions and the micro-ops compute them: results with their conditions, and `csrng`'s draws (R48). -/

namespace Sys2Proof.Machine

/-- A scalar arithmetic result and its conditions (R137). -/
def scalarArith (op : FOp) (f : FFmt) (a b c : Word) (rm : RMode) : Word × FFlags :=
  let (r, fl) := farith op f (lowBits f.bits a) (lowBits f.bits b) (lowBits f.bits c) rm false 0
  (BitVec.ofNat 64 r, fl)

/-- A comparison's outcome and its conditions (R140). -/
def scalarCompare (cc : FCond) (f : FFmt) (a b : Word) : Bool × FFlags :=
  let (r, nv) := fcompare cc (f.value (lowBits f.bits a)) (f.value (lowBits f.bits b))
  (r, { nv := nv })

/-- A scalar conversion between format codes and its conditions (R142, R147). -/
def scalarConvert (src dst : BitVec 6) (a : Word) (rm : RMode) (sat : Bool) : Word × FFlags :=
  match NFmt.ofCode src.toNat, NFmt.ofCode dst.toNat with
  | some f, some g =>
    let (r, fl) := convert f g (lowBits f.bits a) rm sat 0
    (g.toReg r, fl)
  | _, _ => (0, {})

/-- Write a result and record its conditions (R134). -/
def Ctx.putFlags (x : Ctx) (d : Nat) (r : Word × FFlags) : Ctx := (x.wg d r.1).orFlags r.2

end Sys2Proof.Machine
end

