-- ==== Sys2Proof/Machine/Lanes.lean ====
section
/-! DEFINITION. What the lane instructions 0x66 to 0x7D compute (R154 to R177), as functions of register
contents, the lane mask m of R155 and the random numbers of R48. The micro-ops that are named after them
(R393) use the same functions. -/

namespace Sys2Proof.Machine

/-- Every lane enabled. -/
def allLanes : Word := BitVec.allOnes 64

/-- The exact sum of values (R171), before its one rounding. -/
def sumExact (vs : List Fl) : Int × Int :=
  let e := vs.foldl (fun acc v => match v with
    | .fin _ _ e => min acc e
    | _ => acc) 0
  (vs.foldl (fun acc v => match v with
    | .fin n m e' => let k : Int := (m * 2 ^ (e' - e).toNat : Nat)
                     if n then acc - k else acc + k
    | _ => acc) 0, e)

/-- Class F `.add` of R171 before rounding. -/
def sumA (vs : List Fl) (mode : RMode) : Arith :=
  if vs.any (fun v => decide (v = .nan)) then .nan false
  else if vs.any (fun v => decide (v = .inf false)) then
    (if vs.any (fun v => decide (v = .inf true)) then .nan false else .inf false false)
  else if vs.any (fun v => decide (v = .inf true)) then .inf true false
  else
    let (i, e) := sumExact vs
    let zeros := vs.all (fun v => match v with
      | .fin _ m _ => decide (m = 0)
      | _ => false)
    if i = 0 then
      .zero (if zeros then !vs.isEmpty && vs.all Fl.isNeg else decide (mode = .rdn))
    else .val ⟨decide (i < 0), i.natAbs, e, false⟩

/-- The operations of R164. -/
inductive VOp where
  | add | sub | mul | fma | min | max
  deriving DecidableEq, Repr

/-- A class F lane (R164). -/
def VOp.lane (op : VOp) (f : FFmt) (a b c : Nat) (rm : RMode) (sat : Bool) (r : Nat) : Nat :=
  match op with
  | .add => (farith .add f a b c rm sat r).1
  | .sub => (farith .sub f a b c rm sat r).1
  | .mul => (farith .mul f a b c rm sat r).1
  | .fma => (farith .fma f a b c rm sat r).1
  | .min => fminmax false f a b
  | .max => fminmax true f a b

/-- r of a class I lane (R164). -/
def VOp.int (op : VOp) (a b c : Int) : Int :=
  match op with
  | .add => a + b
  | .sub => a - b
  | .mul => a * b
  | .fma => a * b + c
  | .min => if a ≤ b then a else b
  | .max => if a ≤ b then b else a

/-- The number of values of an operation that round (R157): none for class I, nor for `vmin` and `vmax`. -/
def VOp.draws (op : VOp) (vt : VTy) : Nat :=
  match op with
  | .min => 0
  | .max => 0
  | _ => if vt.isF then vt.lanes else 0

/-- R164: the result register and the generator state afterwards. -/
def laneArith (op : VOp) (vt : VTy) (rm : RMode) (sat : Bool) (m : Word) (old a b c : Vec) (rng : Word) : Vec × Word :=
  let w := vt.width
  let (rs, z) := drawsFor rm (op.draws vt) rng
  let l := fun i => if vt.isF then op.lane vt.fmt (lane a w i) (lane b w i) (lane c w i) rm sat (rs.getD i 0)
    else laneSat vt sat (op.int (laneInt vt (lane a w i)) (laneInt vt (lane b w i)) (laneInt vt (lane c w i)))
  (laneMerge m w old l, z)

/-- R164 `vabs`. -/
def laneAbs (vt : VTy) (sat : Bool) (m : Word) (old a : Vec) : Vec :=
  let w := vt.width
  laneMerge m w old (fun i =>
    if vt.isF then lane a w i % 2 ^ (w - 1) else laneSat vt sat ((laneInt vt (lane a w i)).natAbs : Int))

/-- R165. -/
def laneBits (f : Nat → Nat → Nat) (vt : VTy) (m : Word) (old a b : Vec) : Vec :=
  laneMerge m vt.width old (fun i => f (lane a vt.width i) (lane b vt.width i))

/-- R166: the counts are given lane by lane. -/
def laneShift (left : Bool) (vt : VTy) (sat : Bool) (m : Word) (old a : Vec) (count : Nat → Nat) : Vec :=
  let w := vt.width
  laneMerge m w old (fun i =>
    let c := count i % w
    let x := laneInt vt (lane a w i)
    if left then laneSat vt sat (x * 2 ^ c) else wrap w (x / 2 ^ c))

/-- The condition of R167 on one lane. -/
def vcondHolds (cc : VCond) (vt : VTy) (a b : Nat) : Bool :=
  if vt.isF then
    let k : FCond := match cc with
      | .eq => .eq | .ne => .ne | .lt => .lt | .le => .le | .un => .un
    (fcompare k (vt.fmt.value a) (vt.fmt.value b)).1
  else
    let x := laneInt vt a
    let y := laneInt vt b
    match cc with
    | .eq => decide (x = y)
    | .ne => decide (x ≠ y)
    | .lt => decide (x < y)
    | .le => decide (x ≤ y)
    | .un => false

/-- A word whose bit i is `f i`, for n bits. -/
def maskWord (n : Nat) (f : Nat → Bool) : Word :=
  BitVec.ofNat 64 ((List.range n).foldr (fun i acc => (f i).toNat * 2 ^ i + acc) 0)

/-- R167. -/
def laneCompare (cc : VCond) (vt : VTy) (m : Word) (a b : Vec) : Word :=
  maskWord vt.lanes (fun i => m.getLsbD i && vcondHolds cc vt (lane a vt.width i) (lane b vt.width i))

/-- R168 `vsel`. -/
def laneSel (vt : VTy) (m : Word) (old a b : Vec) (c : Word) : Vec :=
  laneMerge m vt.width old (fun i => if c.getLsbD i then lane a vt.width i else lane b vt.width i)

/-- R168 `vmov`. -/
def laneMov (vt : VTy) (m : Word) (old a : Vec) : Vec := laneMerge m vt.width old (fun i => lane a vt.width i)

/-- R169. -/
def laneCvt (vt dst : VTy) (part : Nat) (rm : RMode) (sat : Bool) (m : Word) (old a : Vec) (rng : Word) : Vec × Word :=
  let ns := vt.lanes
  let nd := dst.lanes
  let c := min ns nd
  let (rs, z) := drawsFor rm (if dst.isF || vt.isF then c else 0) rng
  let base := if nd ≤ ns then 0 else part * ns
  (lanes dst.width nd (fun d =>
    if base ≤ d ∧ d < base + c ∧ m.getLsbD d then
      let e := d - base
      let s := if nd ≤ ns then part * nd + e else e
      (convert vt.nfmt dst.nfmt (lane a vt.width s) rm sat (rs.getD e 0)).1
    else lane old dst.width d), z)

/-- The identity value of R170, as a code of the lane type. -/
def redIdentity (op : RedOp) (vt : VTy) : Nat :=
  match op with
  | .add => 0
  | .min => if vt.isF then vt.fmt.infCode false else wrap vt.width (intMax vt.isSigned vt.width)
  | .max => if vt.isF then vt.fmt.infCode true else wrap vt.width (intMin vt.isSigned vt.width)
  | .and => 2 ^ vt.width - 1
  | .or => 0
  | .xor => 0

/-- Combine of R170 on two codes. -/
def redCombine (op : RedOp) (vt : VTy) (rm : RMode) (sat : Bool) (r : Nat) (a b : Nat) : Nat :=
  match op with
  | .add => if vt.isF then (farith .add vt.fmt a b 0 rm sat r).1 else laneSat vt sat (laneInt vt a + laneInt vt b)
  | .min => if vt.isF then fminmax false vt.fmt a b else wrap vt.width (min (laneInt vt a) (laneInt vt b))
  | .max => if vt.isF then fminmax true vt.fmt a b else wrap vt.width (max (laneInt vt a) (laneInt vt b))
  | .and => a &&& b
  | .or => a ||| b
  | .xor => a ^^^ b

/-- The codes of the enabled lanes. -/
def enabledLanes (vt : VTy) (m : Word) (a : Vec) : List Nat :=
  ((List.range vt.lanes).filter (fun i => m.getLsbD i)).map (fun i => lane a vt.width i)

/-- A code of a lane type as a g register holds it (R132, R171). -/
def laneToReg (vt : VTy) (c : Nat) : Word :=
  if vt.isF then BitVec.ofNat 64 (c % 2 ^ vt.width) else extInt vt.isSigned vt.width c

/-- R171; one enabled lane is given as it stands, a NaN included (the model's reading, log entry 68). -/
def laneReduce (op : RedOp) (vt : VTy) (rm : RMode) (sat : Bool) (m : Word) (a : Vec) (rng : Word) : Word × Word :=
  let xs := enabledLanes vt m a
  let (rs, z) := drawsFor rm (if vt.isF && decide (op = .add) then 1 else 0) rng
  let r := match op with
    | .add =>
      if vt.isF then (vt.fmt.finish (sumA (xs.map vt.fmt.value) rm) rm sat (rs.getD 0 0)).1
      else laneSat vt sat (xs.foldl (fun acc c => acc + laneInt vt c) 0)
    | _ => match xs with
      | [] => redIdentity op vt
      | c :: r => r.foldl (redCombine op vt rm sat 0) c
  (laneToReg vt r, z)

/-- R172: the codes written, by lane. -/
def scanCodes (op : RedOp) (vt : VTy) (rm : RMode) (sat ex : Bool) (m : Word) (a : Vec) (rs : List Nat) : List Nat :=
  ((List.range vt.lanes).foldl (fun (acc : Option Nat × List Nat) i =>
    if m.getLsbD i then
      let c := lane a vt.width i
      let next := match acc.1 with
        | none => c
        | some x => redCombine op vt rm sat (rs.getD i 0) x c
      (some next, acc.2 ++ [if ex then acc.1.getD (redIdentity op vt) else next])
    else (acc.1, acc.2 ++ [0])) (none, [])).2

/-- R172. -/
def laneScan (op : RedOp) (vt : VTy) (rm : RMode) (sat ex : Bool) (m : Word) (old a : Vec) (rng : Word) : Vec × Word :=
  let (rs, z) := drawsFor rm (if vt.isF && decide (op = .add) then vt.lanes else 0) rng
  let cs := scanCodes op vt rm sat ex m a rs
  (laneMerge m vt.width old (fun i => cs.getD i 0), z)

/-- R173. -/
def laneBcast (vt : VTy) (m : Word) (old : Vec) (v : Nat) : Vec := laneMerge m vt.width old (fun _ => v)

/-- R174. -/
def lanePerm (vt : VTy) (m : Word) (old a b : Vec) : Vec :=
  laneMerge m vt.width old (fun i =>
    let k := lane b vt.width i
    if k < vt.lanes then lane a vt.width k else 0)

/-- R175. -/
def laneSlide (vt : VTy) (up : Bool) (m : Word) (old a b : Vec) (count : Word) : Vec :=
  let n := vt.lanes
  let w := vt.width
  let k := min count.toNat (2 * n)
  let t := fun j => if up then (if j < n then lane b w j else lane a w (j - n))
    else (if j < n then lane a w j else lane b w (j - n))
  laneMerge m w old (fun i =>
    if up then (if k ≤ n + i ∧ n + i - k < 2 * n then t (n + i - k) else 0)
    else (if i + k < 2 * n then t (i + k) else 0))

/-- R177. -/
def laneFn (fn : VFun) (vt : VTy) (rm : RMode) (sat : Bool) (m : Word) (old a : Vec) (rng : Word) : Vec × Word :=
  let (rs, z) := drawsFor rm vt.lanes rng
  (laneMerge m vt.width old (fun i =>
    if m.getLsbD i then fn.lane vt (lane a vt.width i) rm sat (rs.getD i 0) else 0), z)

/-- R176: a register with one lane replaced. -/
def laneIns (vt : VTy) (old : Vec) (idx v : Nat) : Vec :=
  lanes vt.width vt.lanes (fun i => if i = idx then v else lane old vt.width i)

/-- R144 `vdfma`: eight f64 lanes of a × b + c. -/
def laneDfma (rm : RMode) (m : Word) (old a b c : Vec) (rng : Word) : Vec × Word :=
  let (rs, z) := drawsFor rm 8 rng
  (laneMerge m 64 old (fun i =>
    (farith .fma FloatTy.f64.fmt (lane a 64 i) (lane b 64 i) (lane c 64 i) rm false (rs.getD i 0)).1), z)

end Sys2Proof.Machine
end

