-- ==== Sys2Proof/Machine/Access.lean ====
section
/-! DEFINITION. Accesses of more than one word, as vector accesses, pairs and `cload` make them (R159, R271,
R395): every one is checked before any is performed; and accesses that are performed at home (R264, R278). -/

namespace Sys2Proof.Machine

/-- Check accesses in order (R159 step 1, R271): the places, or the first failure. -/
def State.placeAll (s : State) (c : CtxId) (via : Via) (n : Nat) (acc : Acc) : List Word → Except Stop (List Loc)
  | [] => .ok []
  | ea :: r =>
    match s.place c via ea n acc with
    | .error e => .error e
    | .ok l =>
      match s.placeAll c via n acc r with
      | .error e => .error e
      | .ok ls => .ok (l :: ls)

/-- Whether a stop is poison-consumed. -/
def Stop.isPoison : Stop → Bool
  | .raise r => decide (r.cause = .poisonConsumed)
  | .need _ => false
  | .walk _ _ _ => false
  | .zero _ => false

/-- The values of reads that have all been made (R159 step 2): with one still to come, it is waited for; poison is reported
before an uncorrectable line, each at the lowest place that has it. -/
def gather (rs : List (Except Stop Nat)) : Except Stop (List Nat) :=
  let es := rs.filterMap (fun r => match r with
    | .error e => some e
    | .ok _ => none)
  match ((es.find? Stop.waits).orElse (fun _ => es.find? Stop.isPoison)).orElse (fun _ => es.head?) with
  | some e => .error e
  | none => .ok (rs.filterMap (fun r => match r with
    | .error _ => none
    | .ok v => some v))

/-- Read every place (R159 step 2, R271, R395): the values, or what stops them. -/
def State.loadAll (s : State) (c : CtxId) (n : Nat) (ls : List Loc) : Except Stop (List Nat) :=
  gather (ls.map (fun l => s.load c l n))

/-- The read of one word of a pair: whatever fails in it is reported at the word (R271). -/
def State.loadWord (s : State) (c : CtxId) (l : Loc) : Except Stop Nat :=
  match s.load c l 8, l with
  | .error (.raise r), .home _ va _ => .error (.raise { r with tval := BitVec.ofNat 64 (va / 8 * 8) })
  | r, _ => r

/-- The words of a pair (R271): with one still to come, it is waited for; of two that fail the lower is reported. -/
def State.loadPairAt (s : State) (c : CtxId) (ls : List Loc) : Except Stop (List Nat) :=
  let rs := ls.map (fun l => s.loadWord c l)
  let es := rs.filterMap (fun r => match r with
    | .error e => some e
    | .ok _ => none)
  match (es.find? Stop.waits).orElse (fun _ => es.head?) with
  | some e => .error e
  | none => gather rs

/-- A read of a lane: a fault carries the lane's address (R159). -/
def State.loadLane (s : State) (c : CtxId) (n : Nat) (ea : Word) (l : Loc) : Except Stop Nat :=
  match s.load c l n with
  | .error e => .error (e.atLane ea)
  | .ok v => .ok v

/-- Read the enabled lanes (R159 step 2). -/
def State.loadLanes (s : State) (c : CtxId) (n : Nat) (ls : List (Word × Loc)) : Except Stop (List Nat) :=
  gather (ls.map (fun (ea, l) => s.loadLane c n ea l))

/-- The accesses of one lane, of which every fault carries the lane's address (R159, R162). -/
def State.placeLane (s : State) (c : CtxId) (via : Via) (n : Nat) (acc : Acc) (lane : Word) (eas : List Word) :
    Except Stop (List Loc) :=
  match s.placeAll c via n acc eas with
  | .error e => .error (e.atLane lane)
  | .ok ls => .ok ls

/-- Whether a place is posted to (R249). -/
def Loc.isPosted (c : CtxId) : Loc → Bool
  | .sram a => postedHome c a
  | _ => false

/-- What must hold before several stores are made: for each what `storeReady` asks, room in Q for every
posted one (R413), and room in H for the lines they may evict. -/
def State.storesReady (s : State) (c : CtxId) (n : Nat) (ls : List Loc) : Except Stop Unit :=
  let posted := (ls.filter (Loc.isPosted c)).length
  let k := s.core c.coreId
  let misses := (ls.filter (fun l => match l with
    | .home pa _ _ => (k.find (pa / 64)).isNone
    | _ => false)).length
  if posted ≠ 0 ∧ 1023 < (s.ctx c).q + posted then .error (.need (.room posted))
  else if 1 < misses ∧ ¬ k.roomFor misses then .error (.need .roomH)
  else ls.foldl (fun acc l => match acc with
    | .error e => .error e
    | .ok _ => s.storeReady c l n) (.ok ())

/-- Make several stores in order. A part of a word merges into the word that the core has before the first of them, though
one of them evicts its line (R236). -/
def State.storeAll (s : State) (c : CtxId) (n : Nat) (ls : List (Loc × Nat)) : State :=
  ls.foldl (fun (t : State) (l, v) => t.storeOver c l n v (s.baseOf c l)) s

/-! ### Performed at home -/

/-- Write a dirty copy of a line's word through and drop the word from the cache (R264). -/
def Core.dropWord (k : Core) (l w : Nat) : Core :=
  let k := if k.cache.any (fun x => decide (x.tag = l) && x.dirty.getLsbD w) then k.startThrough l else k
  { k with cache := k.cache.map (fun x => if x.tag = l then { x with valid := clrBit x.valid w } else x) }

/-- Before an access at the home of a word: for the heap the core's own copy written through and dropped,
the controller free; for quad memory the quad awake and the context's posted stores to the word performed.
The state has the write-through begun. -/
def State.homeReady (s : State) (c : CtxId) (loc : Loc) : State × Except Stop Unit :=
  match loc with
  | .device _ => (s, .ok ())
  | .sram a =>
    (s, if (s.ctx c).postedTo a then .error (.need (.posted (a / 8)))
      else match s.bankWait c a with
      | some n => .error (.need n)
      | none => .ok ())
  | .home pa _ _ =>
    let l := pa / 64
    let k := s.core c.coreId
    let dirty := k.cache.any (fun x => decide (x.tag = l) && x.dirty.getLsbD (pa % 64 / 8))
    if dirty && !k.roomFor 1 then (s, .error (.need .roomH))
    else
      let k := k.dropWord l (pa % 64 / 8)
      let s := s.putCore c.coreId { k with stale := s.overtaken c (fun m => decide (m = l)) ++ k.stale }
      (s, if k.through.any (fun t => decide (t.line = l)) then .error (.need (.through l))
        else if !s.homeOpen pa c.vt.part (.ctx c) then .error (.need (.home l))
        else .ok ())

/-- Read bytes at home (R283, R278): poison and uncorrectable lines fault. -/
def State.readHome (s : State) (c : CtxId) (loc : Loc) (n : Nat) : Except Stop Nat :=
  match loc with
  | .device _ => .ok 0
  | .sram a =>
    if s.sramPois c.vt a then .error (.cause .poisonConsumed (BitVec.ofNat 64 (a / 8 * 8))) else .ok (s.sramBytes c.vt a n)
  | .home pa va _ =>
    if s.cleared (granuleOf pa) then .ok 0
    else if NSet.mem s.poisLine (pa / 64) then .error (.cause .poisonConsumed (BitVec.ofNat 64 (va / 8 * 8)))
    else if NSet.mem s.badLine (pa / 64) then .error (.cause .memoryUncorrectable (BitVec.ofNat 64 (va / 64 * 64)))
    else .ok (s.homeBytes pa n)

/-- An access at home has been made: DRAM has activated a row of its bank, and read n bytes, unless its granule is cleared
(R245, R428, R438). -/
def State.touchHome (s : State) (c : CtxId) (loc : Loc) (n : Nat) : State :=
  match loc with
  | .home pa _ _ => if s.cleared (granuleOf pa) then s else (s.activate pa c.vt.part).tallyRead pa n
  | _ => s

/-- Write bytes at home as one step with their read (R283). -/
def State.writeHome (s : State) (c : CtxId) (loc : Loc) (n v : Nat) : State :=
  match loc with
  | .device _ => s
  | .sram a => s.sramWrite c.vt a n v
  | .home pa _ _ => (s.homeWrite pa n v).fireHome pa n

/-- Whether a write at home must wait for the zeroing of its granule (R245). -/
def State.needsZero (s : State) (loc : Loc) : Option Nat :=
  match loc with
  | .home pa _ _ => if s.cleared (granuleOf pa) then some (granuleOf pa) else none
  | _ => none

end Sys2Proof.Machine
end

