-- ==== Sys2Proof/Machine/Memory.lean ====
section
/-! DEFINITION. Memories III: the memory group 0x40 to 0x4E and the atomics 0x50 to 0x58 (R269 to R284), with
the tile device window as a context sees it (R232, R385). -/

namespace Sys2Proof.Machine

/-! ### The device window -/

/-- A register of the device window (R385). Offsets without a register read zero; so does RTGO, which has
no reader. -/
def State.deviceRead (s : State) (c : CtxId) (off : Nat) : Word :=
  let x := s.ctx c
  if off = 0 then BitVec.ofNat 64 (c.vt.x + c.vt.y * 2 ^ 16 + c.vt.col * 2 ^ 32 + c.vt.part * 2 ^ 40)
  else if off = 0x100 then x.rtsel
  else if 0x108 ≤ off ∧ off ≤ 0x120 ∧ off % 8 = 0 then NMap.get 0 x.rtd ((off - 0x108) / 8)
  else if off = 0x130 then x.rtstat
  else 0

/-- A write to a register that has no behaviour of its own, or to an unoccupied offset (R11, R232, R385). -/
def Ctx.plainWrite (x : Ctx) (off : Nat) (v : Word) : Ctx :=
  if off = 0x100 then { x with rtsel := v &&& 0xFFFFFFFF7FFF01FF }
  else if 0x108 ≤ off ∧ off ≤ 0x120 ∧ off % 8 = 0 then { x with rtd := NMap.set 0 x.rtd ((off - 0x108) / 8) v }
  else x

/-- A write to the device window (R385, R386): a store to RTGO waits until its operation has been performed. -/
def State.deviceWrite (s : State) (c : CtxId) (off : Nat) (v : Word) : State :=
  if off = 0x128 then
    s.modCtx c (fun x => { x with rtgo := v, rtstat := 1, prog := { x.prog with need := .remote } })
  else (s.modCtx c (fun x => x.plainWrite off v)).complete c

/-! ### Loads and stores -/

/-- The effective address of a base and an offset (R270). -/
def State.ea (s : State) (b : GReg) (o : Int) : Word := leaAdd ((s.ctx s.cur).rg b.toNat) o

/-- What `ld` does at an effective address (R270). -/
def State.scalarLoad (s : State) (ea : Word) (z : BitVec 2) : Except Stop Nat :=
  let n := 2 ^ z.toNat
  match s.place s.cur (.scalar n) ea n .read with
  | .error e => .error e
  | .ok (.device off) => .ok (s.deviceRead s.cur off).toNat
  | .ok l => s.load s.cur l n

/-- The register value of a loaded number (R270). -/
def loadValue (z : BitVec 2) (u : Bool) (v : Nat) : Word :=
  if u then BitVec.ofNat 64 v else toWord (sx (8 * 2 ^ z.toNat) v)

/-- `ld` (R270). -/
def loadInstr (d b : GReg) (o : Int) (z : BitVec 2) (u : Bool) (wait : WaitF) (s : State) : Step :=
  s.whenWaited wait (s.orStop (s.scalarLoad (s.ea b o) z)
    (fun v => s.finish (fun x => x.wg d.toNat (loadValue z u v))))

/-- The checks of a store (R270): its place, once everything it needs holds. -/
def State.scalarStoreAt (s : State) (ea : Word) (z : BitVec 2) : Except Stop Loc :=
  let n := 2 ^ z.toNat
  match s.place s.cur (.scalar n) ea n .write with
  | .error e => .error e
  | .ok l =>
    match s.storesReady s.cur n [l] with
    | .error e => .error e
    | .ok _ => .ok l

/-- `st` (R270). -/
def storeInstr (r b : GReg) (o : Int) (z : BitVec 2) (wait : WaitF) (s : State) : Step :=
  s.whenWaited wait (s.orStop (s.scalarStoreAt (s.ea b o) z) (fun l =>
    let v := (s.ctx s.cur).rg r.toNat
    match l with
    | .device off => s.deviceWrite s.cur off v
    | l => (s.store s.cur l (2 ^ z.toNat) v.toNat).complete s.cur))

/-- `ld` with a 16-bit offset (R270). -/
def execLdOff16 (o : Ld16) (s : State) : Step := loadInstr o.d o.b o.imm.toInt o.z o.u o.wait s
/-- `ld` with a 32-bit offset (R270). -/
def execLdOff32 (o : Ld32) (s : State) : Step := loadInstr o.d o.b o.imm.toInt o.z o.u o.wait s
/-- `st` with a 16-bit offset (R270). -/
def execStOff16 (o : St16) (s : State) : Step := storeInstr o.s o.b o.imm.toInt o.z o.wait s
/-- `st` with a 32-bit offset (R270). -/
def execStOff32 (o : St32) (s : State) : Step := storeInstr o.s o.b o.imm.toInt o.z o.wait s

/-- The two words of a pair, once the address of the pair is checked (R271). -/
def State.pairAt (s : State) (ea : Word) (acc : Acc) : Except Stop (List Loc) :=
  if !tagOk ea then .error (.cause .addressForm ea)
  else if adr ea % 16 ≠ 0 then .error (.cause .misaligned ea)
  else s.placeAll s.cur .pair 8 acc [ea, leaAdd ea 8]

/-- `ldp` (R271). -/
def loadPair (r b : GReg) (o : Int) (wait : WaitF) (s : State) : Step :=
  s.whenWaited wait (s.orStop (match s.pairAt (s.ea b o) .read with
      | .error e => .error e
      | .ok ls => s.loadPairAt s.cur ls)
    (fun vs => s.finish (fun x =>
      (x.wg r.toNat (BitVec.ofNat 64 (vs.getD 0 0))).wg (r.toNat + 1) (BitVec.ofNat 64 (vs.getD 1 0)))))

/-- `stp` (R271). -/
def storePair (r b : GReg) (o : Int) (wait : WaitF) (s : State) : Step :=
  s.whenWaited wait (s.orStop (match s.pairAt (s.ea b o) .write with
      | .error e => .error e
      | .ok ls =>
        match s.storesReady s.cur 8 ls with
        | .error e => .error e
        | .ok _ => .ok ls)
    (fun ls =>
      let x := s.ctx s.cur
      (s.storeAll s.cur 8 (ls.zip [(x.rg r.toNat).toNat, (x.rg (r.toNat + 1)).toNat])).complete s.cur))

/-- `ldp` with a 16-bit offset (R271). -/
def execLdpOff16 (o : Pair16) (s : State) : Step := loadPair o.r o.b o.imm.toInt o.wait s
/-- `ldp` with a 32-bit offset (R271). -/
def execLdpOff32 (o : Pair32) (s : State) : Step := loadPair o.r o.b o.imm.toInt o.wait s
/-- `stp` with a 16-bit offset (R271). -/
def execStpOff16 (o : Pair16) (s : State) : Step := storePair o.r o.b o.imm.toInt o.wait s
/-- `stp` with a 32-bit offset (R271). -/
def execStpOff32 (o : Pair32) (s : State) : Step := storePair o.r o.b o.imm.toInt o.wait s

/-! ### Release, acquire, fence and counts -/

/-- Whether a scope acts on the heap (R259, R260). -/
def Scope.heap : Scope → Bool
  | .core => false
  | .quad => true
  | .tile => true

/-- Go on with `f` once a release has completed (R259). -/
def State.afterRelease (s : State) (c : CtxId) (heap : Bool) (f : State → State) : State :=
  match s.release c heap with
  | (s, .ok _) => f s
  | (s, .error e) => s.stopped c e

/-- Go on with `f` after an acquire (R260), once H has room for the write-throughs it starts (R413). -/
def State.afterAcquire (s : State) (c : CtxId) (heap : Bool) (f : State → State) : State :=
  if !heap then f s
  else if s.acquireRoom c then f (s.acquire c)
  else s.stopped c (.need .roomH)

/-- `acq` (R273). -/
def execAcq (o : Sync) (s : State) : Step :=
  s.whenWaited o.wait (s.afterAcquire s.cur (Scope.heap o.scope) (fun s => s.complete s.cur))

/-- `rel` (R273). -/
def execRel (o : Sync) (s : State) : Step :=
  s.whenWaited o.wait (s.afterRelease s.cur (Scope.heap o.scope) (fun s => s.complete s.cur))

/-- `fence` (R273). -/
def execFence (o : Sync) (s : State) : Step :=
  s.whenWaited o.wait (s.afterRelease s.cur (Scope.heap o.scope) (fun s =>
    s.afterAcquire s.cur (Scope.heap o.scope) (fun s => s.complete s.cur)))

/-- `pwait` (R274). -/
def execPwait (o : PWait) (s : State) : Step :=
  s.whenWaited o.wait (s.finish (fun x =>
    x.wg o.d.toNat (BitVec.ofNat 64 (min (s.core s.cur.coreId).h 65535 * 2 ^ 16 + min x.q 65535))))

/-! ### Tag tables (R275, R276) -/

/-- The key of a tag-table entry of the context's home quad. -/
def tagKey (c : CtxId) (slot : Nat) : Nat := c.quad * 512 + slot

/-- `tlook` (R276). -/
def execTlook (o : GAWait) (s : State) : Step :=
  let t := (s.vtile s.cur.vt).tags
  let ga := fld ((s.ctx s.cur).rg o.a.toNat).toNat 12 36
  let hit := firstFrom (fun i =>
    let e := (NMap.get 0 t (tagKey s.cur i)).toNat
    decide (fld e 63 1 = 1) && decide (fld e 12 36 = ga)) 512 0
  s.whenWaited o.wait (s.finish (fun x => x.wg o.d.toNat (match hit with
    | some i => BitVec.ofNat 64 i
    | none => BitVec.allOnes 64)))

/-- Replace a tag-table entry and return the old one. -/
def State.tagSwap (s : State) (d slot : Nat) (e : Word) : State :=
  let k := tagKey s.cur slot
  let old := NMap.get 0 (s.vtile s.cur.vt).tags k
  (s.modVt s.cur.vt (fun v => { v with tags := NMap.set 0 v.tags k e })).finish (fun x => x.wg d old)

/-- `tset` (R276). -/
def execTset (o : TSet) (s : State) : Step :=
  let a := (s.ctx s.cur).rg o.a.toNat
  let slot := fld ((s.ctx s.cur).rg o.b.toNat).toNat 0 9
  s.whenWaited o.wait (
    if !tagOk a || decide (spaceOf (adr a) ≠ .heap) then s.stopped s.cur (.cause .addressForm a)
    else s.tagSwap o.d.toNat slot (BitVec.ofNat 64 (2 ^ 63 + fld a.toNat 12 36 * 2 ^ 12)))

/-- `tclr` (R276). -/
def execTclr (o : GBWait) (s : State) : Step :=
  s.whenWaited o.wait (s.tagSwap o.d.toNat (fld ((s.ctx s.cur).rg o.b.toNat).toNat 0 9) 0)

/-! ### Monitors (R277, R278) -/

/-- Where a place stands for a monitor: the absolute address and, for the heap, the physical word. -/
def Loc.watched : Loc → Nat × Option Nat
  | .sram a => (a, none)
  | .device off => (off, none)
  | .home pa va _ => (va, some (pa / 8 * 8))

/-- `mon` (R278). -/
def execMon (o : GBWait) (s : State) : Step :=
  let ea := (s.ctx s.cur).rg o.b.toNat
  s.whenWaited o.wait (s.orStop (s.place s.cur .mon ea 8 .read) (fun l =>
    match s.homeReady s.cur l with
    | (s, .error e) => s.stopped s.cur e
    | (s, .ok _) => s.orStop (s.readHome s.cur l 8) (fun v =>
      (s.touchHome s.cur l 8).finish (fun x => { x with mon :=
        ⟨(Loc.watched l).1, (Loc.watched l).2, BitVec.ofNat 64 v, true, false⟩ }.wg o.d.toNat (BitVec.ofNat 64 v)))))

/-- How every `mwait` completes (R278): the monitor disarmed, the acquire of R261, the status. -/
def State.endMwait (s : State) (c : CtxId) (d st : Nat) : State :=
  let np := s.nextPc c
  (s.acquire c).modCtx c (fun x =>
    (({ x with mon := { x.mon with armed := false, fired := false } }).wg d (BitVec.ofNat 64 st)).goto np)

/-- `mwait` (R278): blocks until the monitor fires or the limit has passed. -/
def execMwait (o : GAWait) (s : State) : Step :=
  let x := s.ctx s.cur
  let t := (x.rg o.a.toNat).toNat
  s.whenWaited o.wait (
    if x.mon.armed && !x.mon.fired then s.block s.cur .mwait (.mwait o.d.toNat) (if t = 0 then none else some t)
    else if s.acquireRoom s.cur then s.endMwait s.cur o.d.toNat (if x.mon.armed then 0 else 2)
    else s.stopped s.cur (.need .roomH))

/-! ### Side bits (R281) -/

/-- The line of a place at home. -/
def Loc.line : Loc → Nat
  | .home pa _ _ => pa / 64
  | .sram a => a / 64
  | .device off => off / 64

/-- `sbr` (R281). -/
def execSbr (o : GBWait) (s : State) : Step :=
  let ea := (s.ctx s.cur).rg o.b.toNat
  s.whenWaited o.wait (s.orStop (s.place s.cur .sbr ea 64 .read) (fun l =>
    let line := Loc.line l
    if !s.homeOpen (line * 64) s.cur.vt.part (.ctx s.cur) then s.stopped s.cur (.need (.home line))
    else
      let s := s.touchHome s.cur l 64
      let v := if s.cleared (line / 1024) then 0 else NMap.get 0 s.side line &&& s.freeSide (line / 1024)
      s.finish (fun x => x.wg o.d.toNat v)))

/-- `sbw` (R281): in a cleared granule it waits for the zeroing it starts (R245). -/
def execSbw (o : Sbw) (s : State) : Step :=
  let x := s.ctx s.cur
  let ea := x.rg o.b.toNat
  s.whenWaited o.wait (s.orStop (s.place s.cur .sbw ea 64 .write) (fun l =>
    let line := Loc.line l
    if !s.homeOpen (line * 64) s.cur.vt.part (.ctx s.cur) then s.stopped s.cur (.need (.home line))
    else match s.needsZero l with
      | some g => s.stopped s.cur (.zero g)
      | none =>
        let s := (s.touchHome s.cur l 64).tallyHbm (line / 1024) 6 64
        let free := s.freeSide (line / 1024)
        let old := NMap.get 0 s.side line
        let v := (old &&& ~~~free) ||| (x.rg o.a.toNat &&& free)
        { s with side := NMap.set 0 s.side line v }.complete s.cur))

/-! ### Atomics (R282, R283) -/

/-- The operations 0x50 to 0x58 on b-byte codes: what is written, if anything. -/
inductive AtomOp where
  | add
  | min (n : Bool)
  | max (n : Bool)
  | and | or | xor | swp
  | cas (expected : Nat)
  | fadd (f : FFmt)
  deriving DecidableEq, Repr

/-- `new` of R283, for codes of w bits. -/
def AtomOp.new (op : AtomOp) (w old x : Nat) : Option Nat :=
  let v (n : Bool) (a : Nat) : Int := if n then a else sx w a
  match op with
  | .add => some ((old + x) % 2 ^ w)
  | .min n => some (if v n old ≤ v n x then old else x)
  | .max n => some (if v n old ≤ v n x then x else old)
  | .and => some (old &&& x)
  | .or => some (old ||| x)
  | .xor => some (old ^^^ x)
  | .swp => some x
  | .cas e => if old = e then some x else none
  | .fadd f => some (farith .add f old x 0 .rne false 0).1

/-- An atomic once its release is done (R283): performed at home as one step; the result returns later
(R284). -/
def State.atomicAt (s : State) (op : AtomOp) (n : Nat) (l : Loc) (x : Nat) (d : Nat) (acq : Bool)
    (ext : Nat → Word) : State :=
  match s.homeReady s.cur l with
  | (s, .error e) => s.stopped s.cur e
  | (s, .ok _) => s.orStop (s.readHome s.cur l n) (fun old =>
    let after (s : State) : State := s.modCtx s.cur (fun y => { y with prog := { y.prog with
      need := .result, res := some ⟨d, ext old, acq⟩ } })
    match op.new (8 * n) old x, s.needsZero l with
    | none, _ => after (s.touchHome s.cur l n)
    | some _, some g => s.stopped s.cur (.zero g)
    | some v, none => after ((s.touchHome s.cur l n).writeHome s.cur l n v))

/-- An atomic (R283). -/
def atomInstr (op : AtomOp) (n : Nat) (d b a : GReg) (acq rel : Bool) (wait : WaitF) (ext : Nat → Word)
    (s : State) : Step :=
  let x := s.ctx s.cur
  let v := (x.rg a.toNat).toNat % 2 ^ (8 * n)
  s.whenWaited wait (s.orStop (s.place s.cur .atomic (x.rg b.toNat) n .atomic) (fun l =>
    if rel then s.afterRelease s.cur true (fun s => s.atomicAt op n l v d.toNat acq ext)
    else s.atomicAt op n l v d.toNat acq ext))

/-- The size of an integer atomic and the register value of its old value (R283). -/
def atomBytes (w : Bool) : Nat := if w then 4 else 8

@[inherit_doc atomBytes]
def atomExt (w n : Bool) (old : Nat) : Word := if w && !n then toWord (sx 32 old) else BitVec.ofNat 64 old

/-- The atomics 0x50 to 0x56. -/
def atomInt (op : AtomOp) (o : Atom) (s : State) : Step :=
  atomInstr op (atomBytes o.w) o.d o.b o.a o.acq o.rel o.wait (atomExt o.w o.n) s

/-- `aadd` (R283). -/
def execAadd (o : Atom) (s : State) : Step := atomInt .add o s
/-- `amin` (R283). -/
def execAmin (o : Atom) (s : State) : Step := atomInt (.min o.n) o s
/-- `amax` (R283). -/
def execAmax (o : Atom) (s : State) : Step := atomInt (.max o.n) o s
/-- `aand` (R283). -/
def execAand (o : Atom) (s : State) : Step := atomInt .and o s
/-- `aor` (R283). -/
def execAor (o : Atom) (s : State) : Step := atomInt .or o s
/-- `axor` (R283). -/
def execAxor (o : Atom) (s : State) : Step := atomInt .xor o s
/-- `aswp` (R283). -/
def execAswp (o : Atom) (s : State) : Step := atomInt .swp o s

/-- `acas` (R283). -/
def execAcas (o : ACas) (s : State) : Step :=
  let n := atomBytes o.w
  atomInstr (.cas (((s.ctx s.cur).rg o.c.toNat).toNat % 2 ^ (8 * n))) n o.d o.b o.a o.acq o.rel o.wait
    (atomExt o.w o.n) s

/-- `afadd` (R283): no flag is recorded. -/
def execAfadd (o : AFAdd) (s : State) : Step :=
  atomInstr (.fadd o.ft.fmt) (o.ft.fmt.bits / 8) o.d o.b o.a o.acq o.rel o.wait (BitVec.ofNat 64) s

end Sys2Proof.Machine
end

