-- ==== Sys2Proof/Machine/Semaphore.lean ====
section
/-! DEFINITION. Counting semaphores (R405 to R412) and how an instruction that was blocked completes. -/

namespace Sys2Proof.Machine

/-! ### Completing a blocked instruction -/

/-- A context whose wait is over completes with an acquire (R261); if H has no room for it the instruction
stays issued until there is. -/
def State.completeAcquire (s : State) (c : CtxId) : State :=
  if s.acquireRoom c then (s.acquire c).complete c
  else s.modCtx c (fun x => { x with st := .ready, wait := none, lim := none, prog := { need := .acquire } })

/-- A cause becomes pending at a context (R80); none at an empty slot. -/
def State.pendCause (s : State) (c : CtxId) (k : Cause) (tval : Word) : State :=
  if (s.ctx c).st = .empty then s else s.modCtx c (fun x => { x with pend := x.pend ++ [(k, tval)] })

/-! ### Semaphores -/

/-- Sem(s) of a core. -/
def Core.sem (k : Core) (i : Nat) : Nat := NMap.get 0 k.sems i
/-- Sem(s) := v. -/
def Core.setSem (k : Core) (i v : Nat) : Core := { k with sems := NMap.set 0 k.sems i v }

/-- One examination of the waiters of a semaphore (R406), in the order in which they joined: the value left,
the waiters that stay and those satisfied. `held` is set behind a consuming waiter that is not satisfied; a non-consuming
one is tested against the value that the examination begins with, whatever its position. -/
def examineList (i v0 : Nat) : List SemWaiter → Nat → Bool → Nat × List SemWaiter × List SemWho
  | [], v, _ => (v, [], [])
  | w :: r, v, held =>
    if w.sem ≠ i then
      let (v', stay, out) := examineList i v0 r v held
      (v', w :: stay, out)
    else if w.consume then
      if !held && decide (w.thr ≤ v) then
        let (v', stay, out) := examineList i v0 r (v - w.thr) false
        (v', stay, w.who :: out)
      else
        let (v', stay, out) := examineList i v0 r v true
        (v', w :: stay, out)
    else if w.thr ≤ v0 then
      let (v', stay, out) := examineList i v0 r v held
      (v', stay, w.who :: out)
    else
      let (v', stay, out) := examineList i v0 r v held
      (v', w :: stay, out)

/-- A satisfied waiter proceeds (R406): `semw` completes with its acquire, a queue head goes on to its next
phase (R193, R293). -/
def State.proceed (s : State) (k : CoreId) (w : SemWho) : State :=
  match w with
  | .ctx j => s.completeAcquire ⟨k.vt, k.core, j⟩
  | .copy => s.modCore k (fun x => { x with copyPhase := .fetch })
  | .matrix => s.modCore k (fun x => { x with matPhase := .fetch })

/-- Examine a semaphore (R406). -/
def State.examine (s : State) (k : CoreId) (i : Nat) : State :=
  let x := s.core k
  let (v, stay, out) := examineList i (x.sem i) x.waiters (x.sem i) false
  out.foldl (fun s w => s.proceed k w) (s.putCore k { x.setSem i v with waiters := stay })

/-- A waiter joins (R406); a threshold of 0 is satisfied at once. -/
def State.joinSem (s : State) (k : CoreId) (w : SemWaiter) : State :=
  if w.thr = 0 then s.proceed k w.who
  else (s.modCore k (fun x => { x with waiters := x.waiters ++ [w] })).examine k w.sem

/-- A waiter leaves other than by satisfaction, and the semaphore is examined (R406). -/
def State.leaveSem (s : State) (k : CoreId) (who : SemWho) : State :=
  match (s.core k).waiters.find? (fun w => decide (w.who = who)) with
  | none => s
  | some w =>
    (s.modCore k (fun x => { x with waiters := dropFirst (fun w => decide (w.who = who)) x.waiters })).examine k w.sem

/-- An increment (R407): it stops at 65,535, and passing it raises semaphore-overflow at `who`. -/
def State.semAdd (s : State) (k : CoreId) (i v : Nat) (who : Option CtxId) : State :=
  let n := (s.core k).sem i + v
  let s := s.modCore k (fun x => x.setSem i (min n 65535))
  let s := if 65535 < n then match who with
    | some c => s.pendCause c .semaphoreOverflow (BitVec.ofNat 64 i)
    | none => s
    else s
  (s.wakeCore k).examine k i

/-- The value of a semaphore instruction (R408). -/
def Ctx.semVal (x : Ctx) (v : SemVal) : Nat :=
  match v with
  | .imm i => i.toNat
  | .g r => fld (x.rg r.toNat).toNat 0 16

/-- `semw` (R409). -/
def execSemw (o : SemW) (s : State) : Step :=
  let c := s.cur
  let t := (s.ctx c).semVal o.v
  let s := s.block c .semaphore (.sem o.s.toNat)
  .next (s.joinSem c.coreId ⟨o.s.toNat, .ctx c.slot, t, !o.nc⟩)

/-- `semt` (R410). -/
def execSemt (o : SemT) (s : State) : Step :=
  let k := s.core s.cur.coreId
  let i := o.s.toNat
  let t := (s.ctx s.cur).semVal o.v
  let old := k.sem i
  let free := !k.waiters.any (fun w => decide (w.sem = i) && w.consume)
  .next (
    if t = 0 ∨ t ≤ old ∧ free then
      let s := if o.nc then s else (s.modCore s.cur.coreId (fun x => x.setSem i (old - t))).examine s.cur.coreId i
      s.finish (fun x => x.wg o.d.toNat (BitVec.ofNat 64 (2 ^ 16 + old)))
    else s.finish (fun x => x.wg o.d.toNat (BitVec.ofNat 64 old)))

/-- The core that `semadd` and `semset` name (R411). -/
def State.semCore (s : State) (r : GReg) : Except Stop CoreId :=
  if r = 0 then .ok s.cur.coreId
  else
    let g := (s.ctx s.cur).rg r.toNat
    if 48 ≤ g.toNat then .error (.cause .operandReserved g) else .ok ⟨s.cur.vt, g.toNat⟩

/-- A step at a core that a thermal migration moves waits until the move ends (R235, R380). -/
def State.atCore (s : State) (k : CoreId) (f : State → State) : State :=
  if (s.core k).moving then s.stopped s.cur (.need (.move k.core)) else f s

/-- `semadd` (R411). -/
def execSemadd (o : SemPut) (s : State) : Step :=
  .next (s.orStop (s.semCore o.core) (fun k =>
    let v := (s.ctx s.cur).semVal o.v
    s.afterRelease s.cur true (fun s => s.atCore k (fun s => (s.complete s.cur).semAdd k o.s.toNat v (some s.cur)))))

/-- `semset` (R411): a sleeping quad that it reaches wakes (R441). -/
def execSemset (o : SemPut) (s : State) : Step :=
  .next (s.orStop (s.semCore o.core) (fun k =>
    let v := (s.ctx s.cur).semVal o.v
    s.atCore k (fun s => (((s.modCore k (fun x => x.setSem o.s.toNat v)).complete s.cur).wakeCore k).examine k o.s.toNat)))

/-- `semget` (R412): a sleeping quad that it reaches wakes (R441). -/
def execSemget (o : GG) (s : State) : Step :=
  let a := (s.ctx s.cur).rg o.a.toNat
  let rem := decide (fld a.toNat 15 1 = 1)
  let c := fld a.toNat 8 6
  .next (
    if rem ∧ 48 ≤ c then s.stopped s.cur (.cause .operandReserved a)
    else
      let k : CoreId := if rem then ⟨s.cur.vt, c⟩ else s.cur.coreId
      s.atCore k (fun s => (s.wakeCore k).finish (fun x =>
        x.wg o.d.toNat (BitVec.ofNat 64 ((s.core k).sem (fld a.toNat 0 8))))))

end Sys2Proof.Machine
end

