-- ==== Sys2Proof/Machine/Tensor.lean ====
section
/-! DEFINITION. Elements located by a fat pointer (R42 to R45): the formats a tag names and where element j
lies. -/

namespace Sys2Proof.Machine

/-- What the tag of a pointer names, where it is not reserved (R43). -/
inductive Tag where
  | raw
  | num (f : NFmt)
  | mx (t : MxTy)
  deriving DecidableEq, Repr

/-- The tag of a format code; `none` where R43 reserves it. -/
def tagOf (code : Nat) : Option Tag :=
  if code = 0 then some .raw
  else match mxOf code with
    | some t => some (.mx t)
    | none => (NFmt.ofCode code).map .num

/-- Offset of the scale of the block of element j, from the tensor's address (R42). -/
def mxScaleOff (B b : Nat) (j : Int) : Int := j / (8 * B) * (8 + B * b) + j / B % 8

/-- Offset of the byte that holds the start of element j (R42). -/
def mxElemOff (B b : Nat) (j : Int) : Int :=
  j / (8 * B) * (8 + B * b) + 8 + j / B % 8 * (B * b / 8) + j % B * b / 8

/-- The bit of that byte where element j starts. -/
def mxElemBit (B b : Nat) (j : Int) : Nat := (j % B * b % 8).toNat

/-- The bytes of a block's element j: one, or two where it straddles. -/
def mxElemBytes (p : Word) (B b : Nat) (j : Int) : List Word :=
  let a := leaAdd p (mxElemOff B b j)
  if 8 < mxElemBit B b j + b then [a, leaAdd a 1] else [a]

/-- Whether the bytes of an element that an access of a logical core reaches lie in two spaces (R226). -/
def mxSplit (lc : Nat) (p : Word) (B b : Nat) (j : Int) : Bool :=
  match mxElemBytes p B b j with
  | x :: y :: _ => !sameSpace (resolve lc (adr x)) (resolve lc (adr y))
  | _ => false

/-- The byte accesses of an element: its own bytes, then its scale (R162). -/
def mxAccesses (p : Word) (B b : Nat) (j : Int) : List Word :=
  mxElemBytes p B b j ++ [leaAdd p (mxScaleOff B b j)]

/-- An element's code from its bytes. -/
def mxCode (B b : Nat) (j : Int) (bytes : List Nat) : Nat :=
  fld (bytes.getD 0 0 + 256 * bytes.getD 1 0) (mxElemBit B b j) b

/-- The element bytes of a block: code k at bit k × b (R42). -/
def mxPack (b : Nat) (codes : List Nat) : Nat := (codes.zipIdx).foldl (fun acc (c, k) => acc + c % 2 ^ b * 2 ^ (b * k)) 0

end Sys2Proof.Machine
end

