-- ==== Sys2Proof/Machine/Engine.lean ====
section
/-! DEFINITION. What the engines share (R94, R193, R240, R263, R293): accesses at home translated within their
step, poison, and the message of a held command. -/

namespace Sys2Proof.Machine

/-- Which spaces an engine accepts at an address: matrix commands refuse the instruction stores (R193), copies
accept them (R292). -/
def engineSpace (istores : Bool) (sp : Space) : Bool :=
  match sp with
  | .quad _ => true
  | .istore _ => istores
  | .heap => true
  | .gallery => true
  | .device => false
  | .unmapped => false

/-- Why an engine's access has no place: a cause with its ctval, or a miss that the walker has still to end (R363). -/
inductive EngStop where
  | fault (r : Raise)
  | miss (a : Nat) (acc : Acc)
  deriving DecidableEq, Repr

/-- The place of an engine access of n bytes by a command of a core. A failure carries its cause and ctval. -/
def State.engPlace (s : State) (k : CoreId) (user istores : Bool) (ea : Word) (n : Nat) (acc : Acc) : Except EngStop Loc :=
  let a := resolve k.core (adr ea)
  let sp := spaceOf a
  let bad (c : Cause) (v : Word) : Except EngStop Loc := .error (.fault ⟨c, v, 0, 0⟩)
  if !tagOk ea ∨ !engineSpace istores sp ∨ !sameSpace a (a + n - 1) then bad .addressForm ea
  else match sp with
    | .quad _ => .ok (.sram a)
    | .istore _ => .ok (.sram a)
    | _ =>
      if sp = .gallery ∧ acc.writes then bad .permission (BitVec.ofNat 64 a)
      else match s.translateNow k a acc user with
        | some pa => .ok (.home pa a (decide (sp = .gallery)))
        | none => .error (.miss a acc)

/-- Place several accesses in order. -/
def State.engPlaces (s : State) (k : CoreId) (user istores : Bool) (n : Nat) (acc : Acc) : List Word → Except EngStop (List Loc)
  | [] => .ok []
  | ea :: r =>
    match s.engPlace k user istores ea n acc with
    | .error e => .error e
    | .ok l =>
      match s.engPlaces k user istores n acc r with
      | .error e => .error e
      | .ok ls => .ok (l :: ls)

/-- A miss of an engine of a core reaches the walker of its tile (R363). -/
def State.engMiss (s : State) (k : CoreId) (by_ : MissBy) (user : Bool) (a : Nat) (acc : Acc) : State :=
  s.miss { by_ := by_, ctx := ⟨k.vt, k.core, 0⟩, ea := BitVec.ofNat 64 a, acc := acc, user := user, tval := BitVec.ofNat 64 a }

/-! ### The places of a step (R235, R245, R438, R439, R441) -/

/-- The lines at home of some places. -/
def homeLines (ls : List Loc) : List Nat :=
  (ls.filterMap (fun l => match l with
    | .home pa _ _ => some (pa / 64)
    | _ => none)).dedup

/-- The ports of a vtile's quads at which places lie. -/
def State.portsFor (s : State) (v : VtId) (ls : List Loc) : List QuadId :=
  (ls.filterMap (fun l => match l with
    | .sram a => some (s.portOf v a)
    | _ => none)).dedup

/-- Whether a place lies in a store that a thermal migration moves (R235). -/
def State.engMoving (s : State) (v : VtId) (l : Loc) : Bool :=
  match l with
  | .sram a => (s.movingAt v a).isSome
  | _ => false

/-- Change what the ports hold. -/
def State.mapHeld (s : State) (f : QuadId → Arrival → Bool) : State :=
  s.tiles.foldl (fun (s : State) e => e.2.quads.foldl (fun (s : State) q =>
    if q.2.held.all (f ⟨e.1, q.1⟩) then s
    else s.modQuad ⟨e.1, q.1⟩ (fun x => { x with held := x.held.filter (f ⟨e.1, q.1⟩) })) s) s

/-- Change what granules hold. -/
def State.mapHome (s : State) (f : Nat → Arrival → Bool) : State :=
  { s with homeQ := s.homeQ.foldl (fun m e => NMap.set [] m e.1 (e.2.filter (f e.1))) [] }

/-- An agent holds no place any more. -/
def State.leavePlaces (s : State) (a : Arrival) : State :=
  (s.mapHeld (fun _ b => decide (b.agent ≠ a.agent))).mapHome (fun _ b => decide (b.agent ≠ a.agent))

/-- A step that cannot be performed yet has a place at each port and each granule that it goes to, all taken at once behind
what has arrived there before; a sleeping quad wakes (R245, R441). -/
def State.takePlaces (s : State) (a : Arrival) (qs : List QuadId) (rs : List Arrival) : State :=
  if qs.all (fun q => decide (a.agent ∈ (s.quad q).held)) &&
     rs.all (fun r => decide (r ∈ NMap.get [] s.homeQ (r.line.getD 0 / 1024))) then s
  else
    let s := rs.foldl (fun (s : State) r => s.holdHome (r.line.getD 0 * 64) r) (s.leavePlaces a)
    qs.foldl (fun (s : State) q => s.reachPort q a.agent) s

/-- A step is over, or begins anew: its agent holds no place and no row. -/
def State.endStep (s : State) (a : Arrival) : State :=
  let s := s.leavePlaces a
  { s with rows := s.rows.filter (fun b => decide (b.agent ≠ a.agent)) }

/-- Whether a step of an agent of a partition can be performed now, at some ports and with lines at home (R235, R245, R438,
R439, R441). What it waits for holds it at all of them; a granule that it is the first to write is zeroed first. -/
def State.gate (s : State) (p : Nat) (a : Arrival) (qs : List QuadId) (lines zero : List Nat) : State × Bool :=
  let rs := lines.map (fun l => a.onLine l)
  if !qs.all (fun q => s.portFree q a) || !rs.all (fun r => s.homeHere (r.line.getD 0 * 64) r) then (s.takePlaces a qs rs, false)
  else match zero with
    | g :: r => ((g :: r).foldl State.startZero (s.takePlaces a qs rs), false)
    | [] =>
      let s := s.openRows p rs
      if s.rowsOpen rs then (s.endStep a, true) else (s.takePlaces a qs rs, false)

/-- The granules that writes to places must zero first (R245). -/
def State.engZero (s : State) (ls : List Loc) : List Nat := ls.filterMap (fun l => s.needsZero l)

/-- Read n bytes at home: the value and whether the word or line is poisoned or uncorrectable (R185, R240). -/
def State.engRead (s : State) (v : VtId) (l : Loc) (n : Nat) : Nat × Bool :=
  match l with
  | .sram a => (s.sramBytes v a n, s.sramPois v a)
  | .home pa _ _ =>
    let f := s.homeLine (pa / 64)
    (s.homeBytes pa n, decide (f.pois ≠ 0) || decide (f.bad ≠ 0))
  | .device _ => (0, false)

/-- Write n bytes of a word at home. A whole SRAM word takes the poison given; a part of one keeps poison
and adds it; a heap line written poisoned is poisoned as a whole (R230, R240, R242). -/
def State.engWrite (s : State) (v : VtId) (l : Loc) (n val : Nat) (pois : Bool) : State :=
  match l with
  | .sram a =>
    if n = 8 then s.sramWord64 v a val pois
    else
      let s := s.sramWrite v a n val
      if pois then { s with pois := NSet.ins s.pois (sramWord v a) } else s
  | .home pa _ _ =>
    let s := (s.homeWrite pa n val).fireHome pa n
    if pois then { s with poisLine := NSet.ins s.poisLine (pa / 64) } else s
  | .device _ => s

/-- The lines that places of n bytes each cover whole. -/
def wholeLines (n : Nat) (ls : List Loc) : List Nat :=
  let pas := ls.filterMap (fun l => match l with
    | .home pa _ _ => some pa
    | _ => none)
  (pas.map (· / 64)).dedup.filter (fun l =>
    (List.range (64 / n)).all (fun i => pas.any (fun pa => decide (pa = l * 64 + n * i))))

/-- The SRAM words, by a byte address in each, that places of n bytes each cover whole. -/
def wholeWords (n : Nat) (ls : List Loc) : List Nat :=
  let as := ls.filterMap (fun l => match l with
    | .sram a => some a
    | _ => none)
  ((as.map (· / 8)).dedup.filter (fun w =>
    (List.range (8 / n)).all (fun i => as.any (fun a => decide (a = w * 8 + n * i))))).map (8 * ·)

/-- Lines about to be written whole lose their poison (R242). -/
def State.clearLines (s : State) (ls : List Nat) : State :=
  { s with
    poisLine := s.poisLine.filter (fun l => !ls.any (fun x => decide (x = l)))
    badLine := s.badLine.filter (fun l => !ls.any (fun x => decide (x = l))) }

/-- Words about to be written whole lose their poison (R230). -/
def State.clearWords (s : State) (v : VtId) (as : List Nat) : State :=
  { s with pois := s.pois.filter (fun w => !as.any (fun a => decide (sramWord v a = w))) }

/-- Write values of n bytes each to places, each with its poison. What they cover whole loses its old
poison first. -/
def State.engWrites (s : State) (v : VtId) (n : Nat) (ws : List (Loc × Nat × Bool)) : State :=
  let ls := ws.map (·.1)
  ws.foldl (fun s (l, x, p) => s.engWrite v l n x p)
    ((s.clearLines (wholeLines n ls)).clearWords v (wholeWords n ls))

/-! ### Tokens (R424 to R426) -/

/-- What partition l has lent to others. -/
def State.lent (s : State) (l : Nat) : Bool := (List.range 16).any (fun b => decide (NMap.get 0 (s.part b).debt l ≠ 0))

/-- The partitions that may lend to b (R426). -/
def State.lenders (s : State) (b : Nat) : List Nat :=
  (List.range 16).filter (fun l =>
    let q := s.part l
    decide (l ≠ b) && q.lend && decide (q.rate ≠ 0) && !q.recalled && decide (0 < q.tokens))

/-- Take a shortfall from lenders in ascending order (R426). -/
def State.borrow (b : Nat) : List Nat → Int → State → State
  | [], _, s => s
  | l :: r, need, s =>
    let x := min need (s.part l).tokens
    if need ≤ 0 then s
    else
      let s := s.modPart l (fun q => { q with tokens := q.tokens - x })
      let s := s.modPart b (fun q => { q with
        tokens := q.tokens + x, debt := NMap.set 0 q.debt l (NMap.get 0 q.debt l + x.toNat) })
      let s := s.tally b 9 x.toNat
      State.borrow b r (need - x) s

/-- Charge a step of h heap bytes to a partition (R425): whether it proceeds. -/
def State.charge (s : State) (p h : Nat) : State × Bool :=
  let q := s.part p
  let c : Int := ((h + 63) / 64 : Nat)
  if q.rate = 0 ∨ h = 0 then (s, true)
  else if c ≤ q.tokens then (s.modPart p (fun q => { q with tokens := q.tokens - c }), true)
  else
    let s := if s.lent p then s.modPart p (fun q => { q with recalled := true }) else s
    let ls := s.lenders p
    let avail := ls.foldl (fun a l => a + (s.part l).tokens) (0 : Int)
    if q.tokens < 0 ∨ avail < c - q.tokens then (s, false)
    else ((State.borrow p ls (c - q.tokens) s).modPart p (fun q => { q with tokens := q.tokens - c }), true)

/-- The heap bytes of places of n bytes each. -/
def heapBytes (n : Nat) (ls : List Loc) : Nat :=
  n * (ls.filter (fun l => match l with
    | .home _ _ _ => true
    | _ => false)).length

/-- Reads of n bytes each, as the usage counters see them (R428). -/
def State.tallyReads (s : State) (n : Nat) (ls : List Loc) : State :=
  ls.foldl (fun s l => match l with
    | .home pa _ _ => s.tallyRead pa n
    | _ => s) s

/-- The places of a step of a core's command, once it is paid for (R425) and can be performed (`State.gate`): the state with
the tokens charged and the reads counted, or the state in which the step waits. -/
def State.engGate (s : State) (k : CoreId) (a : Arrival) (n : Nat) (rd wr : List Loc) : State × Bool :=
  let ls := rd ++ wr
  if ls.any (s.engMoving k.vt) then (s.leavePlaces a, false)
  else match (s.charge k.vt.part (heapBytes n ls)) with
    | (s, false) => (s.leavePlaces a, false)
    | (_, true) =>
      match s.gate k.vt.part a (s.portsFor k.vt ls) (homeLines ls) (s.engZero wr) with
      | (s, false) => (s, false)
      | (s, true) => ((s.charge k.vt.part (heapBytes n ls)).1.tallyReads n rd, true)

/-- The message of a held command of a core's queue (R89, R90, R94). -/
def State.engMsg (s : State) (c : CtxId) (core : Nat) (pc : Word) (r : Raise) (kind pos off : Nat) : State :=
  s.offer { s.msgOf c with
    cause := r.cause.code, eng := true, core := core, pc := pc, val := r.tval
    w4 := BitVec.ofNat 64 (kind + pos * 16), w5 := BitVec.ofNat 64 off }

end Sys2Proof.Machine
end

