-- ==== Sys2Proof/Machine/Barrier.lean ====
section
/-! DEFINITION. Barriers, watchdogs and token refills (R414 to R426). -/

namespace Sys2Proof.Machine

/-! ### Generations and arrivals (R414) -/

/-- The generation counter of a scope as a context sees it. -/
def State.gen (s : State) (v : VtId) (q : Nat) (sc : BScope) : Nat :=
  match sc with
  | .quad => NMap.get 0 (s.vtile v).qg q
  | .tile => (s.vtile v).tg
  | .colony => (s.colony v.part v.col).cg
  | .core => 0

/-- The generation counter advances by one. -/
def State.bumpGen (s : State) (v : VtId) (q : Nat) (sc : BScope) : State :=
  let g := (s.gen v q sc + 1) % 2 ^ 32
  match sc with
  | .quad => s.modVt v (fun x => { x with qg := NMap.set 0 x.qg q g })
  | .tile => s.modVt v (fun x => { x with tg := g })
  | .colony => s.modColony v.part v.col (fun x => { x with cg := g })
  | .core => s

/-- ARR of a scope. -/
def Ctx.arr (x : Ctx) (sc : BScope) : Bool :=
  match sc with
  | .quad => x.arrQuad
  | .tile => x.arrTile
  | .colony => x.arrColony
  | .core => false

/-- ARR of a scope := b. -/
def Ctx.setArr (x : Ctx) (sc : BScope) (b : Bool) : Ctx :=
  match sc with
  | .quad => { x with arrQuad := b }
  | .tile => { x with arrTile := b }
  | .colony => { x with arrColony := b }
  | .core => x

/-- The participants of a generation (R21, R415). -/
def State.participants (s : State) (v : VtId) (q : Nat) (sc : BScope) : List CtxId :=
  match sc with
  | .quad => (s.ctxsOf v).filter (fun c => decide (c.quad = q))
  | .tile => s.ctxsOf v
  | .colony => (s.ctxs.filter (fun e => decide (e.1.vt.part = v.part) && decide (e.1.vt.col = v.col) &&
      decide (e.2.st ≠ .empty))).map (·.1)
  | .core => []

/-- `(G − x) mod 2^32 lies in 1 .. 2^31` (R417). -/
def genPassed (g x : Nat) : Bool :=
  let d := (g + 2 ^ 32 - x % 2 ^ 32) % 2 ^ 32
  decide (1 ≤ d) && decide (d ≤ 2 ^ 31)

/-- A context arrives (R417): its ARR is set, and its result register receives the generation. -/
def State.arriveAt (s : State) (c : CtxId) (sc : BScope) (d : Nat) : State :=
  let g := s.gen c.vt c.quad sc
  s.modCtx c (fun x => (x.setArr sc true).wg d (BitVec.ofNat 64 g))

/-- What a completed generation does to one context (R415, R417): a waiter for it goes on; one that waited to
arrive again arrives at the next. -/
def State.releaseOne (s : State) (sc : BScope) (c : CtxId) : State :=
  match (s.ctx c).wait with
  | some (.gen sc' x) => if sc' = sc ∧ genPassed (s.gen c.vt c.quad sc) x then s.complete c else s
  | some (.arrive sc' d both) =>
    if sc' ≠ sc then s
    else
      let g := s.gen c.vt c.quad sc
      let s := s.arriveAt c sc d
      if both then s.modCtx c (fun x => { x with wait := some (.gen sc g) }) else s.complete c
  | _ => s

/-- The generation of a scope completes (R415). -/
def State.endGen (s : State) (v : VtId) (q : Nat) (sc : BScope) : State :=
  let ps := s.participants v q sc
  let s := ps.foldl (fun s c => s.modCtx c (fun x => x.setArr sc false)) (s.bumpGen v q sc)
  ps.foldl (fun s c => s.releaseOne sc c) s

/-- Whether every participant has arrived. -/
def State.allArrived (s : State) (v : VtId) (q : Nat) (sc : BScope) : Bool :=
  let ps := s.participants v q sc
  !ps.isEmpty && ps.all (fun c => (s.ctx c).arr sc)

/-- The check at every arrival and end of a participant (R415). Those that waited to arrive again may complete
the next generation at once, so it is made up to three times. -/
def State.checkGen (v : VtId) (q : Nat) (sc : BScope) : Nat → State → State
  | 0, s => s
  | n + 1, s => if s.allArrived v q sc then State.checkGen v q sc n (s.endGen v q sc) else s

/-- The check for the wired barriers of a context's quad and tile, when it ends or moves. -/
def State.checkWired (s : State) (v : VtId) (q : Nat) : State :=
  State.checkGen v 0 .tile 3 (State.checkGen v q .quad 3 s)

/-- The same for one scope at an arrival; a colony generation completes by the tree (R418). -/
def State.checkScope (s : State) (c : CtxId) (sc : BScope) : State :=
  match sc with
  | .colony => s
  | sc => State.checkGen c.vt c.quad sc 3 s

/-- Whether a colony is co-resident (R23); the curator colony is (R18). -/
def State.coResident (s : State) (p k : Nat) : Bool :=
  (s.colony p k).cores || decide ((s.part p).curcol = k)

/-- Whether a barrier instruction may name a scope (R417). -/
def State.scopeOk (s : State) (sc : BScope) : Bool :=
  match sc with
  | .core => false
  | .quad => true
  | .tile => true
  | .colony => s.coResident s.cur.vt.part s.cur.vt.col

/-- barrier-scope with ctval holding the head. -/
def State.badScope (s : State) : Step := .next (s.stopped s.cur (.cause .barrierScope (s.headAt s.cur)))

/-- `bara`, and `bar` with `both` (R417). -/
def arriveInstr (d : Nat) (sc : BScope) (both : Bool) (s : State) : Step :=
  let c := s.cur
  if !s.scopeOk sc then s.badScope
  else if (s.ctx c).arr sc then .next (s.block c .barrier (.arrive sc d both))
  else
    let g := s.gen c.vt c.quad sc
    let s := s.arriveAt c sc d
    let s := if both then s.block c .barrier (.gen sc g) else s.complete c
    .next (s.checkScope c sc)

/-- `bar` (R417). -/
def execBar (o : Bar) (s : State) : Step := arriveInstr o.d.toNat o.sc true s
/-- `bara` (R417). -/
def execBara (o : Bar) (s : State) : Step := arriveInstr o.d.toNat o.sc false s

/-- `barw` (R417). -/
def execBarw (o : BarW) (s : State) : Step :=
  let c := s.cur
  let x := fld ((s.ctx c).rg o.a.toNat).toNat 0 32
  if !s.scopeOk o.sc then s.badScope
  else if genPassed (s.gen c.vt c.quad o.sc) x then .next (s.complete c)
  else .next (s.block c .barrier (.gen o.sc x))

/-! ### The tree (R414, R418 to R420) -/

/-- The wafer manager clears the mask bits of a tile and of its die for a tree channel (R414). -/
def State.unmaskTile (s : State) (t ch : Nat) : State :=
  let s := s.modTile t (fun x => { x with unmasked := NSet.ins x.unmasked ch })
  { s with dieUnmasked := NMap.set [] s.dieUnmasked (t / 64) (NSet.ins (NMap.get [] s.dieUnmasked (t / 64)) ch) }

/-- The wafer manager sets the mask bit of a tile for a tree channel, and that of its die where no tile of the die stays in
the tree (R414). -/
def State.maskTile (s : State) (t ch : Nat) : State :=
  let s := s.modTile t (fun x => { x with unmasked := NSet.erase x.unmasked ch })
  if s.tiles.any (fun e => decide (e.1 / 64 = t / 64) && NSet.mem e.2.unmasked ch) then s
  else { s with dieUnmasked := NMap.set [] s.dieUnmasked (t / 64) (NSet.erase (NMap.get [] s.dieUnmasked (t / 64)) ch) }

/-- The tile of a placed vtile joins the tree of its colony, where that has a channel. -/
def State.joinTree (s : State) (v : VtId) : State :=
  match (s.colony v.part v.col).tree with
  | some ch => if s.coResident v.part v.col && s.stands v then s.unmaskTile (s.vtile v).ptile ch else s
  | none => s

/-- A tile leaves every tree: its colony has left it (R414). -/
def State.leaveTrees (s : State) (t : Nat) : State :=
  let s := (s.tile t).unmasked.foldl (fun s ch => s.maskTile t ch) s
  s.modTile t (fun x => { x with latch := false })

/-- The latch of a tile follows its vtile's processes (R414): one when each has arrived or there is none; that of a retired
tile, once set, stays until the release (R420). -/
def State.settleLatch (s : State) (t : Nat) : State :=
  match (s.tile t).vtile with
  | none => s
  | some v =>
    if s.running v && s.coResident v.part v.col then
      let b := (s.ctxsOf v).all (fun c => (s.ctx c).arr .colony)
      s.modTile t (fun x => { x with latch := b || (x.retired && x.latch) })
    else s

/-- The AND of a tree channel (R418): over its dies, of the AND over the die's tiles of latch or mask bit. -/
def State.treeAnd (s : State) (ch : Nat) : Bool :=
  s.dieUnmasked.all (fun d => !NSet.mem d.2 ch ||
    s.tiles.all (fun e => decide (e.1 / 64 ≠ d.1) || !NSet.mem e.2.unmasked ch || e.2.latch))

/-- COLONY_TREE_RELEASE (R418): the result of a co-resident colony's tree is one, and some process has arrived; its
generation completes, its waiters are released, the latches are cleared, and the mask bits of tiles that have retired
meanwhile are set (R420). All gangs of the colony are resident and none has reached its stop count (R96). -/
def execColonyTreeRelease (p k : Nat) (s : State) : Step :=
  let v : VtId := ⟨p, k, 0, 0⟩
  let ps := s.participants v 0 .colony
  let whole := s.gangs.all (fun e => decide (e.1.part ≠ p) || decide (e.1.col ≠ k) || decide (e.2.st = .resident))
  match (s.colony p k).tree with
  | none => .next s
  | some ch =>
    if s.coResident p k && whole && ps.all (fun c => s.present c.vt) && ps.any (fun c => (s.ctx c).arr .colony) &&
       s.treeAnd ch then
      let s := s.endGen v 0 .colony
      let mine := (s.tiles.filter (fun e => NSet.mem e.2.unmasked ch)).map (·.1)
      .next (mine.foldl (fun s t =>
        let s := s.modTile t (fun x => { x with latch := false })
        if (s.tile t).retired then s.maskTile t ch else s.settleLatch t) s)
    else .next s

/-! ### Watchdogs (R421, R422) -/

/-- RELOAD of `cwdog`. -/
def Ctx.reload (x : Ctx) : Nat := fld x.cwdog.toNat 32 32
/-- COUNT of `cwdog`. -/
def Ctx.count (x : Ctx) : Nat := fld x.cwdog.toNat 0 32

/-- `cwdog` with a new COUNT. -/
def Ctx.setCount (x : Ctx) (n : Nat) : Ctx := { x with cwdog := BitVec.ofNat 64 (x.reload * 2 ^ 32 + n) }

/-- `wdog` (R422). -/
def execWdog (n : BitVec 16) (s : State) : Step :=
  .next (s.finish (fun x =>
    let r := if n = 0 then x.reload else n.toNat * 1024
    { x with cwdog := BitVec.ofNat 64 (r * 2 ^ 32 + r) }))

/-- WATCHDOG_EXPIRY (R421): COUNT falls from 1 to 0. -/
def execWatchdogExpiry (c : CtxId) (s : State) : Step :=
  let x := s.ctx c
  .next (if x.reload ≠ 0 ∧ x.count = 1 ∧ x.st ≠ .empty ∧ x.st ≠ .parked ∧ s.running c.vt then
      (s.modCtx c (fun x => x.setCount x.reload)).pendCause c .watchdog (BitVec.ofNat 64 x.reload)
    else s)

/-! ### Refills (R425, R426) -/

/-- Settle the recall of one lender. -/
def State.settleRecall (s : State) (l : Nat) : State :=
  if !(s.part l).recalled then s
  else
    let s := (List.range 16).foldl (fun s b =>
      let d := NMap.get 0 (s.part b).debt l
      if d = 0 then s
      else
        let s := s.modPart l (fun q => { q with tokens := max q.tokens (min (q.tokens + d) q.depth) })
        s.modPart b (fun q => { q with tokens := q.tokens - d, debt := NMap.set 0 q.debt l 0 })) s
    s.modPart l (fun q => { q with recalled := false })

/-- Repay what a borrower owes from half of its refill: the state and what was repaid. -/
def State.repay (s : State) (b : Nat) : State × Nat :=
  (List.range 16).foldl (fun (s, paid) l =>
    let d := NMap.get 0 (s.part b).debt l
    let x := min d ((s.part b).rate / 2 - paid)
    if x = 0 then (s, paid)
    else
      let s := s.modPart l (fun q => { q with tokens := max q.tokens (min (q.tokens + x) q.depth) })
      (s.modPart b (fun q => { q with debt := NMap.set 0 q.debt l (d - x) }), paid + x)) (s, 0)

/-- TOKEN_REFILL (R425): a refill boundary, every partition settled in three passes. -/
def execTokenRefill (s : State) : Step :=
  if s.time / 600 ≤ s.refills then .next s
  else
    let s := { s with refills := s.refills + 1 }
    let s := (List.range 16).foldl State.settleRecall s
    let (s, left) := (List.range 16).foldl (fun (s, left) b =>
      let (s, paid) := s.repay b
      (s, left ++ [(s.part b).rate - paid])) (s, ([] : List Nat))
    .next (left.zipIdx.foldl (fun s (x, b) =>
      s.modPart b (fun q => { q with tokens := min (q.tokens + x) q.depth })) s)

end Sys2Proof.Machine
end

