-- ==== Sys2Proof/Machine/Copy.lean ====
section
/-! DEFINITION. Queues I: copy and transform commands (R288 to R295). -/

namespace Sys2Proof.Machine

/-! ### The length-and-mode word (R290) -/

/-- MODE. -/
def cpMode (m : Word) : Nat := fld m.toNat 60 4
/-- LEN of modes 0, 2, 3 and 4. -/
def cpLen (m : Word) : Nat := fld m.toNat 0 40
/-- Rows of mode 1. -/
def cpRows (m : Word) : Nat := fld m.toNat 48 12 + 1
/-- ROWLEN. -/
def cpRowLen (m : Word) : Nat := fld m.toNat 32 16
/-- SPITCH and DPITCH in bytes. -/
def cpSPitch (m : Word) : Int := 8 * sx 16 (fld m.toNat 16 16)
@[inherit_doc cpSPitch]
def cpDPitch (m : Word) : Int := 8 * sx 16 (fld m.toNat 0 16)

/-- R290. -/
def cpModeOk (m : Word) : Bool :=
  if cpMode m = 1 then decide (cpRowLen m % 8 = 0) && decide (8 ≤ cpRowLen m)
  else decide (cpMode m ≤ 4) && decide (fld m.toNat 40 20 = 0) && decide (cpLen m % 8 = 0)

/-- Bytes that the progress offset counts (R293). -/
def cpTotal (m : Word) : Nat := if cpMode m = 1 then cpRows m * cpRowLen m else cpLen m

/-- Bytes of a packed tensor (R292). -/
def packedMax (len : Nat) : Nat := 8 + len + 8 * ((len + 127) / 128)

/-- The ranges of a command as offsets and lengths (R292). -/
def cpRanges (m : Word) (src : Bool) : List (Int × Nat) :=
  let l := cpLen m
  if cpMode m = 1 then
    (List.range (cpRows m)).map (fun (r : Nat) => ((r : Int) * (if src then cpSPitch m else cpDPitch m), cpRowLen m))
  else if cpMode m = 2 then [(0, if src then l else packedMax l)]
  else if cpMode m = 3 then [(0, if src then packedMax l else l)]
  else [(0, l)]

/-- The formats of reduce (R294): width, and the floating-point format where it is one. -/
def reduceFmt (c : Nat) : Option (Nat × Option FFmt) :=
  if c = 0x05 ∨ c = 0x06 then some (32, none) else if c = 0x07 then some (64, none)
  else if c = 0x08 then some (32, some FloatTy.f32.fmt) else if c = 0x09 then some (16, some FloatTy.bf16.fmt)
  else if c = 0x0A then some (16, some FloatTy.h16.fmt) else none

/-- A pointer with the alias window resolved (R229, R292). -/
def absPtr (lc : Nat) (p : Word) : Word := BitVec.ofNat 64 (p.toNat / 2 ^ 48 * 2 ^ 48 + resolve lc (adr p))

/-- The checks of one pointer at push (R291); the device window is refused as either end whatever the length (R232,
R292). -/
def ptrCheck (lc : Nat) (p : Word) (ranges : List (Int × Nat)) : Except Stop Unit :=
  let a := adr (absPtr lc p)
  if !tagOk p then .error (.cause .addressForm p)
  else if adr p % 8 ≠ 0 then .error (.cause .misaligned p)
  else if spaceOf a = .device then .error (.cause .addressForm p)
  else if ranges.all (fun (o, n) =>
      let lo := adr (leaAdd (absPtr lc p) o)
      decide (n = 0) || (engineSpace true (spaceOf a) && sameSpace a lo && decide (lo + n ≤ 2 ^ 48) &&
        sameSpace lo (lo + n - 1))) then .ok ()
  else .error (.cause .addressForm p)

/-- The die whose transform engine serves a vtile (R295). -/
def State.engineOf (s : State) (v : VtId) : Option Nat := (s.tile (s.vtile v).ptile).engine

/-- The checks of a push, in order (R291). -/
def State.copyCheck (s : State) (src dst mode : Word) : Except Stop Unit :=
  if !cpModeOk mode then .error (.cause .operandReserved (s.headAt s.cur))
  else if 2 ≤ cpMode mode ∧ s.engineOf s.cur.vt = none then
    .error (.raise ⟨.engineAbsent, BitVec.ofNat 64 (cpMode mode), 3, 0⟩)
  else if cpMode mode = 4 ∧ reduceFmt (ptrFmt src) = none then .error (.cause .operandReserved src)
  else match ptrCheck s.cur.core src (cpRanges mode true) with
    | .error e => .error e
    | .ok _ => ptrCheck s.cur.core dst (cpRanges mode false)

/-! ### Pushing -/

/-- Begin the wait of the command at the head (R293, R407). -/
def State.startCopy (s : State) (k : CoreId) : State :=
  match (s.core k).copyQ with
  | [] => s
  | q :: _ =>
    let s := s.modCore k (fun x => { x with
      copyPhase := .enqueued, copyOff := 0, copyOut := 0, copyN := 0, copyBad := false })
    s.joinSem k ⟨q.sig.wsem.toNat, .copy, q.sig.wthr.toNat, true⟩

/-- Append a command. -/
def State.pushCopy (s : State) (k : CoreId) (q : CopyCmd) : State :=
  let s := s.modCore k (fun x => { x with copyQ := x.copyQ ++ [q] })
  if (s.core k).copyQ.length = 1 then s.startCopy k else s

/-- Admit blocked pushes in the order in which they blocked (R291). -/
def State.admitCopy (k : CoreId) : Nat → State → State
  | 0, s => s
  | n + 1, s =>
    let x := s.core k
    match x.copyBlocked with
    | [] => s
    | j :: r =>
      if x.copyHeld ∨ 8 ≤ x.copyQ.length then s
      else
        let c : CtxId := ⟨k.vt, k.core, j⟩
        let s := s.putCore k { x with copyBlocked := r }
        let s := match (s.ctx c).wait with
          | some (.copyPush q) => (s.pushCopy k q).complete c
          | _ => s
        State.admitCopy k n s

/-- The command of a push (R288). -/
def State.copyCmd (s : State) (a b c : GReg) (sig : Sig) : CopyCmd :=
  let x := s.ctx s.cur
  let p (r : GReg) : Word := absPtr s.cur.core (x.rg r.toNat)
  { src := p a, dst := p b, mode := x.rg c.toNat, sig := sig, slot := s.cur.slot, core := s.cur.core
    pc := x.pc, user := !x.priv }

/-- Check and release, then `f` (R291). -/
def State.copyPushed (s : State) (a b c : GReg) (f : State → State) : Step :=
  let x := s.ctx s.cur
  .next (s.orStop (s.copyCheck (x.rg a.toNat) (x.rg b.toNat) (x.rg c.toNat))
    (fun _ => s.afterRelease s.cur true f))

/-- `cpq` (R291). -/
def execCpq (o : Cpq) (s : State) : Step :=
  let q := s.copyCmd o.a o.b o.c o.sig
  let k := s.cur.coreId
  s.copyPushed o.a o.b o.c (fun s =>
    if (s.core k).copyHeld ∨ 8 ≤ (s.core k).copyQ.length ∨ (s.core k).copyBlocked ≠ [] then
      let s := s.block s.cur .queueFull (.copyPush q)
      s.modCore k (fun x => { x with copyBlocked := x.copyBlocked ++ [s.cur.slot] })
    else (s.pushCopy k q).complete s.cur)

/-- `cpqt` (R291). -/
def execCpqt (o : Cpqt) (s : State) : Step :=
  let q := s.copyCmd o.a o.b o.c o.sig
  let k := s.cur.coreId
  s.copyPushed o.a o.b o.c (fun s =>
    let x := s.core k
    if 8 ≤ x.copyQ.length then s.finish (fun y => y.wg o.d.toNat 1)
    else if x.copyHeld then s.finish (fun y => y.wg o.d.toNat 2)
    else (s.pushCopy k q).finish (fun y => y.wg o.d.toNat 0))

/-! ### Running (R293, R294) -/

/-- The context that pushed a command; an extension move takes it along (R26). -/
def CopyCmd.ctx (q : CopyCmd) (k : CoreId) : CtxId := ⟨k.vt, q.core, q.slot⟩

/-- Take a core's command out of its engine's queue (R295). -/
def State.leaveDie (s : State) (k : CoreId) : State :=
  { s with dieQ := s.dieQ.map (fun (d, l) => (d, l.filter (fun x => decide (x ≠ k)))) }

/-- The head command stops at its offset, the FIFO is held and the curator is told (R94, R293); a transform command keeps
its place in the queue of its engine (R301). -/
def State.holdCopy (s : State) (k : CoreId) (q : CopyCmd) (r : Raise) : State :=
  let off := (s.core k).copyOff
  (s.modCore k (fun x => { x with copyHeld := true })).engMsg (q.ctx k) k.core q.pc r
    (if 2 ≤ cpMode q.mode then 3 else 1) 0 off

/-- The head command completes: its signal, then the next head (R293). -/
def State.endCopy (s : State) (k : CoreId) (q : CopyCmd) : State :=
  let s := (s.leaveDie k).modCore k (fun x => { x with copyQ := x.copyQ.drop 1 })
  let s := if q.sig.sinc = 0 then s
    else s.semAdd k q.sig.ssem.toNat q.sig.sinc.toNat (if q.alive then some (q.ctx k) else none)
  s.startCopy k

/-- Advance the offset, and complete at the end. -/
def State.stepCopy (s : State) (k : CoreId) (q : CopyCmd) (n : Nat) : State :=
  let s := s.modCore k (fun x => { x with copyOff := x.copyOff + n })
  if (s.core k).copyOff = cpTotal q.mode then s.endCopy k q else s

/-- A step's access has no place: its cause holds the FIFO (R94), or the walker ends its miss first (R363). -/
def State.copyStop (s : State) (k : CoreId) (q : CopyCmd) (e : EngStop) : State :=
  match e with
  | .fault r => (s.endStep (.copy k 0)).holdCopy k q r
  | .miss a acc => (s.leavePlaces (.copy k 0)).engMiss k .copy q.user a acc

/-- The words of a step: places, once translated, reachable and paid for. Anything that is missing leaves the
step for later; page-absent and permission hold the FIFO. -/
def State.withWords (s : State) (k : CoreId) (q : CopyCmd) (srcs dsts : List Word)
    (f : State → List Loc → List Loc → State) : State :=
  match s.engPlaces k q.user true 8 .read srcs, s.engPlaces k q.user true 8 .write dsts with
  | .error e, _ => s.copyStop k q e
  | .ok _, .error e => s.copyStop k q e
  | .ok ls, .ok ms =>
    match s.engGate k (.copy k 0) 8 ls ms with
    | (s, false) => s
    | (s, true) => f s ls ms

/-- Addresses of the words of a step of n bytes from offset o. -/
def wordAddrs (p : Word) (o n : Nat) : List Word := (List.range (n / 8)).map (fun (i : Nat) => leaAdd p (o + 8 * i))

/-- The same for mode 1, whose rows are taken in row-major order (R293). -/
def rowAddrs (p : Word) (m : Word) (pitch : Int) (o n : Nat) : List Word :=
  (List.range (n / 8)).map (fun (i : Nat) =>
    let b := o + 8 * i
    leaAdd p ((b / cpRowLen m : Nat) * pitch + (b % cpRowLen m : Nat)))

/-- One step of a core's head command. -/
def State.copyOnce (s : State) (k : CoreId) : State :=
  let x := s.core k
  match x.copyQ with
  | [] => s
  | q :: _ =>
    if x.copyPhase ≠ .fetch ∨ x.copyHeld ∨ 2 ≤ cpMode q.mode ∨ !s.runs k then s
    else
      let n := min 128 (cpTotal q.mode - x.copyOff)
      let (ss, ds) := if cpMode q.mode = 1 then
          (rowAddrs q.src q.mode (cpSPitch q.mode) x.copyOff n, rowAddrs q.dst q.mode (cpDPitch q.mode) x.copyOff n)
        else (wordAddrs q.src x.copyOff n, wordAddrs q.dst x.copyOff n)
      s.withWords k q ss ds (fun s ls ms =>
        (s.engWrites k.vt 8 (ms.zip (ls.map (fun l => s.engRead k.vt l 8)))).stepCopy k q n)

/-- The place of a core in its quad. -/
def State.quadPos (s : State) (k : CoreId) : Nat := (s.vtile k.vt).lpct.getD k.core k.core % 4

/-- A transform command whose wait is satisfied enters the queue of the engine its tile names, if there is room
(R295). -/
def State.enterDie (s : State) (k : CoreId) : State :=
  let x := s.core k
  match x.copyQ, s.engineOf k.vt with
  | q :: _, some d =>
    if x.copyPhase ≠ .fetch ∨ x.copyHeld ∨ cpMode q.mode < 2 ∨ !s.runs k then s
    else
      let l := AMap.get [] s.dieQ d
      if k ∈ l ∨ 32 ≤ l.length then s else { s with dieQ := AMap.put s.dieQ d (l ++ [k]) }
  | _, _ => s

/-- A transform step: of the commands in the queue of the engine its tile names (R295), which it enters if there is room, it
is the first whose core's FIFO is not held: a held command holds up its own FIFO alone (R301, R303). -/
def State.transform (s : State) (k : CoreId) (mode : Nat) (f : State → Core → CopyCmd → State) : State :=
  let x := s.core k
  match x.copyQ with
  | [] => s
  | q :: _ =>
    if x.copyPhase ≠ .fetch ∨ x.copyHeld ∨ cpMode q.mode ≠ mode ∨ !s.runs k then s
    else match s.engineOf k.vt with
      | none => s.holdCopy k q ⟨.engineAbsent, BitVec.ofNat 64 mode, 0, 0⟩
      | some d =>
        let l := AMap.get [] s.dieQ d
        let l := if k ∈ l ∨ 32 ≤ l.length then l else l ++ [k]
        let s := { s with dieQ := AMap.put s.dieQ d l }
        if l.find? (fun j => !(s.core j).copyHeld) = some k then f s x q else s

/-- The mask of a block's non-zero words (R294). -/
def packMask (ws : List Nat) : Nat := (ws.zipIdx).foldl (fun m (w, i) => if w = 0 then m else m + 2 ^ i) 0

/-- PACK_STEP (R294): one source block. Word 0 is written with the last block. -/
def execPackStep (k : CoreId) (s : State) : Step :=
  .next (s.transform k 2 (fun s x q =>
    let n := min 128 (cpLen q.mode - x.copyOff)
    let last := decide (x.copyOff + n = cpLen q.mode)
    let srcs := wordAddrs q.src x.copyOff n
    if n = 0 then s.endCopy k q
    else
      -- the block's words decide how many words it writes
      match s.engPlaces k q.user true 8 .read srcs with
      | .error e => s.copyStop k q e
      | .ok ls =>
        let rd := ls.map (fun l => s.engRead k.vt l 8)
        let ws := rd.map (·.1)
        let pois := rd.any (·.2)
        let out := packMask ws :: ws.filter (fun w => decide (w ≠ 0))
        let dsts := wordAddrs q.dst (8 + x.copyOut) (8 * out.length) ++ (if last then [q.dst] else [])
        s.withWords k q srcs dsts (fun s _ ms =>
          let total := x.copyOut + 8 * out.length
          let vals := out.map (fun w => (w, pois)) ++ (if last then [(total, false)] else [])
          let s := s.engWrites k.vt 8 (ms.zip vals)
          (s.modCore k (fun y => { y with copyOut := total })).stepCopy k q n)))

/-- The words of a block that a mask keeps. -/
def unpackWords : List Nat → Nat → Nat → List Nat
  | _, _, 0 => []
  | ws, m, n + 1 => if m % 2 = 1 then ws.headD 0 :: unpackWords (ws.drop 1) (m / 2) n else 0 :: unpackWords ws (m / 2) n

/-- UNPACK_STEP (R294): one block. Malformed input poisons its output block and every later byte. -/
def execUnpackStep (k : CoreId) (s : State) : Step :=
  .next (s.transform k 3 (fun s x q =>
    let n := min 128 (cpLen q.mode - x.copyOff)
    let dsts := wordAddrs q.dst x.copyOff n
    if n = 0 then s.endCopy k q
    else
      let spoil (srcs : List Word) (s : State) : State := s.withWords k q srcs dsts (fun s _ ms =>
        ((s.engWrites k.vt 8 (ms.map (fun m => (m, 0, true)))).modCore k
          (fun y => { y with copyBad := true })).stepCopy k q n)
      -- word 0 gives N at the first block, and N alone may show that a block's header lies past the end
      let len := if x.copyOff = 0 then [q.src] else []
      let head := leaAdd q.src (8 + x.copyOut)
      if x.copyBad then spoil [] s
      else match s.engPlaces k q.user true 8 .read len with
      | .error e => s.copyStop k q e
      | .ok ls =>
        let w0 := (ls.map (fun l => s.engRead k.vt l 8)).headD (x.copyN, false)
        let N := w0.1
        if w0.2 ∨ N < x.copyOut + 8 then spoil len s
        else match s.engPlaces k q.user true 8 .read [head] with
        | .error e => s.copyStop k q e
        | .ok hs =>
          let (h, hp) := (hs.map (fun l => s.engRead k.vt l 8)).headD (0, false)
          let cnt := popN h 16
          if N < x.copyOut + 8 + 8 * cnt ∨ 2 ^ (n / 8) ≤ h then spoil (len ++ [head]) s
          else
            let srcs := len ++ wordAddrs q.src (8 + x.copyOut) (8 + 8 * cnt)
            s.withWords k q srcs dsts (fun s ws ms =>
              let rd := (ws.drop (len.length + 1)).map (fun l => s.engRead k.vt l 8)
              let pois := hp || rd.any (·.2)
              let vals := (unpackWords (rd.map (·.1)) h (n / 8)).map (fun w => (w, pois))
              ((s.engWrites k.vt 8 (ms.zip vals)).modCore k
                (fun y => { y with copyN := N, copyOut := x.copyOut + 8 + 8 * cnt })).stepCopy k q n)))

/-- The sum of two words, element by element (R294). -/
def reduceWord (w : Nat) (f : Option FFmt) (a b : Nat) : Nat :=
  (List.range (64 / w)).foldl (fun acc i =>
    let x := fld a (w * i) w
    let y := fld b (w * i) w
    let r := match f with
      | none => (x + y) % 2 ^ w
      | some f => (farith .add f x y 0 .rne false 0).1
    acc + r * 2 ^ (w * i)) 0

/-- REDUCE_STEP (R294): 128 bytes of dst := dst + src. -/
def execReduceStep (k : CoreId) (s : State) : Step :=
  .next (s.transform k 4 (fun s x q =>
    let n := min 128 (cpLen q.mode - x.copyOff)
    let dsts := wordAddrs q.dst x.copyOff n
    if n = 0 then s.endCopy k q
    else match reduceFmt (ptrFmt q.src) with
      | none => s.endCopy k q
      | some (w, f) =>
        s.withWords k q (wordAddrs q.src x.copyOff n ++ dsts) dsts (fun s ls ms =>
          let rd := ls.map (fun l => s.engRead k.vt l 8)
          let pois := rd.any (·.2)
          let vals := ((rd.take (n / 8)).zip (rd.drop (n / 8))).map (fun (a, b) => (reduceWord w f b.1 a.1, pois))
          (s.engWrites k.vt 8 (ms.zip vals)).stepCopy k q n)))

end Sys2Proof.Machine
end

