-- ==== Sys2Proof/Machine/Net.lean ====
section
/-! DEFINITION. Packets between network interfaces, the park queue, tile-absent messages and summonses (R323,
R351 to R353, R379). -/

namespace Sys2Proof.Machine

/-! ### Gangs and their tiles -/

/-- The gangs of a colony. -/
def State.gangsOf (s : State) (p k : Nat) : List GangId :=
  (s.gangs.filter (fun e => decide (e.1.part = p) && decide (e.1.col = k))).map (·.1)

/-- What the scheduler moves with a gang: the whole of a co-resident colony (R23, R351). -/
def State.unitOf (s : State) (g : GangId) : List GangId :=
  if (s.colony g.part g.col).cores ∨ (s.part g.part).curcol = g.col then s.gangsOf g.part g.col else [g]

/-- The run-queue entry of a gang: its colony, and its number unless the colony is co-resident (R351). -/
def State.entryOf (s : State) (g : GangId) : Nat × Option Nat :=
  (g.col, if (s.colony g.part g.col).cores ∨ (s.part g.part).curcol = g.col then none else some g.gang)

/-- The gangs of a run-queue entry. -/
def State.entryGangs (s : State) (p : Nat) (e : Nat × Option Nat) : List GangId :=
  match e.2 with
  | some g => [⟨p, e.1, g⟩]
  | none => s.gangsOf p e.1

/-- The vtiles of some gangs. -/
def State.vtilesOf (s : State) (gs : List GangId) : List VtId :=
  (s.vtiles.filter (fun e => e.2.exist && gs.any (fun g => decide (e.1.part = g.part) &&
    decide (e.1.col = g.col) && decide (e.2.gang = g.gang)))).map (·.1)

/-- The tiles of a partition that gangs may use: working, less the curator's (R3, R18). -/
def State.gangTiles (s : State) (p : Nat) : List Nat :=
  (s.tiles.filter (fun e => decide (e.2.owner = some p) && e.2.working && !e.2.retired &&
    !(s.part p).curTiles.any (fun t => decide (t = e.1)))).map (·.1)

/-- The tiles by which a unit exceeds the partition's tiles for gangs (R28, R104). -/
def State.shortfall (s : State) (p : Nat) (u : List GangId) : Nat :=
  (s.vtilesOf u).length - (s.gangTiles p).length

/-- Put a run-queue entry at the tail, or at the head. -/
def State.enqueue (s : State) (p : Nat) (e : Nat × Option Nat) (head : Bool) : State :=
  let s := s.modPart p (fun q =>
    let rest := q.runq.filter (fun x => decide (x ≠ e))
    { q with runq := if head then e :: rest else rest ++ [e] })
  (s.entryGangs p e).foldl (fun s g => s.modGang g (fun x => { x with st := .queued, summoned := false })) s

/-- A summons (R352 to R354): whether SUM is set. -/
def State.summon (s : State) (g : GangId) : State × Bool :=
  let u := s.unitOf g
  let mark (s : State) : State := u.foldl (fun s g => s.modGang g (fun x => { x with summoned := true })) s
  let c := s.colony g.part g.col
  if !c.live ∨ (s.part g.part).curcol = g.col ∨ u.any (fun g => decide ((s.gang g).st = .lost)) then (s, false)
  else if s.treeWait.any (fun w => decide (w = (g.part, g.col))) then (s, false)
  else if u.any (fun g => (s.gang g).stopping) then (mark s, true)
  else if u.any (fun g => decide ((s.gang g).st ≠ .absent)) then (s, false)
  else if s.shortfall g.part u ≠ 0 then (mark s, true)
  else if (s.part g.part).state = 2 then
    (s.modPart g.part (fun q => { q with heldSummons := q.heldSummons ++ [g] }), true)
  else (s.enqueue g.part (s.entryOf g) false, true)

/-! ### Packets -/

/-- The traffic code of a packet that raises tile-absent when it parks (R90, R323). -/
def Packet.traffic (k : Packet) : Option Nat :=
  match k.body with
  | .offer (.bulk _ _) => some 1
  | .offer _ => some 0
  | .start _ => some 1
  | .forager _ _ => some 2
  | _ => none

/-- tile-absent for traffic to a vtile (R78, R90, R323), with the summons of the colony's policy. -/
def State.tileAbsent (s : State) (dst : PortId) (c : Option CtxId) (traffic pos : Nat) : State :=
  let g := s.gangOf dst.vt
  let lost := decide ((s.gang g).st = .lost)
  let (s, sum) := if (s.colony g.part g.col).summon then (s, false) else s.summon g
  let w := BitVec.ofNat 64 (dst.vt.x + dst.vt.y * 2 ^ 16 + (if traffic = 2 then 0 else dst.port) * 2 ^ 32)
  let m : Msg := match c with
    | some c => { s.msgOf c with pc := (s.ctx c).pc }
    | none => { part := dst.vt.part, col := dst.vt.col }
  s.offer { m with
    cause := Cause.tileAbsent.code, kind := 1, sum := sum, lost := lost, val := w, w4 := w
    w5 := BitVec.ofNat 64 (traffic + pos * 2 ^ 32) }

/-- A partition's forager count changes by one (R320). -/
def State.countForager (s : State) (p : Nat) : State := s.modPart p (fun q => { q with fcount := q.fcount + 1 })

/-- Whether the park queue of a partition has room (R323). -/
def State.parkRoom (s : State) (p : Nat) : Bool := decide ((s.part p).parkQ.length < (s.part p).parkcap)

/-! ### Translation of vtile numbers (R379) -/

/-- The set of an NI translation cache that a vtile maps to: 256 sets of four (the model's index, log entry 84). -/
def niSet (v : VtId) : Nat := (v.x + 16 * v.y + 64 * v.col + v.part) % 256

/-- An entry is installed in an NI translation cache; where its set is full the oldest of the set makes room. -/
def niPut (l : List NiEntry) (e : NiEntry) : List NiEntry :=
  let rest := l.filter (fun x => decide (x.vt ≠ e.vt))
  let set := rest.filter (fun x => decide (niSet x.vt = niSet e.vt))
  e :: (if set.length < 4 then rest else match set.getLast? with
    | some o => rest.filter (fun x => decide (x.vt ≠ o.vt))
    | none => rest)

/-- A tile's NI translates a vtile: a miss reads the vtile map and installs the result. -/
def State.translateVt (s : State) (t : Nat) (v : VtId) : State × Option Nat :=
  match (s.tile t).ni.find? (fun e => decide (e.vt = v)) with
  | some e => (s, e.tile)
  | none =>
    let r := if s.present v then some (s.vtile v).ptile else none
    (s.modTile t (fun x => { x with ni := niPut x.ni ⟨v, r⟩ }), r)

/-- Some vtiles leave every NI of the device. -/
def State.forgetVts (s : State) (vs : List VtId) : State :=
  s.tiles.foldl (fun (s : State) e =>
    if e.2.ni.any (fun x => vs.any (fun v => decide (v = x.vt))) then
      s.modTile e.1 (fun x => { x with ni := x.ni.filter (fun y => !vs.any (fun v => decide (v = y.vt))) })
    else s) s

/-- Whether a tile serves a vtile, as the NI of the tile compares it with the destination of a packet. -/
def State.serves (s : State) (t : Nat) (v : VtId) : Bool := decide ((s.tile t).vtile = some v) && s.present v

/-- The system granules of a partition that n bytes need (R238): as many as they fill, the lowest first. -/
def State.sysRange (s : State) (p n : Nat) : List Nat :=
  (((s.granules.filter (fun e => e.2.getLsbD 7 && e.2.getLsbD 4 && decide (fld e.2.toNat 0 4 = p))).map (·.1))).take
    ((n + 65535) / 65536)

/-- n bytes are written to the system granules of a partition (R238, R245): those that they need are zeroed first, and the
bytes are charged (R428). What the queues and save areas hold is state of its own. -/
def State.sysWrite (s : State) (p n : Nat) : State :=
  match s.sysRange p n with
  | [] => s
  | g :: r => ((g :: r).foldl (fun (s : State) g => if s.cleared g then s.zeroGranule g else s) s).tallyHbm g 6 n

/-- n bytes of the system granules of a partition are read: they are charged, unless the granules are cleared (R245, R428). -/
def State.sysRead (s : State) (p n : Nat) : State :=
  match s.sysRange p n with
  | [] => s
  | g :: _ => if s.cleared g then s else s.tallyHbm g 5 n

/-- A packet goes to the park queue (R323); a forager counts from then on (R320). -/
def State.parkPacket (s : State) (k : Packet) : State :=
  let p := k.dst.vt.part
  let pos := (s.part p).parkQ.length
  let s := (s.modPart p (fun q => { q with parkQ := q.parkQ ++ [k] })).sysWrite p 128
  let s := match k.body with
    | .forager _ _ => s.countForager p
    | _ => s
  match k.traffic with
  | some t => s.tileAbsent k.dst k.ctx t pos
  | none => s

/-- The NI of a vtile's tile translates the destination of a packet (R379): the packet injected towards a tile, or waiting
at its source NI while the park queue is full (R323); `none` where it parks. -/
def State.inject (s : State) (k : Packet) : Option State :=
  let (s, t) := s.translateVt (s.vtile k.src.vt).ptile k.dst.vt
  match t with
  | some t => some { s with net := s.net ++ [{ k with tile := t, waits := false }] }
  | none => if s.parkRoom k.dst.vt.part then none else some { s with net := s.net ++ [{ k with waits := true }] }

/-- A network interface sends a packet (R307, R323): parked where the vtile is absent, refused where no such
vtile lives. -/
def State.send (s : State) (k : Packet) : State :=
  if !(s.vtile k.dst.vt).exist then
    match k.body with
    | .offer _ => { s with net := s.net ++ [{ src := k.dst, dst := k.src, body := .refuse, tile := (s.vtile k.src.vt).ptile }] }
    | _ => s
  else match s.inject k with
    | some s => s
    | none => s.parkPacket k

/-- The packets for a port that are under way, oldest first. -/
def State.headTo (s : State) (p : PortId) : Option Packet :=
  s.net.find? (fun k => decide (k.dst = p) && (match k.body with
    | .forager _ _ => false
    | _ => true))

/-- Take a packet out of the network. -/
def State.dropPacket (s : State) (k : Packet) : State :=
  { s with net := dropFirst (fun x => decide (x = k)) s.net }

/-- Every packet on its way: in the network, in a save buffer, or parked. -/
def State.flying (s : State) : List Packet :=
  s.net ++ s.tiles.flatMap (fun e => e.2.saveBuf) ++ s.parts.flatMap (fun e => e.2.parkQ)

/-- Packets are taken back or changed, wherever they are on their way. -/
def State.mapFlying (s : State) (f : List Packet → List Packet) : State :=
  let s := { s with net := f s.net }
  let s := s.tiles.foldl (fun (s : State) e =>
    if e.2.saveBuf = [] then s else s.modTile e.1 (fun x => { x with saveBuf := f x.saveBuf })) s
  s.parts.foldl (fun (s : State) e =>
    if e.2.parkQ = [] then s else s.modPart e.1 (fun x => { x with parkQ := f x.parkQ })) s

/-- Whether a packet does not arrive anywhere now: it waits at its source NI, or a router holds it for a flush (R97, R323). -/
def Packet.stays (k : Packet) : Bool := k.waits || k.router.isSome

/-- Whether a packet that arrives is delivered: its tile serves the vtile (R379). -/
def State.lands (s : State) (k : Packet) : Bool := s.serves k.tile k.dst.vt

end Sys2Proof.Machine
end

