-- ==== Sys2Proof/Machine/Channels.lean ====
section
/-! DEFINITION. Queues II: ports and rendezvous, bulk transfers, `alt`, `vsift` and foragers (R304 to R325). -/

namespace Sys2Proof.Machine

/-! ### Ports -/

/-- A port. -/
def State.port (s : State) (p : PortId) : Port := AMap.get {} (s.vtile p.vt).ports p.port
/-- Change a port. -/
def State.modPort (s : State) (p : PortId) (f : Port → Port) : State :=
  s.modVt p.vt (fun v => { v with ports := AMap.put v.ports p.port (f (AMap.get {} v.ports p.port)) })

/-- OWNER as R304 lays it out. -/
def ownerCode (c : CtxId) : Nat := c.core + c.slot * 64
/-- The context that OWNER names. -/
def ownerCtx (v : VtId) (n : Nat) : CtxId := ⟨v, n % 64, n / 64⟩

/-- Whether a vtile belongs to the curator colony (R88). -/
def State.curatorVt (s : State) (v : VtId) : Bool := decide ((s.part v.part).curcol = v.col)

/-- The port with nothing held and no owner. -/
def Port.idle (x : Port) : Port :=
  { x with st := .idle, owner := 0, held := none, pending := 0, gone := false, partner := none, bulk := none }

/-- A notice that its sender has withdrawn is gone, and a commitment on it is cancelled (R307, R316). -/
def State.clearGone (s : State) (p : PortId) : State :=
  let x := s.port p
  if !x.gone then s
  else
    let s := if x.st = .commit then s.modCtx (ownerCtx p.vt x.owner) (fun c => { c with commit := none }) else s
    s.modPort p Port.idle

/-- The checks of R305 in order; `alt` gives no kind and no count. -/
def State.checkPort (s : State) (c : CtxId) (q : Nat) (kind : Option (Dir × Option Nat)) : Except Stop Unit :=
  let x := s.port ⟨c.vt, q⟩
  let misuse (n : Nat) : Except Stop Unit := .error (.cause .channelMisuse (BitVec.ofNat 64 n))
  let five : Except Stop Unit := match (s.ctx c).commit with
    | some k => if k ≠ q ∨ kind = none then misuse k else .ok ()
    | none => .ok ()
  if q = 255 then
    if !s.curatorVt c.vt then misuse q
    else match kind with
      | none => five
      | some (.inp, n) => if n = some 8 then five else misuse q
      | some (.out, n) => if n = some 8 then five else misuse q
      | some _ => misuse q
  else if !x.decl then misuse q
  else
    let kindOk := match kind with
      | none => true
      | some (d, n) => decide (x.dir = d) && (match n with
        | some n => decide (x.width = n)
        | none => true)
    if !kindOk then misuse q
    else if (x.st = .own ∨ x.st = .commit ∨ x.st = .move) ∧ x.owner ≠ ownerCode c then misuse q
    else five

/-- Whether the channel permission table lets a vtile send to another (R306, R382). -/
def State.mayPeer (s : State) (v w : VtId) : Bool :=
  (decide (v.part = w.part) && decide (v.col = w.col)) ||
  (s.vtile v).perms.any (fun e =>
    let e := e.2.toNat
    decide (fld e 0 1 = 1) && decide (fld e 16 4 = w.part) &&
    (decide (fld e 1 1 = 1) || decide (fld e 8 6 = w.col)))

/-- R306, for an offer on port q. Word 5 of channel-denied is the peer's port (the model's reading, log entry 76). -/
def State.checkPeer (s : State) (c : CtxId) (q : Nat) : Except Stop Unit :=
  let d := (s.port ⟨c.vt, q⟩).peer
  if q = 255 ∨ s.mayPeer c.vt d.vt then .ok ()
  else .error (.raise ⟨.channelDenied, BitVec.ofNat 64 q,
    BitVec.ofNat 64 (d.vt.x + d.vt.y * 2 ^ 16 + d.vt.part * 2 ^ 32 + d.vt.col * 2 ^ 40), BitVec.ofNat 64 d.port⟩)

/-! ### Sending and receiving -/

/-- The own sending instruction issues (R307): the port is OWN from then on, also while its release goes on before the offer
leaves (R309; the model's reading, log entry 32). -/
def State.claim (s : State) (c : CtxId) (q : Nat) : State :=
  let p : PortId := ⟨c.vt, q⟩
  let s := s.clearGone p
  let s := s.modCtx c (fun x => if x.commit = some q then { x with commit := none } else x)
  s.modPort p (fun x => { x.idle with st := .own, owner := ownerCode c })

/-- The offer of a sending instruction leaves for the peer, and the context blocks (R307). -/
def State.offerOn (s : State) (c : CtxId) (q : Nat) (n : Notice) (w : Wait) : State :=
  let p : PortId := ⟨c.vt, q⟩
  let s := s.claim c q
  let b : Option Bulk := match n with
    | .bulk ptr len => some { src := ptr, dst := 0, len := len.toNat, clip := false }
    | _ => none
  let s := s.modPort p (fun x => { x with bulk := b })
  (s.block c .channel w).send { src := p, dst := (s.port p).peer, body := .offer n, ctx := some c }

/-- The own receiving instruction issues with nothing held (R307): the ready notice goes to the peer unless the
permission table refuses it (R306). -/
def State.noticeOn (s : State) (c : CtxId) (q : Nat) (n : Notice) (w : Wait) : State :=
  let p : PortId := ⟨c.vt, q⟩
  let b : Option Bulk := match n with
    | .bready ptr _ => some { src := 0, dst := ptr, len := 0, clip := false }
    | _ => none
  let s := s.modPort p (fun x => { x.idle with st := .own, owner := ownerCode c, bulk := b })
  let s := s.block c .channel w
  let d := (s.port p).peer
  if s.mayPeer c.vt d.vt then s.send { src := p, dst := d, body := .ready n, ctx := some c } else s

/-- Consecutive registers from r on (R309). -/
def Ctx.rgs (x : Ctx) (r n : Nat) : List Word := (List.range n).map (fun i => x.rg (r + i))
/-- Write consecutive registers from r on. -/
def Ctx.wgs (x : Ctx) (r : Nat) (ws : List Word) : Ctx := ws.zipIdx.foldl (fun x (w, i) => x.wg (r + i) w) x

/-- The ctval of a poisoned message on port p (R325). -/
def poisonVal (p : Nat) : Word := BitVec.ofNat 64 (2 ^ 64 - 256 + p)

/-- A register message has been taken by a context (R309, R325): its registers, its acquire, its completion; a
poisoned one writes nothing and raises poison-consumed. -/
def State.received (s : State) (c : CtxId) (q r : Nat) (ws : List Word) (poison : Bool) : State :=
  if poison then s.raise c ⟨.poisonConsumed, poisonVal q, 0, 0⟩
  else (s.modCtx c (fun x => x.wgs r ws)).completeAcquire c

/-- The acknowledgement of a rendezvous taken at port p. -/
def State.acknowledge (s : State) (p : PortId) : State := s.send { src := p, dst := (s.port p).peer, body := .ack }

/-- The first message of a partition's fault queue for a curator vtile (R88, R376). -/
def State.nextMsg (s : State) (v : VtId) : Option Msg :=
  (s.part v.part).faultQ.find? (fun m => decide ((s.colony v.part m.col).faultVt = (v.x, v.y)))

/-- Take a message out of the fault queue: its words are read from a system granule (R238, R428). -/
def State.dropMsg (s : State) (p : Nat) (m : Msg) : State :=
  (s.modPart p (fun q => { q with faultQ := dropFirst (fun x => decide (x = m)) q.faultQ })).sysRead p 64

/-! ### chs and chr -/

/-- A sending instruction that has passed its checks takes its port (R307); port 255 has none to take. -/
def State.claimed (s : State) (c : CtxId) (q : Nat) : State := if q = 255 then s else s.claim c q

/-- `chs` (R309); on port 255 of a curator vtile the words go to the fault agent (R91, R310). One that has issued only waits
for its release. -/
def execChs (o : ChReg) (s : State) : Step :=
  let c := s.cur
  let q := o.port.toNat
  let n := o.nM1.toNat + 1
  let ws := (s.ctx c).rgs o.r.toNat n
  let send (s : State) : State := s.afterRelease c true (fun s =>
    if q = 255 then
      (s.block c .channel (.chs q)).modPart c.vt.part (fun p => { p with cmdQ := p.cmdQ ++ [(c, ws)] })
    else s.offerOn c q (.offer ws false) (.chs q))
  .next (if (s.ctx c).going then send s
    else s.orStop (s.checkPort c q (some (.out, some n))) (fun _ =>
      s.orStop (s.checkPeer c q) (fun _ => send (s.claimed c q))))

/-- `chr` (R309, R310). -/
def execChr (o : ChReg) (s : State) : Step :=
  let c := s.cur
  let q := o.port.toNat
  let n := o.nM1.toNat + 1
  let r := o.r.toNat
  let w : Wait := .chr q r n
  .next (s.orStop (s.checkPort c q (some (.inp, some n))) (fun _ =>
    if q = 255 then
      match (s.ctx c).commit, (s.ctx c).reserved with
      | some _, some m =>
        (s.modCtx c (fun x => { x with commit := none, reserved := none })).received c q r m.words m.poison
      | _, _ => s.block c .channel w
    else
      let s := s.clearGone ⟨c.vt, q⟩
      match (s.port ⟨c.vt, q⟩).held with
      | some (.offer ws poison) =>
        let s := s.modCtx c (fun x => if x.commit = some q then { x with commit := none } else x)
        ((s.modPort ⟨c.vt, q⟩ Port.idle).acknowledge ⟨c.vt, q⟩).received c q r ws poison
      | _ => s.noticeOn c q .ready w))

/-! ### Bulk (R311 to R313) -/

/-- The checks of a bulk pointer (R311). -/
def bulkPtr (p : Word) : Except Stop Unit :=
  if !tagOk p then .error (.cause .addressForm p)
  else if adr p % 8 ≠ 0 then .error (.cause .misaligned p)
  else .ok ()

/-- Whether an L-byte range lies in one space that R312 accepts; one of no bytes may not name the device window (R232). -/
def bulkRange (c : CtxId) (p : Word) (l : Nat) (dst : Bool) : Bool :=
  let a := adr (absPtr c.core p)
  (decide (l = 0) && decide (spaceOf a ≠ .device)) || (decide (l ≠ 0) && engineSpace true (spaceOf a) && !(dst && decide (spaceOf a = .gallery)) &&
    decide (a + l ≤ 2 ^ 48) && sameSpace a (a + l - 1))

/-- Whether the sender's range passes its check at the agreement (R312). -/
def State.sourceOk (s : State) (sp : PortId) (l : Nat) : Bool :=
  match (s.port sp).bulk with
  | some b => bulkRange (ownerCtx sp.vt (s.port sp).owner) b.src l false
  | none => true

/-- The result of a transfer that moved n bytes (R311, R313). -/
def bulkResult (n : Nat) (clip cut : Bool) : Word := BitVec.ofNat 64 (n + cut.toNat * 2 ^ 62 + clip.toNat * 2 ^ 63)

/-- The result register of a party of a bulk transfer. -/
def Ctx.bulkReg (x : Ctx) : Nat :=
  match x.wait with
  | some (.chbs _ d) => d
  | some (.chbr _ d) => d
  | _ => 0

/-- A party of a bulk transfer completes; the receiver acquires (R311). -/
def State.endParty (s : State) (c : CtxId) (r : Word) : State :=
  let recv := match (s.ctx c).wait with
    | some (.chbr _ _) => true
    | _ => false
  let s := s.modCtx c (fun x => x.wg x.bulkReg r)
  if recv then s.completeAcquire c else s.complete c

/-- The agreement (R312), once the destination range has passed: L, P and the start. Where the sender's range has failed its
check there is none, and the sender hears so. -/
def State.agree (s : State) (c : CtxId) (q : Nat) (dst : Word) (len : Word) : State :=
  let p : PortId := ⟨c.vt, q⟩
  let x := s.port p
  let l := min len.toNat x.max
  let b : Bulk := { src := 0, dst := absPtr c.core dst, len := l, clip := decide (x.max < len.toNat) }
  if s.sourceOk x.peer l then
    let s := s.modPort p (fun x => { x.idle with st := .move, owner := ownerCode c, pending := l, bulk := some b })
    s.send { src := p, dst := x.peer, body := .start b, ctx := some c }
  else
    let s := s.modPort p (fun x => { x.idle with st := .own, owner := ownerCode c, bulk := some b })
    s.send { src := p, dst := x.peer, body := .start { b with unfit := true }, ctx := some c }

/-- `chbs` (R311). -/
def execChbs (o : ChBs) (s : State) : Step :=
  let c := s.cur
  let q := o.port.toNat
  let ptr := (s.ctx c).rg o.a.toNat
  let len := (s.ctx c).rg o.b.toNat
  let send (s : State) : State := s.afterRelease c true (fun s => s.offerOn c q (.bulk ptr len) (.chbs q o.d.toNat))
  .next (if (s.ctx c).going then send s
    else s.orStop (s.checkPort c q (some (.bout, none))) (fun _ =>
      s.orStop (s.checkPeer c q) (fun _ =>
        s.orStop (bulkPtr ptr) (fun _ => send (s.claimed c q)))))

/-- `chbr` (R311). -/
def execChbr (o : ChBr) (s : State) : Step :=
  let c := s.cur
  let q := o.port.toNat
  let ptr := (s.ctx c).rg o.a.toNat
  let w : Wait := .chbr q o.d.toNat
  .next (s.orStop (s.checkPort c q (some (.bin, none))) (fun _ =>
    s.orStop (bulkPtr ptr) (fun _ =>
      let s := s.clearGone ⟨c.vt, q⟩
      let x := s.port ⟨c.vt, q⟩
      match x.held with
      | some (.bulk _ len) =>
        if !bulkRange c ptr (min len.toNat x.max) true then s.stopped c (.cause .addressForm ptr)
        else
          let s := s.modCtx c (fun x => if x.commit = some q then { x with commit := none } else x)
          (s.block c .channel w).agree c q ptr len
      | _ => s.noticeOn c q (.bready ptr x.max) w)))

/-- Both parties of a transfer complete (R313). -/
def State.endBulk (s : State) (sp rp : PortId) (n : Nat) (b : Bulk) : State :=
  let a := ownerCtx sp.vt (s.port sp).owner
  let c := ownerCtx rp.vt (s.port rp).owner
  let s := (s.modPort sp Port.idle).modPort rp Port.idle
  let r := bulkResult n b.clip false
  (s.endParty a r).endParty c r

/-- START_ARRIVAL (R307, R312): data steps begin; or the sender's range has failed its check, its rendezvous is withdrawn,
and the receiver's notice stays held here. -/
def startAt (p : PortId) (k : Packet) (b : Bulk) (s : State) : State :=
  let x := s.port p
  match x.bulk with
  | some mine =>
    if x.st ≠ .own then s
    else
      let c := ownerCtx p.vt x.owner
      if b.unfit then
        let s := if (s.port k.src).st = .own
          then s.modPort p (fun x => { x.idle with st := .held, held := some (.bready b.dst (s.port k.src).max) })
          else s.modPort p Port.idle
        s.raise c ⟨.addressForm, mine.src, 0, 0⟩
      else
        let b := { b with src := absPtr c.core mine.src }
        let s := s.modPort p (fun x => { x with st := .move, pending := b.len, bulk := some b, partner := none })
        if b.len = 0 then s.endBulk p k.src 0 b else s
  | none => s

/-- The values of n bytes in words, the last one partial: places, width, and what they read. -/
def State.bulkRead (s : State) (v : VtId) (ls : List Loc) : List (Nat × Bool) := ls.map (fun l => s.engRead v l 8)

/-- A context whose range failed in a bulk step gets an ENG message, and the transfer is held (R313). -/
def State.holdBulk (s : State) (sp : PortId) (c : CtxId) (r : Raise) (off : Nat) : State :=
  let s := s.modPort sp (fun x => { x with bulk := x.bulk.map (fun b => { b with halted := true }) })
  s.offer { s.msgOf c with
    cause := r.cause.code, eng := true, bulk := true, core := c.core, pc := (s.ctx c).pc, val := r.tval
    w4 := 1, w5 := BitVec.ofNat 64 off }

/-- A place i bytes further on. -/
def Loc.plus (i : Nat) : Loc → Loc
  | .sram a => .sram (a + i)
  | .home pa va g => .home (pa + i) (va + i) g
  | .device o => .device (o + i)

/-- A bulk step's access of a party has no place: the party gets its message, or the walker ends the miss first. -/
def State.bulkStop (s : State) (sp : PortId) (c : CtxId) (off : Nat) (e : EngStop) : State :=
  match e with
  | .fault r => (s.endStep (.bulk sp 0)).holdBulk sp c r off
  | .miss a acc => (s.leavePlaces (.bulk sp 0)).engMiss c.coreId (.bulk sp) (!(s.ctx c).priv) a acc

/-- Whether a step of n bytes from the port's sender to its receiver can be performed now and is paid for. -/
def State.bulkGate (s : State) (sp rp : PortId) (n : Nat) (ls ms : List Loc) : State × Bool :=
  let a : Arrival := .bulk sp 0
  let cost := min n (heapBytes 8 ls) + min n (heapBytes 8 ms)
  if ls.any (s.engMoving sp.vt) || ms.any (s.engMoving rp.vt) then (s.leavePlaces a, false)
  else match s.charge sp.vt.part cost with
    | (s, false) => (s.leavePlaces a, false)
    | (_, true) =>
      match s.gate sp.vt.part a ((s.portsFor sp.vt ls ++ s.portsFor rp.vt ms).dedup) (homeLines (ls ++ ms)) (s.engZero ms) with
      | (s, false) => (s, false)
      | (s, true) => ((s.charge sp.vt.part cost).1, true)

/-- The next step of the transfer that a sending port holds (R313), by the sender's copy engine: up to 128 bytes. -/
def State.bulkOnce (s : State) (sp : PortId) : State :=
  let x := s.port sp
  let rp := x.peer
  match x.bulk with
  | none => s
  | some b =>
    if x.st ≠ .move ∨ x.dir ≠ .bout ∨ b.halted ∨ (s.port rp).st ≠ .move ∨
       !s.runs (ownerCtx sp.vt x.owner).coreId ∨ !s.running rp.vt ∨
       (s.core (ownerCtx rp.vt (s.port rp).owner).coreId).moving then s
    else
      let a := ownerCtx sp.vt x.owner
      let c := ownerCtx rp.vt (s.port rp).owner
      let off := b.len - x.pending
      let n := min 128 x.pending
      let words := (n + 7) / 8
      let addrs (p : Word) : List Word := (List.range words).map (fun (i : Nat) => leaAdd p (off + 8 * i))
      match s.engPlaces a.coreId (!(s.ctx a).priv) true 8 .read (addrs b.src),
        s.engPlaces c.coreId (!(s.ctx c).priv) true 8 .write (addrs b.dst) with
      | .error e, _ => s.bulkStop sp a off e
      | .ok _, .error e => s.bulkStop sp c off e
      | .ok ls, .ok ms =>
        match s.bulkGate sp rp n ls ms with
        | (s, false) => s
        | (s, true) =>
          let rd := s.bulkRead sp.vt ls
          let s := s.tallyReads (min n 8) ls
          let whole := n / 8
          let s := s.engWrites rp.vt 8 ((ms.zip rd).take whole)
          let s := match (ms.zip rd).drop whole with
            | (m, v, pois) :: _ => (List.range (n % 8)).foldl (fun (s : State) i =>
                s.engWrite rp.vt (m.plus i) 1 (v / 256 ^ i % 256) pois) s
            | [] => s
          let left := x.pending - n
          let s := (s.modPort sp (fun x => { x with pending := left })).modPort rp (fun x => { x with pending := left })
          if left = 0 then s.endBulk sp rp b.len b else s

/-! ### The rotation of a quad's copy engine (R293, R313) -/

/-- A head that a quad's copy engine serves: that of a core's FIFO, or a transfer on a port. -/
inductive CopyHead where
  | fifo (k : CoreId)
  | bulk (p : PortId)
  deriving DecidableEq, Repr

/-- The heads of a quad's copy engine, each with its place in the rotation: the cores in order, then the transfers by port. -/
def State.copyHeads (s : State) (q : QuadId) : List (Nat × CopyHead) :=
  (s.coresOn q).map (fun k => (s.quadPos k, .fifo k)) ++
  (match (s.tile q.tile).vtile with
    | none => []
    | some v => ((s.vtile v).ports.filter (fun e => decide (e.2.st = .move) && decide (e.2.dir = .bout) &&
        decide (s.quadOf (ownerCtx v e.2.owner).coreId = q))).map (fun e => (4 + e.1, .bulk ⟨v, e.1⟩)))

/-- The next step of a head. -/
def State.headOnce (s : State) : CopyHead → State
  | .fifo k => s.copyOnce k
  | .bulk p => s.bulkOnce p

/-- Whether it is a head's turn at the copy engine of its quad: the engine begins after the one it served last, and passes
by one that has no step to make. -/
def State.copyTurn (s : State) (q : QuadId) (pos : Nat) : Bool :=
  let rank (i : Nat) : Nat := (i + 259 - (s.quad q).rotCore) % 260
  (s.copyHeads q).all (fun h => decide (rank pos ≤ rank h.1) || decide (s.headOnce h.2 = s))

/-- A quad's copy engine serves a head, if that has a step to make and it is its turn. -/
def State.serveHead (s : State) (q : QuadId) (pos : Nat) (h : CopyHead) : State :=
  let t := s.headOnce h
  if t = s ∨ !s.copyTurn q pos then s else t.modQuad q (fun x => { x with rotCore := pos })

/-- COPY_STEP (R293): the quad's copy engine moves 128 bytes of a core's head command. -/
def execCopyStep (k : CoreId) (s : State) : Step := .next (s.serveHead (s.quadOf k) (s.quadPos k) (.fifo k))

/-- BULK_DATA_STEP (R313): the copy engine of the sender's quad moves up to 128 bytes of the transfer on a port. -/
def execBulkDataStep (sp : PortId) (s : State) : Step :=
  .next (s.serveHead (s.quadOf (ownerCtx sp.vt (s.port sp).owner).coreId) (4 + sp.port) (.bulk sp))

/-! ### Arrivals (R305, R307) -/

/-- A port holds a notice (R307). -/
def State.hold (s : State) (p : PortId) (n : Notice) : State :=
  s.modPort p (fun x => { x.idle with st := .held, held := some n })

/-- Whether the receiving end matches an offer from a port (R305). -/
def Port.matchesOffer (x : Port) (src : PortId) (n : Notice) : Bool :=
  x.decl && decide (x.peer = src) && (match n with
    | .offer ws _ => decide (x.dir = .inp) && decide (x.width = ws.length)
    | .bulk _ _ => decide (x.dir = .bin)
    | _ => false)

/-- An offer arrives at a port. -/
def offerAt (p : PortId) (k : Packet) (n : Notice) (s : State) : State :=
  let s := s.clearGone p
  let x := s.port p
  if !x.matchesOffer k.src n then s.send { src := p, dst := k.src, body := .refuse }
  else
    let n := match n with
      | .offer ws po => Notice.offer ws (po || k.poison)
      | n => n
    let c := ownerCtx p.vt x.owner
    match x.st, n, (s.ctx c).wait with
    | .own, .offer ws po, some (.chr _ r _) =>
      ((s.modPort p Port.idle).acknowledge p).received c p.port r ws po
    | .own, .bulk _ len, some (.chbr _ _) =>
      let dst := (x.bulk.map (·.dst)).getD 0
      if bulkRange c dst (min len.toNat x.max) true then s.agree c p.port dst len
      else (s.hold p n).raise c ⟨.addressForm, dst, 0, 0⟩
    | .idle, n, _ => s.hold p n
    | _, _, _ => s

/-- A ready notice arrives: kept by an idle sending end that matches, otherwise discarded. -/
def readyAt (p : PortId) (k : Packet) (n : Notice) (s : State) : State :=
  let s := s.clearGone p
  let x := s.port p
  let kind := match n with
    | .ready => decide (x.dir = .out)
    | .bready _ _ => decide (x.dir = .bout)
    | _ => false
  if decide (x.st = .idle) && x.decl && decide (x.peer = k.src) && kind then s.hold p n else s

/-- The acknowledgement reaches the sender (R307, R309, R318). -/
def ackAt (p : PortId) (s : State) : State :=
  let x := s.port p
  let c := ownerCtx p.vt x.owner
  if x.st ≠ .own then s
  else match (s.ctx c).wait with
    | some (.chs _) => (s.modPort p Port.idle).complete c
    | some (.vsift _ d v t m) =>
      ((s.modPort p Port.idle).modCtx c (fun y =>
        (y.wv v (laneMerge (BitVec.ofNat 64 m) t.width (y.rv v) (fun _ => 0))).wg d (BitVec.ofNat 64 m))).complete c
    | _ => s

/-- The refusal of a mismatched rendezvous reaches the sender (R305). -/
def refuseAt (p : PortId) (s : State) : State :=
  let x := s.port p
  if x.st ≠ .own then s
  else (s.modPort p Port.idle).raise (ownerCtx p.vt x.owner) ⟨.channelMisuse, BitVec.ofNat 64 p.port, 0, 0⟩

/-- The peer's withdrawal arrives: the notice it withdrew is discarded (R307, R316). -/
def withdrawAt (p : PortId) (s : State) : State := s.clearGone p

/-- What a packet for a port does when it arrives (R307). -/
def arriveAtPort (k : Packet) (s : State) : State :=
  match k.body with
  | .offer n => offerAt k.dst k n s
  | .ready n => readyAt k.dst k n s
  | .ack => ackAt k.dst s
  | .start b => startAt k.dst k b s
  | .commit c => s.modPort k.dst (fun x => if x.st = .own then { x with partner := some c } else x)
  | .release => s.modPort k.dst (fun x => { x with partner := none })
  | .withdraw => withdrawAt k.dst s
  | .refuse => refuseAt k.dst s
  | .forager _ _ => s

/-- The kinds of arrivals, one per event row. -/
inductive PacketKind where
  | offer | ready | ack | start | commit | release | withdraw | refuse
  deriving DecidableEq, Repr

/-- The kind of a packet for a port. -/
def Body.kind : Body → Option PacketKind
  | .offer _ => some .offer
  | .ready _ => some .ready
  | .ack => some .ack
  | .start _ => some .start
  | .commit _ => some .commit
  | .release => some .release
  | .withdraw => some .withdraw
  | .refuse => some .refuse
  | .forager _ _ => none

/-- Whether a port belongs to a context whose core a thermal migration moves: what arrives for it waits (R380). -/
def State.portMoves (s : State) (p : PortId) : Bool :=
  let x := s.port p
  (decide (x.st = .own) || decide (x.st = .move)) && (s.core (ownerCtx p.vt x.owner).coreId).moving

/-- The oldest packet for a port arrives, if it is of the kind named. A packet that arrives at a tile that
does not serve its vtile goes to the park queue (R379); one for a context whose core is being moved waits (R380). -/
def arrivalEvent (kind : PacketKind) (p : PortId) (s : State) : Step :=
  match s.headTo p with
  | none => .next s
  | some k =>
    if k.body.kind ≠ some kind ∨ k.stays then .next s
    else if !s.lands k then
      if s.parkRoom p.vt.part then .next ((s.dropPacket k).parkPacket k) else .next s
    else if s.portMoves p then .next s
    else .next (arriveAtPort k (s.dropPacket k))

/-- OFFER_ARRIVAL (R307). -/
def execOfferArrival (p : PortId) (s : State) : Step := arrivalEvent .offer p s
/-- READY_NOTICE_ARRIVAL (R307). -/
def execReadyNoticeArrival (p : PortId) (s : State) : Step := arrivalEvent .ready p s
/-- ACKNOWLEDGEMENT_ARRIVAL (R307). -/
def execAcknowledgementArrival (p : PortId) (s : State) : Step := arrivalEvent .ack p s
/-- START_ARRIVAL (R307). -/
def execStartArrival (p : PortId) (s : State) : Step := arrivalEvent .start p s
/-- COMMIT_NOTICE_ARRIVAL (R307). -/
def execCommitNoticeArrival (p : PortId) (s : State) : Step := arrivalEvent .commit p s
/-- RELEASE_NOTICE_ARRIVAL (R307). -/
def execReleaseNoticeArrival (p : PortId) (s : State) : Step := arrivalEvent .release p s
/-- WITHDRAWAL_ARRIVAL (R307). -/
def execWithdrawalArrival (p : PortId) (s : State) : Step := arrivalEvent .withdraw p s
/-- REFUSAL_ARRIVAL (R305). -/
def execRefusalArrival (p : PortId) (s : State) : Step := arrivalEvent .refuse p s

/-! ### Withdrawing (R80, R307) -/

/-- The own offer or notice of a port that has not arrived yet, wherever it is on its way. -/
def State.underWay (s : State) (p : PortId) : Option Packet :=
  let own (k : Packet) : Bool := decide (k.src = p) && (match k.body with
    | .offer _ => true
    | .ready _ => true
    | _ => false)
  s.flying.find? own

/-- Whether the rendezvous of an OWN port has begun: its offer has been taken, and neither travels nor is held
(R307). A receiving end that is OWN has not begun. -/
def State.begun (s : State) (p : PortId) (sending : Bool) : Bool :=
  let x := s.port p
  let y := s.port x.peer
  decide (x.st = .move) || (sending && decide (x.st = .own) && (s.underWay p).isNone &&
    !((decide (y.st = .held) || decide (y.st = .commit)) && decide (y.peer = p) && !y.gone))

/-- Commit notices on their way to a port whose rendezvous is over find no one there (R316). -/
def State.dropCommits (s : State) (p : PortId) : State :=
  s.mapFlying (fun l => l.filter (fun k => !(decide (k.dst = p) && decide (k.body.kind = some .commit))))

/-- OWNER withdraws (R307): the port is IDLE, a notice that travels is taken back, one that is held is gone and
the withdrawal follows. -/
def State.withdraw (s : State) (p : PortId) : State :=
  let peer := (s.port p).peer
  let y := s.port peer
  let s' := (s.modPort p Port.idle).dropCommits p
  match s.underWay p with
  | some k => s'.mapFlying (dropFirst (fun x => decide (x = k)))
  | none =>
    if (y.st = .held ∨ y.st = .commit) ∧ y.peer = p then
      (s'.modPort peer (fun y => { y with gone := true })).send { src := p, dst := peer, body := .withdraw }
    else s'

/-- A fault message returns to its place in SEQ order (R88, R310). -/
def putSeq (m : Msg) : List Msg → List Msg
  | [] => [m]
  | e :: r => if (e.seq + 2 ^ 32 - m.seq) % 2 ^ 32 < 2 ^ 31 then m :: e :: r else e :: putSeq m r

/-- A commitment returns its port to HELD (R316), a reserved fault message to its queue. -/
def State.uncommit (s : State) (c : CtxId) : State :=
  match (s.ctx c).commit with
  | none => s
  | some q =>
    let p : PortId := ⟨c.vt, q⟩
    let s := s.modCtx c (fun x => { x with commit := none })
    match (s.ctx c).reserved with
    | some m =>
      (s.modCtx c (fun x => { x with reserved := none })).modPart c.vt.part (fun q =>
        { q with faultQ := putSeq m q.faultQ })
    | none =>
      let s := s.modPort p (fun x => if x.st = .commit then { x with st := .held, owner := 0 } else x)
      s.send { src := p, dst := (s.port p).peer, body := .release }

/-! ### chq and alt (R314, R315) -/

/-- The direction code of R314. -/
def Dir.code : Dir → Nat
  | .inp => 0 | .out => 1 | .bin => 2 | .bout => 3

/-- The word of `chq` (R314). -/
def State.chqWord (s : State) (c : CtxId) (q : Nat) : Nat :=
  if q = 255 then
    if !s.curatorVt c.vt then 0
    else 1 + 8 * 8 + (s.nextMsg c.vt).isSome.toNat * 2 ^ 8 + (decide ((s.ctx c).commit = some 255)).toNat * 2 ^ 9
  else
    let x := s.port ⟨c.vt, q⟩
    let held := x.held.isSome && !x.gone
    let other := decide (x.st = .own ∨ x.st = .commit) && decide (x.owner ≠ ownerCode c)
    x.decl.toNat + x.dir.code * 2 + x.width * 8 + held.toNat * 2 ^ 8 +
      (decide ((s.ctx c).commit = some q)).toNat * 2 ^ 9 + other.toNat * 2 ^ 10 +
      (if x.dir = .bin then x.max * 2 ^ 32 else 0)

/-- `chq` (R314). -/
def execChq (o : ChQ) (s : State) : Step :=
  let w := s.chqWord s.cur o.port.toNat
  .next (s.finish (fun x => x.wg o.d.toNat (BitVec.ofNat 64 w)))

/-- Whether a context waits on port 255, at `chr` or at `alt` with the port enabled (R310). -/
def State.waits255 (s : State) (c : CtxId) : Bool :=
  match (s.ctx c).wait with
  | some (.chr 255 _ _) => true
  | some (.alt _ ports guard) => (List.range 8).any (fun i => guard.getLsbD i && decide (fld ports.toNat (8 * i) 8 = 255))
  | _ => false

/-- The context of a vtile that began to wait on port 255 first (R310). -/
def State.first255 (s : State) (v : VtId) : Option CtxId :=
  ((s.ctxsOf v).filter s.waits255).foldl (fun (b : Option CtxId) c => match b with
    | none => some c
    | some d => if (s.ctx c).stamp < (s.ctx d).stamp then some c else some d) none

/-- Whether alternative i of an `alt` is ready (R315). -/
def State.altReady (s : State) (c : CtxId) (ports : Word) (timeout : Bool) (i : Nat) : Bool :=
  let q := fld ports.toNat (8 * i) 8
  let x := s.port ⟨c.vt, q⟩
  if i = 8 then timeout
  else if q = 255 then (s.nextMsg c.vt).isSome && (match s.first255 c.vt with
    | some d => decide (d = c)
    | none => true)
  else decide (x.st = .held) && !x.gone && (match x.held with
    | some (.offer _ _) => decide (x.dir = .inp)
    | some (.bulk _ _) => decide (x.dir = .bin)
    | some .ready => decide (x.dir = .out)
    | some (.bready _ _) => decide (x.dir = .bout)
    | none => false)

/-- The alternative that an `alt` chooses now, in rotation from START (R315). -/
def State.altPick (s : State) (c : CtxId) (ports guard : Word) (timeout : Bool) : Option Nat :=
  let st := fld (s.ctx c).calt.toNat 0 4
  ((List.range 9).map (fun k => (st + k) % 9)).find? (fun i =>
    guard.getLsbD i && s.altReady c ports timeout i)

/-- The chosen alternative is taken (R315, R316): the port commits, START moves past it, the index is written. -/
def State.altTake (s : State) (c : CtxId) (d : Nat) (ports : Word) (i : Nat) : State :=
  let q := fld ports.toNat (8 * i) 8
  let p : PortId := ⟨c.vt, q⟩
  let s := if i = 8 then s
    else if q = 255 then match s.nextMsg c.vt with
      | some m => (s.dropMsg c.vt.part m).modCtx c (fun x => { x with commit := some q, reserved := some m })
      | none => s
    else
      let s := (s.modPort p (fun x => { x with st := .commit, owner := ownerCode c })).modCtx c
        (fun x => { x with commit := some q })
      s.send { src := p, dst := (s.port p).peer, body := .commit c }
  (s.modCtx c (fun x =>
    { x with calt := BitVec.ofNat 64 (x.calt.toNat / 16 * 16 + (i + 1) % 9) }.wg d (BitVec.ofNat 64 i))).complete c

/-- The checks of `alt`'s ports in order (R315). -/
def State.altCheck (s : State) (c : CtxId) (ports guard : Word) : Except Stop Unit :=
  if fld guard.toNat 0 9 = 0 then .error (.cause .channelMisuse 0x100)
  else match (s.ctx c).commit with
    | some k =>
      match (List.range 8).find? (fun i => guard.getLsbD i) with
      | some i => (match s.checkPort c (fld ports.toNat (8 * i) 8) none with
        | .error e => .error e
        | .ok _ => .error (.cause .channelMisuse (BitVec.ofNat 64 k)))
      | none => .error (.cause .channelMisuse (BitVec.ofNat 64 k))
    | none => (List.range 8).foldl (fun acc i => match acc with
      | .error e => .error e
      | .ok _ => if guard.getLsbD i then s.checkPort c (fld ports.toNat (8 * i) 8) none else .ok ()) (.ok ())

/-- `alt` (R315). -/
def execAlt (o : Alt) (s : State) : Step :=
  let c := s.cur
  let x := s.ctx c
  let ports := x.rg o.a.toNat
  let guard := x.rg o.b.toNat
  let lim := (x.rg o.c.toNat).toNat
  .next (s.orStop (s.altCheck c ports guard) (fun _ =>
    match s.altPick c ports guard (decide (lim = 0)) with
    | some i => s.altTake c o.d.toNat ports i
    | none => s.block c .alt (.alt o.d.toNat ports guard) (if guard.getLsbD 8 then some lim else none)))

/-- A blocked `alt` is examined again (R315): at the end of a cycle, so that what has become ready in the cycle is looked at
in the rotation order. -/
def State.altAgain (s : State) (c : CtxId) : State :=
  match (s.ctx c).wait with
  | some (.alt d ports guard) =>
    (match s.altPick c ports guard (decide ((s.ctx c).lim = some 0)) with
    | some i => s.altTake c d ports i
    | none => s)
  | _ => s

/-- ALT_TIMEOUT (R315): the timeout of a blocked `alt` has become ready. -/
def execAltTimeout (c : CtxId) (s : State) : Step :=
  .next (if (s.ctx c).lim = some 0 then s.altAgain c else s)

/-- The first context that began to wait on port 255 of a curator vtile takes the next message (R310); an `alt` does so when
it is examined. -/
def State.serveNext (s : State) (v : VtId) : State :=
  match s.nextMsg v, s.first255 v with
  | some m, some c =>
    (match (s.ctx c).wait with
      | some (.chr q r _) => if (s.core c.coreId).moving then s else (s.dropMsg v.part m).received c q r m.words m.poison
      | _ => s)
  | _, _ => s

/-- Every context that waits on port 255 of a curator vtile has its turn (R310). -/
def State.serve255 (s : State) (v : VtId) : State :=
  ((s.ctxsOf v).filter s.waits255).foldl (fun (s : State) _ => s.serveNext v) s

/-! ### vsift (R318) -/

/-- Whether a lane is sifted: its code, the threshold's code. -/
def siftLane (t : VTy) (x thr : Nat) : Bool :=
  if t.isF then
    match (fcompare .un (t.fmt.value x) (t.fmt.value x)).1, (fcompare .un (t.fmt.value thr) (t.fmt.value thr)).1 with
    | true, _ => true
    | false, true => false
    | false, false =>
      let m := 2 ^ (t.width - 1)
      (fcompare .lt (t.fmt.value (thr % m)) (t.fmt.value (x % m))).1
  else decide ((laneInt t thr).natAbs < (laneInt t x).natAbs)

/-- The sifted lanes of a register, in order. -/
def siftMask (t : VTy) (v : Vec) (m : Word) (thr : Nat) : List Nat :=
  (List.range (512 / t.width)).filter (fun i => m.getLsbD i && siftLane t (lane v t.width i) thr)

/-- `vsift` (R318). -/
def execVsift (o : VSift) (s : State) : Step :=
  let c := s.cur
  let x := s.ctx c
  let q := fld (x.rg o.c.toNat).toNat 0 8
  let t := o.vt
  .next (s.orStop (s.checkPort c q (some (.out, some 8))) (fun _ =>
    s.orStop (s.checkPeer c q) (fun _ =>
      let v := x.rv o.a.toNat
      let is := siftMask t v (x.mask o.om) (lowBits t.width (x.rg o.b.toNat))
      let buf := (lanes t.width (512 / t.width) (fun k => match is[k]? with
        | some i => lane v t.width i
        | none => 0)).toNat
      let ws := (List.range 8).map (fun j => BitVec.ofNat 64 (fld buf (64 * j) 64))
      let m := is.foldl (fun m i => m + 2 ^ i) 0
      if q = 255 then
        (s.block c .channel (.vsift q o.d.toNat o.a.toNat t m)).modPart c.vt.part (fun p =>
          { p with cmdQ := p.cmdQ ++ [(c, ws)] })
      else s.offerOn c q (.offer ws false) (.vsift q o.d.toNat o.a.toNat t m))))

/-! ### Foragers (R319 to R322) -/

/-- The answer to an offered forager (R319): `spawn` completes, `spawnt` writes its status. -/
def State.answerSpawn (s : State) (c : CtxId) (tell : Option Nat) (st : Nat) : State :=
  (match tell with
    | some d => s.modCtx c (fun x => x.wg d (BitVec.ofNat 64 st))
    | none => s).complete c

/-- The arrival hardware of a vtile takes a forager, or refuses it as full (R321). -/
def VTile.accept (x : VTile) (f : Forager) : Option VTile :=
  if x.arrivals.length < 64 ∧ x.spill = [] then some { x with arrivals := x.arrivals ++ [f] }
  else if x.spill.length < x.spcap then some { x with spill := x.spill ++ [f] }
  else none

/-- The oldest spilled foragers move into freed hardware entries (R321). -/
def VTile.refill (x : VTile) : VTile :=
  let n := 64 - x.arrivals.length
  { x with arrivals := x.arrivals ++ x.spill.take n, spill := x.spill.drop n }

/-- A `spawnt` finds its destination absent: tile-absent is sent, and nothing parks (R319, R323). -/
def State.spawntAbsent (s : State) (c : CtxId) (dst : VtId) (tell : Option Nat) : State :=
  (s.tileAbsent ⟨dst, 0⟩ (some c) 2 (s.part dst.part).parkQ.length).answerSpawn c tell 3

/-- A forager that was offered finds its destination absent, at its tile or in a save buffer (R319, R323). -/
def State.parkForager (s : State) (k : Packet) (tell : Option Nat) : State :=
  match k.ctx, tell with
  | some c, some _ => s.spawntAbsent c k.dst.vt tell
  | some c, none => (s.block c .channel .spawnAbsent).parkPacket k
  | none, _ => s.parkPacket k

/-- A `spawn` or `spawnt` past its quota check (R319). -/
def State.offerForager (s : State) (c : CtxId) (dst : VtId) (f : Forager) (tell : Option Nat) : State :=
  let k : Packet := { src := ⟨c.vt, 0⟩, dst := ⟨dst, 0⟩, body := .forager f tell, ctx := some c }
  let (s, t) := s.translateVt (s.vtile c.vt).ptile dst
  match t, tell with
  | some t, _ => { s with net := s.net ++ [{ k with tile := t }] }.modCtx c (fun x => { x with
      st := .ready, wait := none, lim := none, prog := { need := .offered } })
  | none, some _ => s.spawntAbsent c dst tell
  | none, none =>
    let s := s.block c .channel .spawnAbsent
    if s.parkRoom dst.part then s.parkPacket k else { s with net := s.net ++ [{ k with waits := true }] }

/-- The operands of `spawn` and `spawnt` (R319): destination and forager. -/
def State.spawnArgs (s : State) (a b : GReg) : VtId × Forager :=
  let x := s.ctx s.cur
  let d := (x.rg a.toNat).toNat
  (⟨s.cur.vt.part, s.cur.vt.col, fld d 0 9, fld d 16 9⟩,
    { entry := x.rg b.toNat, payload := x.rgs 1 8, poison := false, origin := .forager, src := some s.cur.vt })

/-- `spawn` and `spawnt` (R319). -/
def spawnInstr (a b : GReg) (tell : Option Nat) (s : State) : Step :=
  let c := s.cur
  let (dst, f) := s.spawnArgs a b
  let col := s.colony c.vt.part c.vt.col
  let q := s.part c.vt.part
  .next (
    if col.gridX ≤ dst.x ∨ col.gridY ≤ dst.y then s.stopped c (.cause .channelMisuse 0x100)
    else s.afterRelease c true (fun s =>
      if q.fquota ≤ q.fcount then
        match tell with
        | some _ => s.answerSpawn c tell 2
        | none => (s.block c .quota (.spawnQuota dst f)).modPart c.vt.part (fun q => { q with quotaQ := q.quotaQ ++ [c] })
      else s.offerForager c dst f tell))

/-- `spawn` (R319). -/
def execSpawn (o : Spawn) (s : State) : Step := spawnInstr o.a o.b none s
/-- `spawnt` (R319). -/
def execSpawnt (o : SpawnT) (s : State) : Step := spawnInstr o.a o.b (some o.d.toNat) s

/-- Whether a parked forager waits for room at a vtile (R324): later arrivals stay behind it. -/
def State.foragerParked (s : State) (v : VtId) : Bool :=
  (s.part v.part).parkQ.any (fun k => decide (k.dst.vt = v) && decide (k.traffic = some 2))

/-- FORAGER_ARRIVAL (R321, R323): the oldest forager offered to a vtile; while its sender's core is being moved the answer
waits (R380). -/
def execForagerArrival (v : VtId) (s : State) : Step :=
  match s.net.find? (fun k => decide (k.dst.vt = v) && !k.stays && (match k.body with
    | .forager _ _ => true
    | _ => false)) with
  | none => .next s
  | some k =>
    match k.body with
    | .forager f tell =>
      let s' := s.dropPacket k
      let f := { f with poison := f.poison || k.poison }
      if (k.ctx.map (fun c => (s.core c.coreId).moving)).getD false then .next s
      else if !s.lands k then .next (if tell.isSome || s.parkRoom v.part then s'.parkForager k tell else s)
      else match (if s.foragerParked v then none else (s.vtile v).accept f) with
        | some x =>
          let s := (s'.putVt v x).countForager v.part
          let s := if x.spill.length = (s'.vtile v).spill.length then s else s.sysWrite v.part 128
          .next (match k.ctx with
            | some c => s.answerSpawn c tell 0
            | none => s)
        | none =>
          match k.ctx with
          | some c =>
            (match tell with
            | some _ => .next (s'.answerSpawn c tell 1)
            | none => .next (s'.block c .channel (.spawnFull v f) (some 77)))
          | none => .next s
    | _ => .next s

/-- SPAWN_RETRY (R319): a `spawn` refused as full is offered again, 256 network cycles of 0.5 ns later: 77 cycles of the
time base (R10). -/
def execSpawnRetry (c : CtxId) (s : State) : Step :=
  match (s.ctx c).wait with
  | some (.spawnFull dst f) => .next (if (s.ctx c).lim = some 0 then s.offerForager c dst f none else s)
  | _ => .next s

/-- The `spawn` that blocked first on the quota of a partition is admitted (R320). -/
def State.admitSpawn (s : State) (p : Nat) : State :=
  let q := s.part p
  match q.quotaQ with
  | [] => s
  | c :: r =>
    if q.fquota ≤ q.fcount then s
    else
      let s := s.modPart p (fun q => { q with quotaQ := r })
      match (s.ctx c).wait with
      | some (.spawnQuota dst f) => s.offerForager c dst f none
      | _ => s

/-- Whether a logical core has a working wide core under it (R26). -/
def State.wideCore (s : State) (v : VtId) (k : Nat) : Bool :=
  let t := s.tile (s.vtile v).ptile
  let p := (s.vtile v).lpct.getD k k
  (decide (p = 11) && t.wide.getD 0 false) || (decide (p = 47) && t.wide.getD 1 false)

/-- The empty slots of a logical core, lowest first. -/
def State.emptySlots (s : State) (k : CoreId) : List CtxId :=
  k.slots.filter (fun c => decide ((s.ctx c).st = .empty) &&
    !((s.ctxsOf k.vt).any (fun d => decide ((s.ctx d).moveTo = some (c.core, c.slot)))))

/-- The slot for the head forager of a vtile (R349): the core with the most empty slots, ties to the lowest; a
working wide core goes to a migrating context first, the target of a thermal migration takes none. -/
def State.foragerSlot (s : State) (v : VtId) : Option CtxId :=
  let best := (List.range 48).foldl (fun (b : Option (Nat × CtxId)) k =>
    let e := s.emptySlots ⟨v, k⟩
    let barred := s.thermals.any (fun m => decide (m.vt = v) && decide ((s.vtile v).lpct.getD k k = m.dst)) || (s.wideCore v k && !(s.vtile v).migs.isEmpty)
    match e, b with
    | [], b => b
    | c :: _, none => if barred then none else some (e.length, c)
    | c :: _, some (n, d) => if barred ∨ e.length ≤ n then some (n, d) else some (e.length, c)) none
  best.map (·.2)

/-- FORAGER_START (R321, R322): the head forager of a vtile starts in an empty slot and acquires; one for a core under
migration waits for the move (R380). -/
def execForagerStart (v : VtId) (s : State) : Step :=
  let x := s.vtile v
  match x.arrivals, s.foragerSlot v with
  | f :: r, some c =>
    if !s.running v ∨ (s.core c.coreId).moving ∨ !s.acquireRoom c then .next s
    else
      let s := s.putVt v { { x with arrivals := r }.refill with lastStart := s.time }
      let s := s.acquire c
      let s := if x.spill = [] then s else s.sysRead v.part 128
      let pend : List (Cause × Word) := if f.poison then [(.poisonConsumed, poisonVal 255)] else []
      .next (s.modCtx c (fun y =>
        { (y.fresh f.entry (s.curatorVt v) f.origin).wgs 1 f.payload with pend := pend }))
  | _, _ => .next s

end Sys2Proof.Machine
end

