-- ==== Sys2Proof/Machine/Scalar.lean ====
section
/-! DEFINITION. Registers I and II: integer, address, predicate, control-transfer and scalar floating-point
instructions 0x00 to 0x3B (R110 to R142). -/

namespace Sys2Proof.Machine

/-- R111, register form. -/
def aluReg (op : AluOp) (o : AluR) (s : State) : Step :=
  .next (s.finish (fun x => x.wg o.d.toNat (alu op o.w o.n (x.rg o.a.toNat) (x.rg o.b.toNat))))

/-- R111, 16-bit immediate form. -/
def aluImm16 (op : AluOp) (o : AluI16) (s : State) : Step :=
  .next (s.finish (fun x => x.wg o.d.toNat (alu op o.w o.n (x.rg o.a.toNat) (imm16 o.imm))))

/-- R111, 32-bit immediate form. -/
def aluImm32 (op : AluOp) (o : AluI32) (s : State) : Step :=
  .next (s.finish (fun x => x.wg o.d.toNat (alu op o.w o.n (x.rg o.a.toNat) (imm32 o.imm))))

/-- `add` (R111). -/
def execAddReg (o : AluR) (s : State) : Step := aluReg .add o s
/-- `add` with imm16 (R111). -/
def execAddImm16 (o : AluI16) (s : State) : Step := aluImm16 .add o s
/-- `add` with imm32 (R111). -/
def execAddImm32 (o : AluI32) (s : State) : Step := aluImm32 .add o s

/-- `sub` (R111). -/
def execSubReg (o : AluR) (s : State) : Step := aluReg .sub o s
/-- `sub` with imm16 (R111). -/
def execSubImm16 (o : AluI16) (s : State) : Step := aluImm16 .sub o s
/-- `sub` with imm32 (R111). -/
def execSubImm32 (o : AluI32) (s : State) : Step := aluImm32 .sub o s

/-- `mul` (R111). -/
def execMulReg (o : AluR) (s : State) : Step := aluReg .mul o s
/-- `mul` with imm16 (R111). -/
def execMulImm16 (o : AluI16) (s : State) : Step := aluImm16 .mul o s
/-- `mul` with imm32 (R111). -/
def execMulImm32 (o : AluI32) (s : State) : Step := aluImm32 .mul o s

/-- `mulh` (R111). -/
def execMulhReg (o : AluR) (s : State) : Step := aluReg .mulh o s
/-- `mulh` with imm16 (R111). -/
def execMulhImm16 (o : AluI16) (s : State) : Step := aluImm16 .mulh o s
/-- `mulh` with imm32 (R111). -/
def execMulhImm32 (o : AluI32) (s : State) : Step := aluImm32 .mulh o s

/-- `div` (R111). -/
def execDivReg (o : AluR) (s : State) : Step := aluReg .div o s
/-- `div` with imm16 (R111). -/
def execDivImm16 (o : AluI16) (s : State) : Step := aluImm16 .div o s
/-- `div` with imm32 (R111). -/
def execDivImm32 (o : AluI32) (s : State) : Step := aluImm32 .div o s

/-- `rem` (R111). -/
def execRemReg (o : AluR) (s : State) : Step := aluReg .rem o s
/-- `rem` with imm16 (R111). -/
def execRemImm16 (o : AluI16) (s : State) : Step := aluImm16 .rem o s
/-- `rem` with imm32 (R111). -/
def execRemImm32 (o : AluI32) (s : State) : Step := aluImm32 .rem o s

/-- `and` (R111). -/
def execAndReg (o : AluR) (s : State) : Step := aluReg .and o s
/-- `and` with imm16 (R111). -/
def execAndImm16 (o : AluI16) (s : State) : Step := aluImm16 .and o s
/-- `and` with imm32 (R111). -/
def execAndImm32 (o : AluI32) (s : State) : Step := aluImm32 .and o s

/-- `or` (R111). -/
def execOrReg (o : AluR) (s : State) : Step := aluReg .or o s
/-- `or` with imm16 (R111). -/
def execOrImm16 (o : AluI16) (s : State) : Step := aluImm16 .or o s
/-- `or` with imm32 (R111). -/
def execOrImm32 (o : AluI32) (s : State) : Step := aluImm32 .or o s

/-- `xor` (R111). -/
def execXorReg (o : AluR) (s : State) : Step := aluReg .xor o s
/-- `xor` with imm16 (R111). -/
def execXorImm16 (o : AluI16) (s : State) : Step := aluImm16 .xor o s
/-- `xor` with imm32 (R111). -/
def execXorImm32 (o : AluI32) (s : State) : Step := aluImm32 .xor o s

/-- `andn` (R111). -/
def execAndnReg (o : AluR) (s : State) : Step := aluReg .andn o s
/-- `andn` with imm16 (R111). -/
def execAndnImm16 (o : AluI16) (s : State) : Step := aluImm16 .andn o s
/-- `andn` with imm32 (R111). -/
def execAndnImm32 (o : AluI32) (s : State) : Step := aluImm32 .andn o s

/-- `shl` (R111). -/
def execShlReg (o : AluR) (s : State) : Step := aluReg .shl o s
/-- `shl` with imm16 (R112). -/
def execShlImm16 (o : AluI16) (s : State) : Step := aluImm16 .shl o s
/-- `shl` with imm32 (R112). -/
def execShlImm32 (o : AluI32) (s : State) : Step := aluImm32 .shl o s

/-- `shr` (R111). -/
def execShrReg (o : AluR) (s : State) : Step := aluReg .shr o s
/-- `shr` with imm16 (R112). -/
def execShrImm16 (o : AluI16) (s : State) : Step := aluImm16 .shr o s
/-- `shr` with imm32 (R112). -/
def execShrImm32 (o : AluI32) (s : State) : Step := aluImm32 .shr o s

/-- `sar` (R111). -/
def execSarReg (o : AluR) (s : State) : Step := aluReg .sar o s
/-- `sar` with imm16 (R112). -/
def execSarImm16 (o : AluI16) (s : State) : Step := aluImm16 .sar o s
/-- `sar` with imm32 (R112). -/
def execSarImm32 (o : AluI32) (s : State) : Step := aluImm32 .sar o s

/-- `rot` (R111). -/
def execRotReg (o : AluR) (s : State) : Step := aluReg .rot o s
/-- `rot` with imm16 (R112). -/
def execRotImm16 (o : AluI16) (s : State) : Step := aluImm16 .rot o s
/-- `rot` with imm32 (R112). -/
def execRotImm32 (o : AluI32) (s : State) : Step := aluImm32 .rot o s

/-- `min` (R111). -/
def execMinReg (o : AluR) (s : State) : Step := aluReg .min o s
/-- `min` with imm16 (R111). -/
def execMinImm16 (o : AluI16) (s : State) : Step := aluImm16 .min o s
/-- `min` with imm32 (R111). -/
def execMinImm32 (o : AluI32) (s : State) : Step := aluImm32 .min o s

/-- `max` (R111). -/
def execMaxReg (o : AluR) (s : State) : Step := aluReg .max o s
/-- `max` with imm16 (R111). -/
def execMaxImm16 (o : AluI16) (s : State) : Step := aluImm16 .max o s
/-- `max` with imm32 (R111). -/
def execMaxImm32 (o : AluI32) (s : State) : Step := aluImm32 .max o s

/-- A bit count over the low w bits (R113). -/
def bitCount (f : Nat → Nat → Nat) (o : BitCnt) (s : State) : Step :=
  .next (s.finish (fun x => x.wg o.d.toNat (BitVec.ofNat 64 (f (x.rg o.a.toNat).toNat (opWidth o.w)))))

/-- `clz` (R113). -/
def execClz (o : BitCnt) (s : State) : Step := bitCount clzN o s
/-- `ctz` (R113). -/
def execCtz (o : BitCnt) (s : State) : Step := bitCount ctzN o s
/-- `popc` (R113). -/
def execPopc (o : BitCnt) (s : State) : Step := bitCount popN o s

/-- `bfx` (R114). -/
def execBfx (o : Bfx) (s : State) : Step :=
  let n := o.lenM1.toNat + 1
  .next (s.finish (fun x =>
    let f := fld (x.rg o.a.toNat).toNat o.pos.toNat n
    x.wg o.d.toNat (if o.n then BitVec.ofNat 64 f else toWord (sx n f))))

/-- `bfi` (R114): the field of the destination is replaced, its other bits are kept. -/
def execBfi (o : Bfi) (s : State) : Step :=
  let n := o.lenM1.toNat + 1
  let p := o.pos.toNat
  .next (s.finish (fun x =>
    let d := (x.rg o.d.toNat).toNat
    x.wg o.d.toNat (BitVec.ofNat 64
      (d / 2 ^ (p + n) * 2 ^ (p + n) + fld (x.rg o.a.toNat).toNat 0 n * 2 ^ p + d % 2 ^ p))))

/-- `sel` (R115). -/
def execSel (o : Sel) (s : State) : Step :=
  .next (s.finish (fun x =>
    x.wg o.d.toNat (if x.rp o.c.toNat then x.rg o.a.toNat else x.rg o.b.toNat)))

/-- The value of a g or p source as 64 bits (R116). -/
def Ctx.rgp (x : Ctx) : GP → Word
  | .g r => x.rg r.toNat
  | .p r => if x.rp r.toNat then 1 else 0

/-- `mov` (R116). -/
def execMov (o : Mov) (s : State) : Step :=
  .next (s.finish (fun x =>
    match o.d with
    | .g d => x.wg d.toNat (x.rgp o.a)
    | .p d => x.wp d.toNat (decide (x.rgp o.a ≠ 0))))

/-- The effect of `li` (R117). -/
def liWord (hi : Bool) (i old : Word) : Word :=
  if hi then BitVec.ofNat 64 (i.toNat % 2 ^ 32 * 2 ^ 32 + old.toNat % 2 ^ 32) else i

/-- `li` with imm16 (R117). -/
def execLiImm16 (o : Li16) (s : State) : Step :=
  .next (s.finish (fun x => x.wg o.d.toNat (liWord o.hi (imm16 o.imm) (x.rg o.d.toNat))))
/-- `li` with imm32 (R117). -/
def execLiImm32 (o : Li32) (s : State) : Step :=
  .next (s.finish (fun x => x.wg o.d.toNat (liWord o.hi (imm32 o.imm) (x.rg o.d.toNat))))

/-- `lea` with a 16-bit offset (R118). -/
def execLeaOff16 (o : Lea16) (s : State) : Step :=
  .next (s.finish (fun x => x.wg o.d.toNat (leaAdd (x.rg o.b.toNat) o.imm.toInt)))
/-- `lea` with a 32-bit offset (R118). -/
def execLeaOff32 (o : Lea32) (s : State) : Step :=
  .next (s.finish (fun x => x.wg o.d.toNat (leaAdd (x.rg o.b.toNat) o.imm.toInt)))

/-- `ptag` (R119). -/
def execPtag (o : Ptag) (s : State) : Step :=
  .next (s.finish (fun x => x.wg o.d.toNat
    (BitVec.ofNat 64 (o.fmt.toNat * 2 ^ 58 + o.bl.toNat * 2 ^ 55 + (x.rg o.a.toNat).toNat % 2 ^ 55))))
/-- `pget` (R119). -/
def execPget (o : GG) (s : State) : Step :=
  .next (s.finish (fun x => x.wg o.d.toNat (BitVec.ofNat 64 (fld (x.rg o.a.toNat).toNat 55 9))))

/-- `ext` (R120). -/
def execExt (o : Ext) (s : State) : Step :=
  let k := 8 * 2 ^ o.s.toNat
  .next (s.finish (fun x => x.wg o.d.toNat
    (extInt (!o.n) k (lowBits k (x.rg o.a.toNat)))))

/-- `cmp` (R121). -/
def execCmpReg (o : CmpR) (s : State) : Step :=
  .next (s.finish (fun x => x.wp o.d.toNat (o.cc.holds (opWidth o.w) (x.rg o.a.toNat) (x.rg o.b.toNat))))
/-- `cmp` with imm16 (R121). -/
def execCmpImm16 (o : CmpI16) (s : State) : Step :=
  .next (s.finish (fun x => x.wp o.d.toNat (o.cc.holds (opWidth o.w) (x.rg o.a.toNat) (imm16 o.imm))))
/-- `cmp` with imm32 (R121). -/
def execCmpImm32 (o : CmpI32) (s : State) : Step :=
  .next (s.finish (fun x => x.wp o.d.toNat (o.cc.holds (opWidth o.w) (x.rg o.a.toNat) (imm32 o.imm))))

/-- `pand` (R122). -/
def execPand (o : PPP) (s : State) : Step :=
  .next (s.finish (fun x => x.wp o.d.toNat (x.rp o.a.toNat && x.rp o.b.toNat)))
/-- `por` (R122). -/
def execPor (o : PPP) (s : State) : Step :=
  .next (s.finish (fun x => x.wp o.d.toNat (x.rp o.a.toNat || x.rp o.b.toNat)))
/-- `pxor` (R122). -/
def execPxor (o : PPP) (s : State) : Step :=
  .next (s.finish (fun x => x.wp o.d.toNat (x.rp o.a.toNat != x.rp o.b.toNat)))
/-- `pnot` (R122). -/
def execPnot (o : PP) (s : State) : Step :=
  .next (s.finish (fun x => x.wp o.d.toNat (!x.rp o.a.toNat)))

/-! ### Control transfer (R123 to R128) -/

/-- The PC of the acting context. -/
def State.pc (s : State) : Word := (s.ctx s.cur).pc

/-- `br` to a target (R124). -/
def branch (p : PReg) (f : Bool) (t : Word) (s : State) : Step :=
  if (s.ctx s.cur).rp p.toNat != f then .next (s.transfer s.cur t id) else .next (s.complete s.cur)

/-- `br`, near (R124). -/
def execBrNear (o : BrNear) (s : State) : Step := branch o.p o.f (target s.pc o.disp.toInt o.slot.toNat) s
/-- `br`, far (R124). -/
def execBrFar (o : BrFar) (s : State) : Step := branch o.p o.f (target s.pc o.disp.toInt o.slot.toNat) s

/-- `jmp`, near (R125). -/
def execJmpNear (o : JmpNear) (s : State) : Step :=
  .next (s.transfer s.cur (target s.pc o.disp.toInt o.slot.toNat) id)
/-- `jmp`, far (R125). -/
def execJmpFar (o : JmpFar) (s : State) : Step :=
  .next (s.transfer s.cur (target s.pc o.disp.toInt o.slot.toNat) id)

/-- A transfer that links NextPC in a register (R125, R126). -/
def link (d : GReg) (t : Word) (s : State) : Step :=
  let np := s.nextPc s.cur
  .next (s.transfer s.cur t (fun x => x.wg d.toNat np))

/-- `jal`, near (R125). -/
def execJalNear (o : JalNear) (s : State) : Step := link o.d (target s.pc o.disp.toInt o.slot.toNat) s
/-- `jal`, far (R125). -/
def execJalFar (o : JalFar) (s : State) : Step := link o.d (target s.pc o.disp.toInt o.slot.toNat) s

/-- `jr` (R126): the target is read before the link is written. -/
def execJr (o : GG) (s : State) : Step := link o.d ((s.ctx s.cur).rg o.a.toNat) s

/-- `loop` (R127). -/
def execLoop (o : JalNear) (s : State) : Step :=
  let n := (s.ctx s.cur).rg o.d.toNat - 1
  if n ≠ 0 then .next (s.transfer s.cur (target s.pc o.disp.toInt o.slot.toNat) (fun x => x.wg o.d.toNat n))
  else .next (s.finish (fun x => x.wg o.d.toNat 0))

/-- `nop` (R128). -/
def execNop (s : State) : Step := .next (s.complete s.cur)

/-! ### Scalar floating point (R136 to R142) -/

/-- An arithmetic instruction with its conditions (R137). -/
def floatArith (op : FOp) (f : FFmt) (d : GReg) (a b c : Word) (rm : RMode) (s : State) : Step :=
  .next (s.finish (fun x => x.putFlags d.toNat (scalarArith op f a b c rm)))

/-- G(r) of the acting context. -/
def State.g (s : State) (r : GReg) : Word := (s.ctx s.cur).rg r.toNat

/-- `fadd` (R137). -/
def execFadd (o : FArith) (s : State) : Step := floatArith .add o.ft.fmt o.d (s.g o.a) (s.g o.b) 0 o.rm s
/-- `fsub` (R137). -/
def execFsub (o : FArith) (s : State) : Step := floatArith .sub o.ft.fmt o.d (s.g o.a) (s.g o.b) 0 o.rm s
/-- `fmul` (R137). -/
def execFmul (o : FArith) (s : State) : Step := floatArith .mul o.ft.fmt o.d (s.g o.a) (s.g o.b) 0 o.rm s
/-- `fma` (R137). -/
def execFma (o : FFma) (s : State) : Step := floatArith .fma o.ft.fmt o.d (s.g o.a) (s.g o.b) (s.g o.c) o.rm s
/-- `fdiv` (R137). -/
def execFdiv (o : FArith) (s : State) : Step := floatArith .div o.ft.fmt o.d (s.g o.a) (s.g o.b) 0 o.rm s
/-- `fsqrt` (R137). -/
def execFsqrt (o : FUn) (s : State) : Step := floatArith .sqrt o.ft.fmt o.d (s.g o.a) 0 0 o.rm s

/-- `fmin` and `fmax` (R138). -/
def floatMinMax (isMax : Bool) (o : FMinMax) (s : State) : Step :=
  let f := o.ft.fmt
  .next (s.finish (fun x => x.wg o.d.toNat (BitVec.ofNat 64
    (fminmax isMax f (lowBits f.bits (x.rg o.a.toNat)) (lowBits f.bits (x.rg o.b.toNat))))))

/-- `fmin` (R138). -/
def execFmin (o : FMinMax) (s : State) : Step := floatMinMax false o s
/-- `fmax` (R138). -/
def execFmax (o : FMinMax) (s : State) : Step := floatMinMax true o s

/-- `fcmp` (R140). -/
def execFcmp (o : FCmp) (s : State) : Step :=
  .next (s.finish (fun x =>
    let r := scalarCompare o.cc o.ft.fmt (x.rg o.a.toNat) (x.rg o.b.toNat)
    (x.wp o.d.toNat r.1).orFlags r.2))

/-- `fcvt` (R142). -/
def execFcvt (o : FCvt) (s : State) : Step :=
  .next (s.finish (fun x => x.putFlags o.d.toNat (scalarConvert o.src o.dst (x.rg o.a.toNat) o.rm o.sat)))

/-- `fclass` (R139). -/
def execFclass (o : FClass) (s : State) : Step :=
  let f := o.ft.fmt
  .next (s.finish (fun x => x.wg o.d.toNat (BitVec.ofNat 64 (fclassMask f (lowBits f.bits (x.rg o.a.toNat))))))

/-- The sign bit that `fsgn` writes (R141). -/
def sgnBit (sg : SgnSel) (sa sb : Nat) : Nat :=
  match sg with
  | .cp => sb
  | .neg => 1 - sb
  | .xor => (sa + sb) % 2

/-- `fsgn` (R141). -/
def execFsgn (o : FSgn) (s : State) : Step :=
  let w := o.ft.fmt.bits
  .next (s.finish (fun x =>
    let a := (x.rg o.a.toNat).toNat
    let sgn := sgnBit o.sg (fld a (w - 1) 1) (fld (x.rg o.b.toNat).toNat (w - 1) 1)
    x.wg o.d.toNat (BitVec.ofNat 64 (sgn * 2 ^ (w - 1) + a % 2 ^ (w - 1)))))

end Sys2Proof.Machine
end

