-- ==== Sys2Proof/Machine/VectorMem.lean ====
section
/-! DEFINITION. Registers III: vector loads and stores 0x60 to 0x65 (R158 to R163). -/

namespace Sys2Proof.Machine

/-- The enabled lanes of n, in ascending order. -/
def laneList (m : Word) (n : Nat) : List Nat := (List.range n).filter (fun i => m.getLsbD i)

/-- A vector load of lanes of `b` bytes at the addresses `ea` (R159). -/
def vecLoad (d : VReg) (m : Word) (w : Nat) (ea : Nat → Word) (s : State) : State :=
  let is := laneList m (512 / w)
  let b := w / 8
  let eas := is.map ea
  s.orStop (match s.placeAll s.cur .vector b .read eas with
      | .error e => .error e
      | .ok ls => s.loadLanes s.cur b (eas.zip ls))
    (fun vs => s.finish (fun x => x.wv d.toNat
      (lanes w (512 / w) (fun i => match (is.zip vs).find? (fun q => decide (q.1 = i)) with
        | some q => q.2
        | none => lane (x.rv d.toNat) w i))))

/-- A vector store of lanes of `b` bytes (R159): the values by lane. -/
def vecStore (is : List Nat) (b : Nat) (ea : Nat → Word) (val : Nat → Nat) (s : State) : State :=
  s.orStop (match s.placeAll s.cur .vector b .write (is.map ea) with
      | .error e => .error e
      | .ok ls =>
        match s.storesReady s.cur b ls with
        | .error e => .error e
        | .ok _ => .ok ls)
    (fun ls => (s.storeAll s.cur b (ls.zip (is.map val))).complete s.cur)

/-- The address of lane i of `vld` and `vst` (R160). -/
def State.laneEa (s : State) (b : GReg) (o : Int) (w i : Nat) : Word := leaAdd ((s.ctx s.cur).rg b.toNat) (o + i * (w / 8))

/-- The address of lane i of `vldx` and `vstx` (R161). -/
def State.laneEax (s : State) (b : GReg) (o : Int) (c : VReg) (sc : BitVec 2) (w i : Nat) : Word :=
  leaAdd ((s.ctx s.cur).rg b.toNat) (o + sx w (lane ((s.ctx s.cur).rv c.toNat) w i) * 2 ^ sc.toNat)

/-- `vld` (R160). -/
def vldInstr (v : VReg) (b om : GReg) (z : BitVec 2) (wait : WaitF) (o : Int) (s : State) : Step :=
  let w := 8 * 2 ^ z.toNat
  s.whenWaited wait (vecLoad v ((s.ctx s.cur).mask om) w (s.laneEa b o w) s)

/-- `vst` (R160). -/
def vstInstr (v : VReg) (b om : GReg) (z : BitVec 2) (wait : WaitF) (o : Int) (s : State) : Step :=
  let w := 8 * 2 ^ z.toNat
  let x := s.ctx s.cur
  s.whenWaited wait (vecStore (laneList (x.mask om) (512 / w)) (w / 8) (s.laneEa b o w)
    (fun i => lane (x.rv v.toNat) w i) s)

/-- `vldx` (R161). -/
def vldxInstr (v : VReg) (b : GReg) (c : VReg) (om : GReg) (sc z : BitVec 2) (wait : WaitF) (o : Int) (s : State) : Step :=
  let w := 8 * 2 ^ z.toNat
  s.whenWaited wait (vecLoad v ((s.ctx s.cur).mask om) w (s.laneEax b o c sc w) s)

/-- `vstx` (R161). -/
def vstxInstr (v : VReg) (b : GReg) (c : VReg) (om : GReg) (sc z : BitVec 2) (wait : WaitF) (o : Int) (s : State) : Step :=
  let w := 8 * 2 ^ z.toNat
  let x := s.ctx s.cur
  s.whenWaited wait (vecStore (laneList (x.mask om) (512 / w)) (w / 8) (s.laneEax b o c sc w)
    (fun i => lane (x.rv v.toNat) w i) s)

/-- `vld` without an offset (R160). -/
def execVldNoOffset (o : VMem) (s : State) : Step := vldInstr o.v o.b o.om o.z o.wait 0 s
/-- `vld` with a 32-bit offset (R160). -/
def execVldOff32 (o : VMem32) (s : State) : Step := vldInstr o.v o.b o.om o.z o.wait o.imm.toInt s
/-- `vst` without an offset (R160). -/
def execVstNoOffset (o : VMem) (s : State) : Step := vstInstr o.v o.b o.om o.z o.wait 0 s
/-- `vst` with a 32-bit offset (R160). -/
def execVstOff32 (o : VMem32) (s : State) : Step := vstInstr o.v o.b o.om o.z o.wait o.imm.toInt s
/-- `vldx` without an offset (R161). -/
def execVldxNoOffset (o : VIdx) (s : State) : Step := vldxInstr o.v o.b o.c o.om o.sc o.z o.wait 0 s
/-- `vldx` with a 32-bit offset (R161). -/
def execVldxOff32 (o : VIdx32) (s : State) : Step := vldxInstr o.v o.b o.c o.om o.sc o.z o.wait o.imm.toInt s
/-- `vstx` without an offset (R161). -/
def execVstxNoOffset (o : VIdx) (s : State) : Step := vstxInstr o.v o.b o.c o.om o.sc o.z o.wait 0 s
/-- `vstx` with a 32-bit offset (R161). -/
def execVstxOff32 (o : VIdx32) (s : State) : Step := vstxInstr o.v o.b o.c o.om o.sc o.z o.wait o.imm.toInt s

/-! ### With a format tag (R162, R163) -/

/-- The operands of `vldf` and `vstf` with the element offset. -/
structure VFmtOp where
  v : VReg
  b : GReg
  om : GReg
  kc : BitVec 2
  vt : VTy
  rm : RMode
  sat : Bool
  o : Int
  deriving DecidableEq, Repr

/-- N of R162. -/
def VFmtOp.count (o : VFmtOp) : Nat := 2 ^ o.kc.toNat * o.vt.lanes

/-- The elements that are enabled; a group takes no mask. -/
def VFmtOp.elems (o : VFmtOp) (x : Ctx) : List Nat :=
  if o.om = 0 then List.range o.count else laneList (x.mask o.om) o.count

/-- The accepted format pairs (R162). -/
def VFmtOp.tag (o : VFmtOp) (p : Word) : Option Tag :=
  match tagOf (ptrFmt p) with
  | some .raw => some .raw
  | some (.mx t) => if o.vt = .f32 ∨ o.vt = .bf16 then some (.mx t) else none
  | some (.num f) => if o.vt = .n64 ∨ f = .flt FloatTy.f64.fmt then none else some (.num f)
  | none => none

/-- The lane of the group that element e belongs to. -/
def VFmtOp.code (o : VFmtOp) (x : Ctx) (e : Nat) : Nat :=
  lane (x.rv (o.v.toNat + e / o.vt.lanes)) o.vt.width (e % o.vt.lanes)

/-- Whether a conversion between two formats rounds: only then are random numbers drawn. -/
def NFmt.rounds (f g : NFmt) : Bool := !(NFmt.isInt f && NFmt.isInt g)

/-- Check the accesses of the elements of an MX tensor, each a lane, in order (R159 step 1, R226): the places, or the first
failure. -/
def State.placeMx (s : State) (c : CtxId) (acc : Acc) (p : Word) (B b : Nat) : List Int → Except Stop (List Loc)
  | [] => .ok []
  | j :: r =>
    let lane := leaAdd p (mxElemOff B b j)
    if mxSplit c.core p B b j then .error (.cause .addressForm lane)
    else match s.placeLane c .vector 1 acc lane (mxAccesses p B b j) with
      | .error e => .error e
      | .ok l =>
        match s.placeMx c acc p B b r with
        | .error e => .error e
        | .ok ls => .ok (l ++ ls)

/-- A misaligned tensor address stops at the lowest enabled lane. -/
def mxAligned (p : Word) (B b : Nat) (js : List Int) : Except Stop Unit :=
  match js with
  | [] => .ok ()
  | j :: _ =>
    let a := leaAdd p (mxElemOff B b j)
    if !tagOk p then .error (.cause .addressForm a)
    else if adr p % 8 ≠ 0 then .error (.cause .misaligned a) else .ok ()

/-- The elements of an MX tensor as values (R55). -/
def State.mxRead (s : State) (p : Word) (t : MxTy) (js : List Int) : Except Stop (List Fl) :=
  let B := ptrBlock p
  let b := MxTy.bits t
  match mxAligned p B b js with
  | .error e => .error e
  | .ok _ =>
    match s.placeMx s.cur .read p B b js with
    | .error e => .error e
    | .ok ls =>
      match s.loadLanes s.cur 1 ((js.flatMap (fun j =>
          (mxAccesses p B b j).map (fun _ => leaAdd p (mxElemOff B b j)))).zip ls) with
      | .error e => .error e
      | .ok vs => .ok ((js.foldl (fun (acc : List Fl × List Nat) j =>
          let k := (mxElemBytes p B b j).length
          (acc.1 ++ [mxScaled t (acc.2.getD k 0) (mxCode B b j acc.2)], acc.2.drop (k + 1))) ([], vs)).1)

/-- Write the converted elements of a group into its registers. -/
def VFmtOp.fill (o : VFmtOp) (es : List (Nat × Nat)) (x : Ctx) : Ctx :=
  (List.range (2 ^ o.kc.toNat)).foldl (fun x r =>
    x.wv (o.v.toNat + r) (lanes o.vt.width o.vt.lanes (fun i =>
      match es.find? (fun q => decide (q.1 = r * o.vt.lanes + i)) with
      | some q => q.2
      | none => lane (x.rv (o.v.toNat + r)) o.vt.width i))) x

/-- `vldf` (R162). -/
def vldfInstr (o : VFmtOp) (s : State) : State :=
  let x := s.ctx s.cur
  let p := x.rg o.b.toNat
  let es := o.elems x
  let done (vs : List Nat) (rng : Word) : State := s.finish (fun x => { o.fill (es.zip vs) x with csrng := rng })
  match o.tag p with
  | none => s.stopped s.cur (.cause .operandReserved p)
  | some (.mx t) =>
    s.orStop (s.mxRead p t (es.map (fun (e : Nat) => o.o + e))) (fun vs =>
      let (rs, z) := drawsFor o.rm o.count x.csrng
      done ((es.zip vs).map (fun (e, v) => ((VTy.fmt o.vt).deliver v o.rm o.sat (rs.getD e 0)).1)) z)
  | some .raw =>
    let b := o.vt.width / 8
    let eas := es.map (fun (e : Nat) => leaAdd p ((o.o + e) * b))
    s.orStop (match s.placeAll s.cur .vector b .read eas with
      | .error e => .error e
      | .ok ls => s.loadLanes s.cur b (eas.zip ls)) (fun vs => done vs x.csrng)
  | some (.num f) =>
    let b := f.bits / 8
    let eas := es.map (fun (e : Nat) => leaAdd p ((o.o + e) * b))
    s.orStop (match s.placeAll s.cur .vector b .read eas with
      | .error e => .error e
      | .ok ls => s.loadLanes s.cur b (eas.zip ls)) (fun vs =>
        let (rs, z) := drawsFor o.rm (if NFmt.rounds f (VTy.nfmt o.vt) then o.count else 0) x.csrng
        done ((es.zip vs).map (fun (e, v) => (convertBy f (VTy.nfmt o.vt) v o.rm o.sat (rs.getD e 0)).1)) z)

/-- Make stores of given sizes once all are checked. -/
def State.storeBytes (s : State) (b : Nat) (eas : List Word) (vals : List Nat) (f : State → State) : State :=
  s.orStop (match s.placeAll s.cur .vector b .write eas with
      | .error e => .error e
      | .ok ls =>
        match s.storesReady s.cur b ls with
        | .error e => .error e
        | .ok _ => .ok ls)
    (fun ls => (f (s.storeAll s.cur b (ls.zip vals))).complete s.cur)

/-- The bytes that quantising a register group writes, block by block: scale, then element bytes (R163). -/
def mxStores (p : Word) (t : MxTy) (sat : Bool) (rm : RMode) (j0 : Int) (xs : List Fl) (rs : List Nat) : List (Word × Nat) :=
  let B := ptrBlock p
  let b := MxTy.bits t
  (List.range (xs.length / B)).flatMap (fun k =>
    let (scale, codes) := mxQuant t ((xs.drop (k * B)).take B) rm sat ((rs.drop (k * B)).take B)
    let j := j0 + k * B
    let bytes := mxPack b codes
    (leaAdd p (mxScaleOff B b j), scale) ::
      (List.range (B * b / 8)).map (fun (i : Nat) => (leaAdd p (mxElemOff B b j + i), bytes / 256 ^ i % 256)))

/-- `vstf` (R163). -/
def vstfInstr (o : VFmtOp) (s : State) : State :=
  let x := s.ctx s.cur
  let p := x.rg o.b.toNat
  let es := o.elems x
  let keep (z : Word) (s : State) : State := s.modCtx s.cur (fun x => { x with csrng := z })
  match o.tag p with
  | none => s.stopped s.cur (.cause .operandReserved p)
  | some (.mx t) =>
    let B := ptrBlock p
    let b := MxTy.bits t
    if o.om ≠ 0 ∨ o.o % B ≠ 0 ∨ o.count % B ≠ 0 then
      s.stopped s.cur (.cause .operandReserved (s.headAt s.cur))
    else
      let js : List Int := es.map (fun (e : Nat) => o.o + e)
      s.orStop (match mxAligned p B b js with
        | .error e => .error e
        | .ok _ => s.placeMx s.cur .write p B b js)
        (fun _ =>
          let (rs, z) := drawsFor o.rm o.count x.csrng
          let xs := es.map (fun e => (VTy.fmt o.vt).value (o.code x e))
          let ws := mxStores p t o.sat o.rm o.o xs rs
          s.storeBytes 1 (ws.map (·.1)) (ws.map (·.2)) (keep z))
  | some .raw =>
    let b := o.vt.width / 8
    s.storeBytes b (es.map (fun (e : Nat) => leaAdd p ((o.o + e) * b))) (es.map (fun e => o.code x e)) id
  | some (.num f) =>
    let b := f.bits / 8
    let (rs, z) := drawsFor o.rm (if NFmt.rounds (VTy.nfmt o.vt) f then o.count else 0) x.csrng
    s.storeBytes b (es.map (fun (e : Nat) => leaAdd p ((o.o + e) * b)))
      (es.map (fun e => (convertBy (VTy.nfmt o.vt) f (o.code x e) o.rm o.sat (rs.getD e 0)).1)) (keep z)

/-- `vldf` without an offset (R162). -/
def execVldfNoOffset (o : VFmtMem) (s : State) : Step :=
  s.whenWaited o.wait (vldfInstr ⟨o.v, o.b, o.om, o.kc, o.vt, o.rm, o.sat, 0⟩ s)
/-- `vldf` with a 32-bit element offset (R162). -/
def execVldfOff32 (o : VFmtMem32) (s : State) : Step :=
  s.whenWaited o.wait (vldfInstr ⟨o.v, o.b, o.om, o.kc, o.vt, o.rm, o.sat, o.imm.toInt⟩ s)
/-- `vstf` without an offset (R163). -/
def execVstfNoOffset (o : VFmtMem) (s : State) : Step :=
  s.whenWaited o.wait (vstfInstr ⟨o.v, o.b, o.om, o.kc, o.vt, o.rm, o.sat, 0⟩ s)
/-- `vstf` with a 32-bit element offset (R163). -/
def execVstfOff32 (o : VFmtMem32) (s : State) : Step :=
  s.whenWaited o.wait (vstfInstr ⟨o.v, o.b, o.om, o.kc, o.vt, o.rm, o.sat, o.imm.toInt⟩ s)

end Sys2Proof.Machine
end

