-- ==== Sys2Proof/Machine/Comb.lean ====
section
/-! DEFINITION. Tables III: the comb store, bindings and the micro-operations of comb sequences (R388 to R399). -/

namespace Sys2Proof.Machine

/-! ### The comb store (R388) -/

/-- The store word that region word i of a slot is. -/
def regionWord (slot i : Nat) : Nat := 512 * slot + i

/-- Region word i of a context. -/
def State.combWord (s : State) (c : CtxId) (i : Nat) : BitVec 32 :=
  NMap.get 0 (s.core c.coreId).comb (regionWord c.slot i)

/-- Whether the pair that holds a region word is poisoned (R234). -/
def State.combPoisoned (s : State) (c : CtxId) (i : Nat) : Bool :=
  NSet.mem (s.core c.coreId).combPois (regionWord c.slot i / 2)

/-! ### Micro-operation words (R390 to R392) -/

/-- UOP. -/
def uopOf (w : BitVec 32) : Nat := fld w.toNat 26 6
/-- MOD. -/
def modOf (w : BitVec 32) : Nat := fld w.toNat 21 5
/-- Operand codes D, A and B. -/
def opD (w : BitVec 32) : Nat := fld w.toNat 14 7
@[inherit_doc opD]
def opA (w : BitVec 32) : Nat := fld w.toNat 7 7
@[inherit_doc opD]
def opB (w : BitVec 32) : Nat := fld w.toNat 0 7

/-- What an operand field accepts: class S, S or P, V, P, nothing, or a micro-branch target. -/
inductive UField where
  | s | sp | v | p | dash | target
  deriving DecidableEq, Repr

/-- The fields D, A and B of a micro-op and whether D is written; `none` for a reserved UOP (R392). -/
def uShape (u : Nat) : Option (UField × UField × UField × Bool) :=
  if u ≤ 0x0C then some (.s, .s, .s, true)
  else if u = 0x0D then some (.s, .s, .dash, true)
  else if u = 0x0E then some (.sp, .sp, .dash, true)
  else if u = 0x0F then some (.p, .s, .s, true)
  else if u ≤ 0x12 then some (.p, .p, .p, true)
  else if u ≤ 0x18 then some (.s, .s, .s, true)
  else if u = 0x19 then some (.p, .s, .s, true)
  else if u ≤ 0x24 then some (.v, .v, .v, true)
  else if u = 0x25 then some (.v, .s, .dash, true)
  else if u = 0x26 then some (.v, .v, .dash, true)
  else if u = 0x27 then some (.s, .v, .dash, true)
  else if u = 0x28 then some (.s, .s, .s, true)
  else if u = 0x29 then some (.s, .s, .s, false)
  else if u = 0x2A then some (.v, .s, .s, true)
  else if u = 0x2B then some (.v, .s, .s, false)
  else if u = 0x2C then some (.p, .target, .dash, false)
  else if u = 0x2D then some (.s, .target, .dash, true)
  else if u = 0x2E then some (.p, .dash, .dash, false)
  else none

/-- VT of a vector micro-op. -/
def uVt (m : Nat) : Option VTy := VTy.ofCode (m / 2)

/-- The MOD column of R392 with the bounds of R396 step 3. -/
def uModOk (u m : Nat) : Bool :=
  let vtAny (r : Bool) : Bool := match uVt m with
    | some t => if m % 2 = 0 then true else r && t.isF
    | none => false
  if u ≤ 0x0C then decide (m % 8 = 0)
  else if u = 0x0D then decide (m % 16 = 0)
  else if u = 0x0E then decide (m = 0)
  else if u = 0x0F then decide (m / 8 % 2 = 0)
  else if u ≤ 0x12 then decide (m = 0)
  else if u ≤ 0x16 then decide (m / 8 ≠ 3) && decide (m % 8 ≤ 3)
  else if u ≤ 0x18 then decide (m / 8 ≠ 3) && decide (m % 8 = 0)
  else if u = 0x19 then decide (m / 8 ≠ 3) && decide (m % 8 ≤ 4)
  else if u ≤ 0x1D then vtAny true
  else if u ≤ 0x22 then vtAny false
  else if u ≤ 0x24 then (match uVt m with
    | some t => decide (m % 2 = 0) && !t.isF
    | none => false)
  else if u ≤ 0x26 then vtAny false
  else if u = 0x27 then vtAny true
  else if u = 0x28 then decide (m % 4 = 0) && !(decide (m / 8 = 3) && decide (m / 4 % 2 = 1))
  else if u ≤ 0x2B then decide (m % 8 = 0)
  else if u = 0x2C then decide (m % 16 = 0)
  else if u = 0x2D then decide (m = 0)
  else decide (m % 16 = 0)

/-- Whether an operand code may stand in a field (R391); `len` bounds a target. -/
def uCodeOk (len : Nat) (f : UField) (c : Nat) : Bool :=
  let dollar := decide (0x44 ≤ c) && decide (c ≤ 0x46)
  let isS := decide (c < 0x20) || (decide (0x38 ≤ c) && decide (c ≤ 0x3F)) || decide (c = 0x47) || decide (0x60 ≤ c)
  let isP := decide (0x30 ≤ c) && decide (c ≤ 0x37)
  match f with
  | .s => isS || dollar
  | .sp => isS || isP || dollar
  | .v => (decide (0x20 ≤ c) && decide (c ≤ 0x2F)) || (decide (0x40 ≤ c) && decide (c ≤ 0x43)) || dollar
  | .p => isP || dollar
  | .dash => decide (c = 0)
  | .target => decide (c < len)

/-- Whether a code is a source only. -/
def sourceOnly (c : Nat) : Bool := decide (c = 0x47) || decide (0x60 ≤ c)

/-- The class that a `$` code takes in a field (R391): 1 g, 2 v, 3 p. -/
def UField.cls : UField → Nat
  | .s => 1 | .sp => 1 | .v => 2 | .p => 3 | .dash => 0 | .target => 0

/-- The classes that `$d`, `$a` and `$b` have met. -/
structure Dollars where
  d : Nat := 0
  a : Nat := 0
  b : Nat := 0
  deriving DecidableEq, Repr

/-- One operand field meets the `$` classes met so far; `none` where they differ. -/
def Dollars.meet (q : Dollars) (f : UField) (c : Nat) : Option Dollars :=
  let k := f.cls
  if c = 0x44 ∧ k ≠ 0 then (if q.d = 0 ∨ q.d = k then some { q with d := k } else none)
  else if c = 0x45 ∧ k ≠ 0 then (if q.a = 0 ∨ q.a = k then some { q with a := k } else none)
  else if c = 0x46 ∧ k ≠ 0 then (if q.b = 0 ∨ q.b = k then some { q with b := k } else none)
  else some q

/-- The check of one word (R396 step 3); `none` where it breaks a rule. -/
def microOk (len : Nat) (w : BitVec 32) (q : Dollars) : Option Dollars :=
  match uShape (uopOf w) with
  | none => none
  | some (fd, fa, fb, dst) =>
    if uModOk (uopOf w) (modOf w) && uCodeOk len fd (opD w) && uCodeOk len fa (opA w) && uCodeOk len fb (opB w) &&
       !(dst && sourceOnly (opD w)) then
      ((q.meet fd (opD w)).bind (fun q => q.meet fa (opA w))).bind (fun q => q.meet fb (opB w))
    else none

/-- The check of a sequence from region word i on: the first offending index, or the classes. -/
def seqOk (len : Nat) : Nat → List (BitVec 32) → Dollars → Except Nat Dollars
  | _, [], q => .ok q
  | i, w :: r, q =>
    match microOk len w q with
    | none => .error i
    | some q => seqOk len (i + 1) r q

/-! ### cload, cbind and cunbind (R395, R396) -/

/-- Write words to a region from word f on: a pair written whole loses its poison. -/
def Core.putComb (k : Core) (slot f : Nat) (ws : List Nat) : Core :=
  let lo := regionWord slot f
  let hi := lo + ws.length
  { k with
    comb := (ws.zipIdx).foldl (fun m (w, i) => NMap.set 0 m (lo + i) (BitVec.ofNat 32 w)) k.comb
    combPois := k.combPois.filter (fun p => !(decide (lo ≤ 2 * p) && decide (2 * p + 1 < hi))) }

/-- Whether binding b uses a word of f to f + n − 1: with n = 0 there is none. -/
def Binding.meets (b : Binding) (f n : Nat) : Bool :=
  b.valid && decide (n ≠ 0) && decide (b.start < f + n) && decide (f < b.start + b.len)

/-- Clear VALID in the entries that satisfy p; the rest of an entry stays. -/
def Ctx.unbind (x : Ctx) (p : Nat → Binding → Bool) : Ctx :=
  { x with binds := (List.range 32).foldl (fun m k =>
      let b := NMap.get {} m k
      if p k b then NMap.set {} m k { b with valid := false } else m) x.binds }

/-- `cload` (R395). -/
def execCload (o : CLoad) (s : State) : Step :=
  let c := s.cur
  let x := s.ctx c
  let b := (x.rg o.b.toNat).toNat
  let f := fld b 0 9
  let n := fld b 16 10
  .next (if fld b 26 38 ≠ 0 ∨ fld b 9 7 ≠ 0 ∨ 512 < n ∨ 512 < f + n then
      s.stopped c (.cause .operandReserved (s.headAt c))
    else
      let eas := (List.range n).map (fun (i : Nat) => leaAdd (x.rg o.a.toNat) (4 * i))
      s.orStop (match s.placeAll c .cload 4 .read eas with
        | .error e => .error e
        | .ok ls => s.loadAll c 4 ls) (fun ws =>
      let r := maskWord 32 (fun k => (x.bind k).meets f n)
      let s := s.modCore c.coreId (fun k => k.putComb c.slot f ws)
      s.finish (fun x => (x.unbind (fun _ b => b.meets f n)).wg o.d.toNat r)))

/-- `cbind` (R396). -/
def execCbind (o : CBind) (s : State) : Step :=
  let c := s.cur
  let start := fld ((s.ctx c).rg o.a.toNat).toNat 0 9
  let len := o.lenM1.toNat + 1
  let at_ (i : Nat) : Word := BitVec.ofNat 64 i
  .next (if 512 < start + len then s.stopped c (.cause .operandReserved (s.headAt c))
    else match (List.range len).find? (fun i => s.combPoisoned c (start + i)) with
    | some i => s.stopped c (.cause .poisonConsumed (at_ (start + i)))
    | none =>
      match seqOk len start ((List.range len).map (fun i => s.combWord c (start + i))) {} with
      | .error i => s.stopped c (.cause .combBind (at_ i))
      | .ok q => s.finish (fun x => { x with
          binds := NMap.set {} x.binds o.k.toNat ⟨true, start, len, q.d, q.a, q.b⟩ }))

/-- `cunbind` (R396). -/
def execCunbind (a : GReg) (s : State) : Step :=
  .next (s.finish (fun x => x.unbind (fun k _ => (x.rg a.toNat).getLsbD k)))

/-! ### Invoking a binding (R397, R399) -/

/-- Whether an operand field of a comb instruction keeps the class its binding gives it (R397). -/
def fieldClassOk (cls code : Nat) : Bool :=
  decide (code < 56) && (match cls with
  | 0 => decide (code = 0)
  | 1 => decide (code < 32)
  | 2 => decide (32 ≤ code) && decide (code < 48)
  | _ => decide (48 ≤ code))

/-- `comb.N` (R397), or the resumption of the frame that `tret` has reloaded for it (R399). -/
def combInvoke (n d a b : Nat) (imm : Word) (s : State) : Step :=
  let c := s.cur
  let x := s.ctx c
  let e := x.bind n
  let old := match x.resume with
    | some f => if f.k = n then some f else none
    | none => none
  let s := s.modCtx c (fun x => { x with resume := none })
  .next (if !e.valid then s.stopped c (.cause .opcodeUndefined (s.headAt c))
    else if !(fieldClassOk e.cd d && fieldClassOk e.ca a && fieldClassOk e.cb b) then
      s.stopped c (.cause .operandReserved (s.headAt c))
    else match old with
    | some f => if e.len ≤ f.upc then s.complete c else s.modCtx c (fun x => { x with live := some ⟨f, d, a, b, imm⟩ })
    | none => s.modCtx c (fun x => { x with live := some ⟨⟨n, 0, 0, [], []⟩, d, a, b, imm⟩ }))

/-- `comb.N` with tail code 0 (R69, R397). -/
def execCombTail0 (o : Comb0) (s : State) : Step := combInvoke o.k.toNat o.d.toNat 0 0 0 s
/-- `comb.N` with tail code 1 (R69, R397). -/
def execCombTail1 (o : Comb1) (s : State) : Step := combInvoke o.k.toNat o.d.toNat o.a.toNat o.b.toNat 0 s
/-- `comb.N` with tail code 2 (R69, R397). -/
def execCombTail2 (o : Comb2) (s : State) : Step := combInvoke o.k.toNat o.d.toNat o.a.toNat o.b.toNat (imm16 o.imm) s
/-- `comb.N` with tail code 3 (R69, R397). -/
def execCombTail3 (o : Comb3) (s : State) : Step := combInvoke o.k.toNat o.d.toNat o.a.toNat o.b.toNat (imm32 o.imm) s

/-! ### Micro-operations (R393, R394) -/

/-- The operand that a code names once `$d`, `$a` and `$b` are replaced by the registers of the comb
instruction, whose codes are the same as those of a micro-op. -/
def Live.code (l : Live) (c : Nat) : Nat := if c = 0x44 then l.d else if c = 0x45 then l.a else if c = 0x46 then l.b else c

/-- The value of a class S operand. -/
def Ctx.uS (x : Ctx) (l : Live) (code : Nat) : Word :=
  let c := l.code code
  if c < 0x20 then x.rg c
  else if 0x38 ≤ c ∧ c ≤ 0x3F then NMap.get 0 l.f.h (c - 0x38)
  else if c = 0x47 then l.imm
  else toWord ((c : Int) - 0x70)

/-- The value of a class V operand. -/
def Ctx.uV (x : Ctx) (l : Live) (code : Nat) : Vec :=
  let c := l.code code
  if c < 0x30 then x.rv (c - 0x20) else NMap.get 0 l.f.q (c - 0x40)

/-- The value of a class P operand. -/
def Ctx.uP (x : Ctx) (l : Live) (code : Nat) : Bool := x.rp (l.code code - 0x30)

/-- Whether a code names a p register. -/
def Live.isP (l : Live) (code : Nat) : Bool := decide (0x30 ≤ l.code code) && decide (l.code code ≤ 0x37)

/-- A context with its live frame changed. -/
def Ctx.putFrame (x : Ctx) (l : Live) (f : Frame → Frame) : Ctx := { x with live := some { l with f := f l.f } }

/-- Write a class S destination. -/
def Ctx.wuS (x : Ctx) (l : Live) (code : Nat) (w : Word) : Ctx :=
  let c := l.code code
  if c < 0x20 then x.wg c w else x.putFrame l (fun f => { f with h := NMap.set 0 f.h (c - 0x38) w })

/-- Write a class V destination. -/
def Ctx.wuV (x : Ctx) (l : Live) (code : Nat) (w : Vec) : Ctx :=
  let c := l.code code
  if c < 0x30 then x.wv (c - 0x20) w else x.putFrame l (fun f => { f with q := NMap.set 0 f.q (c - 0x40) w })

/-- Write a class P destination. -/
def Ctx.wuP (x : Ctx) (l : Live) (code : Nat) (b : Bool) : Ctx := x.wp (l.code code - 0x30) b

/-- The integer operations of UOP 0x00 to 0x0C. -/
def uAlu (u : Nat) : AluOp :=
  if u = 0 then .add else if u = 1 then .sub else if u = 2 then .mul else if u = 3 then .mulh
  else if u = 4 then .and else if u = 5 then .or else if u = 6 then .xor else if u = 7 then .andn
  else if u = 8 then .shl else if u = 9 then .shr else if u = 10 then .sar else if u = 11 then .min else .max

/-- F of a scalar float micro-op. -/
def uFt (m : Nat) : FFmt :=
  (if m / 8 = 0 then FloatTy.f32 else if m / 8 = 1 then FloatTy.bf16 else FloatTy.h16).fmt

/-- RM of a scalar float micro-op. -/
def uRm (m : Nat) : RMode := if m % 8 = 0 then .rne else if m % 8 = 1 then .rtz else if m % 8 = 2 then .rdn else .rup

/-- F3 of a vector micro-op (R393). -/
def uF3 (m : Nat) : RMode := if m % 2 = 1 then .sr else .rne

/-- The micro-ops that change only registers: UOP 0x00 to 0x27. -/
def Ctx.uCompute (x : Ctx) (l : Live) (w : BitVec 32) : Ctx :=
  let u := uopOf w
  let m := modOf w
  let a := x.uS l (opA w)
  let b := x.uS l (opB w)
  let d := opD w
  let va := x.uV l (opA w)
  let vb := x.uV l (opB w)
  let vd := x.uV l d
  let vt := (uVt m).getD .i8
  let w32 := decide (m / 16 % 2 = 1)
  let float (op : FOp) (c : Word) : Ctx :=
    let r := scalarArith op (uFt m) a b c (uRm m)
    (x.wuS l d r.1).orFlags r.2
  let minmax (isMax : Bool) : Ctx := x.wuS l d (BitVec.ofNat 64
    (fminmax isMax (uFt m) (lowBits (uFt m).bits a) (lowBits (uFt m).bits b)))
  let varith (op : VOp) : Ctx :=
    let r := laneArith op vt (uF3 m) false allLanes vd va vb vd x.csrng
    { x.wuV l d r.1 with csrng := r.2 }
  if u ≤ 0x0C then x.wuS l d (alu (uAlu u) w32 (decide (m / 8 % 2 = 1)) a b)
  else if u = 0x0D then x.wuS l d (BitVec.ofNat 64 (popN a.toNat (opWidth w32)))
  else if u = 0x0E then
    let v : Word := if l.isP (opA w) then (if x.uP l (opA w) then 1 else 0) else a
    if l.isP d then x.wuP l d (decide (v ≠ 0)) else x.wuS l d v
  else if u = 0x0F then x.wuP l d (((ICond.ofCode (m % 8)).getD .eq).holds (opWidth w32) a b)
  else if u = 0x10 then x.wuP l d (x.uP l (opA w) && x.uP l (opB w))
  else if u = 0x11 then x.wuP l d (x.uP l (opA w) || x.uP l (opB w))
  else if u = 0x12 then x.wuP l d (x.uP l (opA w) != x.uP l (opB w))
  else if u = 0x13 then float .add 0
  else if u = 0x14 then float .sub 0
  else if u = 0x15 then float .mul 0
  else if u = 0x16 then float .fma (x.uS l d)
  else if u = 0x17 then minmax false
  else if u = 0x18 then minmax true
  else if u = 0x19 then
    let r := scalarCompare ((FCond.ofCode (m % 8)).getD .eq) (uFt m) a b
    (x.wuP l d r.1).orFlags r.2
  else if u = 0x1A then varith .add
  else if u = 0x1B then varith .sub
  else if u = 0x1C then varith .mul
  else if u = 0x1D then varith .fma
  else if u = 0x1E then varith .min
  else if u = 0x1F then varith .max
  else if u = 0x20 then x.wuV l d (laneBits (fun p q => p &&& q) vt allLanes vd va vb)
  else if u = 0x21 then x.wuV l d (laneBits (fun p q => p ||| q) vt allLanes vd va vb)
  else if u = 0x22 then x.wuV l d (laneBits (fun p q => p ^^^ q) vt allLanes vd va vb)
  else if u = 0x23 then x.wuV l d (laneShift true vt false allLanes vd va (fun i => lane vb vt.width i))
  else if u = 0x24 then x.wuV l d (laneShift false vt false allLanes vd va (fun i => lane vb vt.width i))
  else if u = 0x25 then x.wuV l d (laneBcast vt allLanes vd (lowBits vt.width a))
  else if u = 0x26 then x.wuV l d (laneMov vt allLanes vd va)
  else
    let r := laneReduce .add vt (uF3 m) false allLanes va x.csrng
    { x.wuS l d r.1 with csrng := r.2 }

/-- The frame after a completed micro-op: one more executed, the micro-PC given. -/
def Ctx.uDone (x : Ctx) (upc : Nat) : Ctx :=
  { x with
    prog := {}
    live := x.live.map (fun l => { l with f := { l.f with cnt := l.f.cnt + 1, upc := upc } }) }

/-- The sequence goes on at a micro-PC, or the invocation ends past its last word (R397). -/
def State.uNext (s : State) (c : CtxId) (len upc : Nat) : State :=
  if len ≤ upc then (s.modCtx c (fun x => { x with live := none })).complete c
  else s.modCtx c (fun x => x.uDone upc)

/-- The spaces of a memory micro-op (R394): quad memory and the heap; a context of privilege U meets permission in
the device window before any other check (R232). -/
def State.uSpace (s : State) (c : CtxId) (acc : Acc) (ea : Word) : Except Stop Unit :=
  match spaceOf (resolve c.core (adr ea)) with
  | .quad _ => .ok ()
  | .heap => .ok ()
  | .device =>
    if (s.ctx c).priv then .error (.cause .addressForm ea)
    else .error (.raise ⟨.permission, ea, BitVec.ofNat 64 acc.code, 0⟩)
  | _ => .error (.cause .addressForm ea)

/-- The places of a memory micro-op's words of n bytes: the space of the first is restricted, and the access goes on as
that of `ld`, `st`, `vld` or `vst` (R394). -/
def State.uPlaces (s : State) (c : CtxId) (via : Via) (n : Nat) (acc : Acc) (eas : List Word) : Except Stop (List Loc) :=
  match s.uSpace c acc (eas.headD 0) with
  | .error e => .error e
  | .ok _ => s.placeAll c via n acc eas

/-- The checks of a memory micro-op's stores. -/
def State.uStores (s : State) (c : CtxId) (via : Via) (n : Nat) (eas : List Word) : Except Stop (List Loc) :=
  match s.uPlaces c via n .write eas with
  | .error e => .error e
  | .ok ls => (match s.storesReady c n ls with
    | .error e => .error e
    | .ok _ => .ok ls)

/-- Execute the micro-op at the micro-PC (R393, R394). -/
def State.micro (s : State) (c : CtxId) (l : Live) (len : Nat) (w : BitVec 32) : State :=
  let x := s.ctx c
  let u := uopOf w
  let m := modOf w
  let up := l.f.upc + 1
  let base := x.uS l (opA w)
  let off := ((x.uS l (opB w)).toNat : Int)
  let n : Nat := 2 ^ (m / 8)
  let vea (i : Nat) : Word := leaAdd (leaAdd base (off * 64)) (i * n)
  let veas := (List.range (64 / n)).map vea
  let go (s : State) (f : Ctx → Ctx) : State := (s.modCtx c f).uNext c len up
  if u = 0x28 then
    s.orStop (match s.uPlaces c (.scalar n) n .read [leaAdd base (off * n)] with
      | .error e => .error e
      | .ok ls => s.loadAll c n ls)
      (fun vs => go s (fun x => x.wuS l (opD w) (loadValue (BitVec.ofNat 2 (m / 8)) (decide (m / 4 % 2 = 1)) (vs.headD 0))))
  else if u = 0x29 then
    s.orStop (s.uStores c (.scalar n) n [leaAdd base (off * n)])
      (fun ls => go (s.storeAll c n (ls.map (fun p => (p, (x.uS l (opD w)).toNat)))) (fun x => x))
  else if u = 0x2A then
    s.orStop (match s.uPlaces c .vector n .read veas with
      | .error e => .error e
      | .ok ls => s.loadLanes c n (veas.zip ls))
      (fun vs => go s (fun x => x.wuV l (opD w) (lanes (8 * n) (64 / n) (fun i => vs.getD i 0))))
  else if u = 0x2B then
    s.orStop (s.uStores c .vector n veas) (fun ls =>
      go (s.storeAll c n (ls.zip ((List.range (64 / n)).map (fun i => lane (x.uV l (opD w)) (8 * n) i)))) (fun x => x))
  else if u = 0x2C then
    s.uNext c len (if x.uP l (opD w) != decide (m / 16 = 1) then opA w % 64 else up)
  else if u = 0x2D then
    let k := x.uS l (opD w) - 1
    (s.modCtx c (fun x => x.wuS l (opD w) k)).uNext c len (if k ≠ 0 then opA w % 64 else up)
  else if u = 0x2E then s.uNext c len (if x.uP l (opD w) != decide (m / 16 = 1) then len else up)
  else go s (fun x => x.uCompute l w)

/-- COMB_MICRO_OP (R393, R397): one micro-op of the sequence that the context runs. -/
def execCombMicroOp (s : State) : Step :=
  let c := s.cur
  let x := s.ctx c
  .next (match x.live with
    | none => s
    | some l =>
      let b := x.bind l.f.k
      if l.f.cnt = 1024 then (s.modCtx c Ctx.noFrame).stopped c (.cause .combLimit (BitVec.ofNat 64 l.f.k))
      else if s.combPoisoned c (b.start + l.f.upc) then
        s.stopped c (.cause .poisonConsumed (BitVec.ofNat 64 (b.start + l.f.upc)))
      else s.micro c l b.len (s.combWord c (b.start + l.f.upc)))

end Sys2Proof.Machine
end

