-- ==== Sys2Proof/Machine/Matrix.lean ====
section
/-! DEFINITION. Registers IV: the matrix unit (R183 to R204). A command is checked and captured at issue,
pushed into its core's queue, fetched, performed and completed by the events MATRIX_FETCH, MATRIX_EFFECT and
MATRIX_COMPLETION. -/

namespace Sys2Proof.Machine

/-! ### Geometry (R186, R187) -/

/-- A value that R186 accepts for `cgeo`. -/
def geoOk (g : Word) : Bool :=
  decide (fld g.toNat 10 6 ≤ 47) && decide (fld g.toNat 4 6 ≤ 48) && decide (fld g.toNat 0 4 = 0)

/-- row0 and col0 of Coord (R187). -/
def coord (lc : Nat) (geo : Word) : Nat × Nat :=
  let g := geo.toNat
  let gw := fld g 4 6
  let q := (lc + 48 - fld g 10 6) % 48
  let (gx, gy) := if gw = 0 then (0, 0) else (q % gw, q / gw)
  (16 * (fld g 26 10 + gy), 16 * (fld g 16 10 + gx))

/-- The matrix's extents M and N. -/
def geoM (geo : Word) : Nat := fld geo.toNat 50 14
@[inherit_doc geoM]
def geoN (geo : Word) : Nat := fld geo.toNat 36 14

/-- The row of C that row i of the block stands for: from the geometry, or gathered (R196). -/
def MatCmd.row (q : MatCmd) (i : Nat) : Nat :=
  match q.op with
  | .mmqg => lane q.idx 32 i
  | _ => (coord q.core q.geo).1 + i

/-- Enabled rows and columns (R187). -/
def MatCmd.rows (q : MatCmd) : List Nat := (List.range 16).filter (fun i => decide (q.row i < geoM q.geo))
@[inherit_doc MatCmd.rows]
def MatCmd.cols (q : MatCmd) : List Nat :=
  (List.range 16).filter (fun j => decide ((coord q.core q.geo).2 + j < geoN q.geo))

/-- The enabled elements in row order. -/
def MatCmd.cells (q : MatCmd) : List (Nat × Nat) := q.rows.flatMap (fun i => q.cols.map (fun j => (i, j)))

/-! ### Formats (R189, R190) -/

/-- The operand families of the table of R190. -/
inductive MFam where
  | bf16 | h16 | i8 | f8 | m6 | e2m1 | i4
  deriving DecidableEq, Repr

/-- The family of a format code, where it stands in the table of R190. -/
def mfam (c : Nat) : Option MFam :=
  if c = 0x01 then some .i8 else if c = 0x09 then some .bf16 else if c = 0x0A then some .h16
  else if c = 0x10 then some .e2m1 else if c = 0x11 ∨ c = 0x12 then some .m6 else if c = 0x13 then some .i4
  else if (0x23 ≤ c ∧ c ≤ 0x25) ∨ (0x33 ≤ c ∧ c ≤ 0x35) then some .f8
  else none

/-- Formats that `mmq` takes one by one (R189). -/
def mmqFmt (c : Nat) : Bool :=
  decide (c = 0x01) || decide (c = 0x02) || decide (c = 0x09) || decide (c = 0x0A) ||
  (decide (0x10 ≤ c) && decide (c ≤ 0x13)) || (decide (0x21 ≤ c) && decide (c % 8 ≠ 0))

/-- The implemented pairs (R190). -/
def mmqPair (a b : Nat) : Bool :=
  match mfam a, mfam b with
  | some .bf16, some .bf16 => true
  | some .h16, some .h16 => true
  | some .i8, some .i8 => true
  | some .i4, some .i4 => true
  | some x, some y =>
    let mixed (f : MFam) : Bool := decide (f = .f8) || decide (f = .m6) || decide (f = .e2m1)
    mixed x && mixed y
  | _, _ => false

/-- The K-group size of a pair (R53, R190). -/
def groupSize (a b : Nat) : Nat :=
  let wide (c : Nat) : Bool := decide (c = 0x09) || decide (c = 0x0A)
  let narrow (c : Nat) : Bool := decide (c = 0x10) || decide (c = 0x13)
  if wide a || wide b then 16 else if narrow a && narrow b then 64 else 32

/-- Formats of `mqz` and `mdq` apart from MX (R199, R200). -/
def numFmt (c : Nat) : Bool :=
  (decide (1 ≤ c) && decide (c ≤ 0x0A)) || (decide (0x21 ≤ c) && decide (c % 8 ≠ 0))

/-- The checks of a command's own operand formats (R192 step 2, R199, R200): a reserved format reports the pointer (R45), one
that the instruction does not accept the head (R78). -/
def MatCmd.fmtCheck (q : MatCmd) (head : Word) : Except Stop Unit :=
  let fa := ptrFmt q.a
  let fb := ptrFmt q.b
  let res (p : Word) : Except Stop Unit := .error (.cause .operandReserved p)
  let pair : Except Stop Unit :=
    if !mmqFmt fa then res q.a
    else if !mmqFmt fb then res q.b
    else if mmqPair fa fb then .ok ()
    else .error (.cause .matrixCombination (BitVec.ofNat 64 (fa + fb * 256)))
  match q.op with
  | .mmq => pair
  | .mmqg => pair
  | .mqz _ _ =>
    if numFmt fa then .ok ()
    else if (mxOf fa).isSome then
      (if 16 < ptrBlock q.a ∨ fld q.b.toNat 0 16 % ptrBlock q.a ≠ 0 then res head else .ok ())
    else res (if fmtReserved fa then q.a else head)
  | .mdq _ => if numFmt fa ∨ (mxOf fa).isSome then .ok () else res (if fmtReserved fa then q.a else head)
  | .mzero => .ok ()
  | .mld => .ok ()
  | .mst => .ok ()

/-- The alignment a tensor pointer needs (R195). -/
def tensorAlign (p : Word) : Nat :=
  match tagOf (ptrFmt p) with
  | some (.num f) => f.bits / 8
  | _ => 8

/-- Address form of a pointer at push (R192, R232): the device window is no engine space. -/
def pushForm (p : Word) : Except Stop Unit :=
  if !tagOk p ∨ spaceOf (adr p) = .device then .error (.cause .addressForm p) else .ok ()

/-- Alignment of a pointer at push; ctval is the address. -/
def pushAlign (p : Word) (n : Nat) : Except Stop Unit :=
  if adr p % n ≠ 0 then .error (.cause .misaligned (BitVec.ofNat 64 (adr p))) else .ok ()

/-- Step 3 of R192. -/
def MatCmd.addrCheck (q : MatCmd) : Except Stop Unit :=
  let both (p : Word) (n : Nat) : Except Stop Unit :=
    match pushForm p with
    | .error e => .error e
    | .ok _ => pushAlign p n
  let two : Except Stop Unit :=
    match both q.a (tensorAlign q.a) with
    | .error e => .error e
    | .ok _ => both q.b (tensorAlign q.b)
  let raw : Except Stop Unit :=
    match both q.a 4 with
    | .error e => .error e
    | .ok _ => pushAlign (leaAdd q.a q.b.toInt) 4
  match q.op with
  | .mmq => two
  | .mmqg => two
  | .mld => raw
  | .mst => raw
  | .mqz _ _ => both q.a (tensorAlign q.a)
  | .mdq _ => both q.a (tensorAlign q.a)
  | .mzero => .ok ()

/-! ### Pushing (R192, R296) -/

/-- Queue room: eight entries, none while held. -/
def Core.matRoom (k : Core) : Bool := decide (k.matQ.length < 8) && !k.matHeld

/-- Begin the wait of the command that has come to the head (R193, R407). -/
def State.startMat (s : State) (k : CoreId) : State :=
  match (s.core k).matQ with
  | [] => s
  | q :: _ =>
    let s := s.modCore k (fun x => { x with matPhase := .enqueued, matLatch := none })
    s.joinSem k ⟨q.sig.wsem.toNat, .matrix, q.sig.wthr.toNat, true⟩

/-- Enter the queue. -/
def State.pushMat (s : State) (k : CoreId) (q : MatCmd) : State :=
  let s := s.modCore k (fun x => { x with matQ := x.matQ ++ [q] })
  if (s.core k).matQ.length = 1 then s.startMat k else s

/-- The generator state after the push. -/
def MatCmd.rngAfter (q : MatCmd) : Word :=
  match q.op with
  | .mqz .sr _ => (rngDraws 256 q.rng).2
  | _ => q.rng

/-- Admit blocked pushes in the order in which they blocked (R296). -/
def State.admitMat (k : CoreId) : Nat → State → State
  | 0, s => s
  | n + 1, s =>
    let x := s.core k
    match x.matBlocked with
    | [] => s
    | j :: r =>
      if !x.matRoom then s
      else
        let c : CtxId := ⟨k.vt, k.core, j⟩
        let s := s.putCore k { x with matBlocked := r }
        let s := match (s.ctx c).wait with
          | some (.matPush q) => ((s.modCtx c (fun x => { x with csrng := q.rngAfter })).pushMat k q).complete c
          | _ => s
        State.admitMat k n s

/-- A command with what a context captures (R192 step 4); under `.sr` the generator has made its 64 steps
(R199). -/
def State.matCmd (s : State) (op : MatOp) (acc : AReg) (a b c : GReg) (iv : Vec) (sig : Sig) : MatCmd :=
  let x := s.ctx s.cur
  { op := op, acc := acc.toNat, a := x.rg a.toNat, b := x.rg b.toNat, c := x.rg c.toNat, idx := iv
    geo := x.cgeo, rng := x.csrng, core := s.cur.core, slot := s.cur.slot, pc := x.pc, sig := sig, user := !x.priv }

/-- Push a command (R192). -/
def matInstr (q : MatCmd) (s : State) : Step :=
  .next (s.orStop (match q.fmtCheck (s.headAt s.cur) with
      | .error e => .error e
      | .ok _ => q.addrCheck)
    (fun _ => s.afterRelease s.cur true (fun s =>
      let k := s.cur.coreId
      if (s.core k).matRoom && (s.core k).matBlocked.isEmpty then
        ((s.modCtx s.cur (fun x => { x with csrng := q.rngAfter })).pushMat k q).complete s.cur
      else
        let s := s.block s.cur .queueFull (.matPush q)
        s.modCore k (fun x => { x with matBlocked := x.matBlocked ++ [s.cur.slot] }))))

/-- `mmq` (R195). -/
def execMmq (o : Mmq) (s : State) : Step := matInstr (s.matCmd .mmq o.acc o.a o.b o.c 0 o.sig) s
/-- `mmqg` (R196). -/
def execMmqg (o : Mmqg) (s : State) : Step :=
  matInstr (s.matCmd .mmqg o.acc o.a o.b o.c ((s.ctx s.cur).rv o.iv.toNat) o.sig) s
/-- `mzero` (R197). -/
def execMzero (o : Mzero) (s : State) : Step := matInstr (s.matCmd .mzero o.acc 0 0 0 0 o.sig) s
/-- `mld` (R198). -/
def execMld (o : MMem) (s : State) : Step := matInstr (s.matCmd .mld o.acc o.a o.b 0 0 o.sig) s
/-- `mst` (R198). -/
def execMst (o : MMem) (s : State) : Step := matInstr (s.matCmd .mst o.acc o.a o.b 0 0 o.sig) s
/-- `mqz` (R199). -/
def execMqz (o : Mqz) (s : State) : Step := matInstr (s.matCmd (.mqz o.rm o.sat) o.acc o.a o.b 0 0 o.sig) s
/-- `mdq` (R200). -/
def execMdq (o : Mdq) (s : State) : Step := matInstr (s.matCmd (.mdq o.add) o.acc o.a o.b 0 0 o.sig) s

/-! ### Immediate instructions (R201 to R204) -/

/-- Write `cgeo` and return the old value (R201). -/
def mgeoInstr (d : GReg) (new : Word) (s : State) : Step :=
  let old := (s.ctx s.cur).cgeo
  .next (if geoOk new then s.finish (fun x => { x with cgeo := new }.wg d.toNat old)
    else s.stopped s.cur (.cause .operandReserved (s.headAt s.cur)))

/-- `mgeo` from a register (R201). -/
def execMgeoReg (o : GG) (s : State) : Step := mgeoInstr o.d ((s.ctx s.cur).rg o.a.toNat) s
/-- `mgeo` with immediates (R201): M and N kept, BY and BX zeroed. -/
def execMgeoImm (o : MgeoI) (s : State) : Step :=
  let old := (s.ctx s.cur).cgeo.toNat
  mgeoInstr o.d (BitVec.ofNat 64 (old / 2 ^ 36 * 2 ^ 36 + o.gorg.toNat * 2 ^ 10 + o.gw.toNat * 2 ^ 4)) s

/-- `msub` (R202). -/
def execMsub (o : Msub) (s : State) : Step :=
  let g := (s.ctx s.cur).cgeo.toNat
  let y : Int := fld g 26 10 + o.dy.toInt
  let x : Int := fld g 16 10 + o.dx.toInt
  .next (if y < 0 ∨ 1023 < y ∨ x < 0 ∨ 1023 < x then s.stopped s.cur (.cause .operandReserved (s.headAt s.cur))
    else 
      let new : Word := BitVec.ofNat 64 (g / 2 ^ 36 * 2 ^ 36 + y.toNat * 2 ^ 26 + x.toNat * 2 ^ 16 + g % 2 ^ 16)
      s.finish (fun c => { c with cgeo := new }))

/-- The commands of a context still in its queue. -/
def State.matOf (s : State) (c : CtxId) : List MatCmd :=
  (s.core c.coreId).matQ.filter (fun q => decide (q.slot = c.slot) && q.alive)

/-- `mdrain` (R203): blocked until every command of the context has completed. -/
def execMdrain (s : State) : Step :=
  .next (if (s.matOf s.cur).isEmpty then s.complete s.cur else s.block s.cur .queueFull .mdrain)

/-- `mstat` (R204). -/
def execMstat (o : GReg) (s : State) : Step :=
  let x := s.ctx s.cur
  let qs := s.matOf s.cur
  let busy := (List.range 4).foldl (fun m n => if qs.any (fun q => decide (q.acc = n)) then m + 2 ^ n else m) 0
  let held := (s.core s.cur.coreId).matHeld.toNat
  .next (s.finish (fun y => y.wg o.toNat (BitVec.ofNat 64
    (x.done.toNat * 2 ^ 32 + held * 2 ^ 12 + min qs.length 8 * 2 ^ 8 + busy * 2 ^ 4 + x.pz.toNat))))

/-! ### Fetch (R193) -/

/-- The addresses of a tensor's elements at linear indices: the bytes of each with, for MX, its scale last. -/
def elemAddrs (p : Word) (es : List Nat) : List (List Word) :=
  match tagOf (ptrFmt p) with
  | some (.mx t) => es.map (fun (e : Nat) => mxAccesses p (ptrBlock p) (MxTy.bits t) e)
  | some (.num f) => es.map (fun (e : Nat) => [leaAdd p (e * (f.bits / 8))])
  | _ => []

/-- Bytes of one access of a tensor. -/
def elemBytes (p : Word) : Nat :=
  match tagOf (ptrFmt p) with
  | some (.num f) => f.bits / 8
  | _ => 1

/-- The value of an element from what its accesses read (R188). -/
def elemValue (p : Word) (e : Nat) (xs : List Nat) : Fl :=
  match tagOf (ptrFmt p) with
  | some (.mx t) =>
    mxScaled t (xs.getLastD 0) (mxCode (ptrBlock p) (MxTy.bits t) e xs.dropLast)
  | some (.num f) => f.value (xs.getD 0 0)
  | _ => .nan

/-- K0 and K, and the linear indices that a row or column of an operand reads (R195). -/
def MatCmd.strip (q : MatCmd) (row pitch : Nat) : List Nat :=
  (List.range (fld q.c.toNat 0 16)).map (fun k => row * pitch + fld q.c.toNat 16 16 + k)

/-- The linear indices of A and of B (R195, R196): nothing where no element is enabled. -/
def MatCmd.aElems (q : MatCmd) : List Nat :=
  if q.cols.isEmpty then [] else q.rows.flatMap (fun i => q.strip (q.row i) (fld q.c.toNat 48 16))
@[inherit_doc MatCmd.aElems]
def MatCmd.bElems (q : MatCmd) : List Nat :=
  if q.rows.isEmpty then [] else q.cols.flatMap (fun j => q.strip ((coord q.core q.geo).2 + j) (fld q.c.toNat 32 16))

/-- The linear index of an element of C (R199). -/
def MatCmd.cElem (q : MatCmd) (i j : Nat) : Nat :=
  q.row i * fld q.b.toNat 0 16 + (coord q.core q.geo).2 + j

/-- The addresses of the 256 words of `mld` and `mst` (R198), in the order in which `mst` stores them, which counts where rows
overlap (the model's choice, log entry 82). -/
def MatCmd.rawAddrs (q : MatCmd) : List Word :=
  (List.range 256).map (fun n => leaAdd q.a ((n / 16 : Nat) * q.b.toInt + 4 * (n % 16 : Nat)))

/-- The blocks that `mqz` writes in an MX format, each with its enabled cells by position (R199). -/
def MatCmd.blocks (q : MatCmd) : List (Nat × List (Nat × Nat × Nat)) :=
  let B := ptrBlock q.a
  let cs := q.cells.map (fun (i, j) => (q.cElem i j, i, j))
  ((cs.map (fun c => c.1 / B)).dedup).map (fun b =>
    (b, (cs.filter (fun c => decide (c.1 / B = b))).map (fun c => (c.1 % B, c.2.1, c.2.2))))

/-- The elements of the blocks that `mqz` writes in an MX format. -/
def MatCmd.qzElems (q : MatCmd) : List Nat :=
  match tagOf (ptrFmt q.a) with
  | some (.mx _) => q.blocks.flatMap (fun (k, _) => (List.range (ptrBlock q.a)).map (fun i => k * ptrBlock q.a + i))
  | _ => []

/-- The addresses that `mqz` writes, with the bytes of each access. -/
def MatCmd.qzAddrs (q : MatCmd) : List Word :=
  match tagOf (ptrFmt q.a) with
  | some (.mx t) =>
    let B := ptrBlock q.a
    let b := MxTy.bits t
    q.blocks.flatMap (fun (k, _) =>
      leaAdd q.a (mxScaleOff B b (k * B)) ::
        (List.range (B * b / 8)).map (fun (i : Nat) => leaAdd q.a (mxElemOff B b (k * B) + i)))
  | _ => q.cells.flatMap (fun (i, j) => (elemAddrs q.a [q.cElem i j]).flatten)

/-- A poisoned word reads as zero (R185). -/
def State.matRead (s : State) (v : VtId) (n : Nat) (l : Loc) : Nat × Bool :=
  let (x, p) := s.engRead v l n
  (if p then 0 else x, p)

/-- Cut what was read into the accesses of each element. -/
def regroup : List (List Word) → List Nat → List (List Nat)
  | [], _ => []
  | ws :: r, xs => xs.take ws.length :: regroup r (xs.drop ws.length)

/-- The outcome of a fetch: the latch with what was read, a stop, or a wait. -/
inductive Fetched where
  | ok (l : Latch)
  | stop (e : EngStop)
  | wait
  deriving DecidableEq, Repr

/-- Whether an element of an MX tensor lies across a boundary between spaces (R193). -/
def elemSplit (lc : Nat) (p : Word) (e : Nat) : Bool :=
  match tagOf (ptrFmt p) with
  | some (.mx t) => mxSplit lc p (ptrBlock p) (MxTy.bits t) e
  | _ => false

/-- address-form at an element's address. -/
def elemFail (p : Word) (e : Nat) : Raise :=
  match tagOf (ptrFmt p) with
  | some (.mx t) => ⟨.addressForm, leaAdd p (mxElemOff (ptrBlock p) (MxTy.bits t) e), 0, 0⟩
  | _ => ⟨.addressForm, p, 0, 0⟩

/-- The places of a tensor's elements, or the first that has none. -/
def State.placeTensor (s : State) (k : CoreId) (user : Bool) (p : Word) (es : List Nat) : Except EngStop (List Loc) :=
  let whole := es.takeWhile (fun e => !elemSplit k.core p e)
  match s.engPlaces k user false (elemBytes p) .read (elemAddrs p whole).flatten with
  | .error e => .error e
  | .ok ls => if whole.length < es.length then .error (.fault (elemFail p (es.getD whole.length 0))) else .ok ls

/-- The values of a tensor's elements, read at their places, and whether a word was poisoned. -/
def State.readTensor (s : State) (k : CoreId) (p : Word) (es : List Nat) (ls : List Loc) : List Fl × Bool :=
  let rd := ls.map (s.matRead k.vt (elemBytes p))
  ((es.zip (regroup (elemAddrs p es) (rd.map (·.1)))).map (fun (e, x) => elemValue p e x), rd.any (·.2))

/-- Whether the accesses of a phase of a core's command can be performed now (`State.gate`); they are not charged (R425). -/
def State.matGate (s : State) (k : CoreId) (rd wr : List Loc) : State × Bool :=
  if (rd ++ wr).any (s.engMoving k.vt) then (s.leavePlaces (.mat k 0), false)
  else s.gate k.vt.part (.mat k 0) (s.portsFor k.vt (rd ++ wr)) (homeLines (rd ++ wr)) (s.engZero wr)

/-- What a command reads, with the size of an access, once every place of it is reachable: the state with the reads
counted. -/
def State.matRun (s : State) (k : CoreId) (r : Except EngStop (List (Nat × List Loc))) (f : List (List Loc) → Latch) :
    State × Fetched :=
  match r with
  | .error e => (s, .stop e)
  | .ok rs =>
    match s.matGate k (rs.flatMap (·.2)) [] with
    | (s, false) => (s, .wait)
    | (s, true) => (rs.foldl (fun (s : State) r => s.tallyReads r.1 r.2) s, .ok (f (rs.map (·.2))))

/-- Translate the places that a command will write. -/
def State.fetchDest (s : State) (k : CoreId) (user : Bool) (n : Nat) (as : List Word) : State × Fetched :=
  match s.engPlaces k user false n .write as with
  | .error e => (s, .stop e)
  | .ok ls => (s, .ok ⟨[], [], false, ls⟩)

/-- The fetch of a command (R193). -/
def State.matFetch (s : State) (k : CoreId) (q : MatCmd) : State × Fetched :=
  let ce := q.cells.map (fun (i, j) => q.cElem i j)
  let mm : State × Fetched :=
    s.matRun k (match s.placeTensor k q.user q.a q.aElems, s.placeTensor k q.user q.b q.bElems with
      | .error e, _ => .error e
      | .ok _, .error e => .error e
      | .ok ls, .ok ms => .ok [(elemBytes q.a, ls), (elemBytes q.b, ms)])
      (fun rs =>
        let x := s.readTensor k q.a q.aElems (rs.getD 0 [])
        let y := s.readTensor k q.b q.bElems (rs.getD 1 [])
        ⟨[], x.1 ++ y.1, x.2 || y.2, []⟩)
  match q.op with
  | .mmq => mm
  | .mmqg => mm
  | .mzero => (s, .ok ⟨[], [], false, []⟩)
  | .mld =>
    s.matRun k ((s.engPlaces k q.user false 4 .read q.rawAddrs).map (fun ls => [(4, ls)])) (fun rs =>
      let rd := (rs.getD 0 []).map (s.matRead k.vt 4)
      ⟨rd.map (·.1), [], rd.any (·.2), []⟩)
  | .mst => s.fetchDest k q.user 4 q.rawAddrs
  | .mqz _ _ =>
    match (q.qzElems.find? (elemSplit k.core q.a)) with
    | some e => (s, .stop (.fault (elemFail q.a e)))
    | none => s.fetchDest k q.user (elemBytes q.a) q.qzAddrs
  | .mdq _ =>
    s.matRun k ((s.placeTensor k q.user q.a ce).map (fun ls => [(elemBytes q.a, ls)])) (fun rs =>
      let x := s.readTensor k q.a ce (rs.getD 0 [])
      ⟨[], x.1, x.2, []⟩)

/-- The head command of a core is held, and the curator is told (R94, R193). -/
def State.holdMat (s : State) (k : CoreId) (q : MatCmd) (r : Raise) : State :=
  ((s.endStep (.mat k 0)).modCore k (fun x => { x with matHeld := true })).engMsg ⟨k.vt, k.core, q.slot⟩ k.core q.pc r 2 0 0

/-- MATRIX_FETCH (R193): the head command of a core reads its operands; page-absent, permission or
address-form holds the queue (R94). -/
def execMatrixFetch (k : CoreId) (s : State) : Step :=
  let x := s.core k
  match x.matQ with
  | [] => .next s
  | q :: _ =>
    if x.matPhase ≠ .fetch ∨ x.matHeld ∨ !s.runs k then .next s
    else match s.matFetch k q with
      | (s, .wait) => .next s
      | (s, .ok l) => .next (s.modCore k (fun x => { x with matPhase := .effect, matLatch := some l }))
      | (s, .stop (.fault r)) => .next (s.holdMat k q r)
      | (s, .stop (.miss a acc)) => .next ((s.leavePlaces (.mat k 0)).engMiss k .matrix q.user a acc)

/-! ### Effect -/

/-- Add the products of a strip pair to an accumulator element (R53). -/
def mmqCell (m : Nat) (acc : BitVec 32) (xs ys : List Fl) : BitVec 32 :=
  BitVec.ofNat 32 (accumulate acc.toNat m ((xs.zip ys).map (fun (x, y) => mulF x y)))

/-- The effect of `mmq` and `mmqg` on a context (R195). -/
def MatCmd.multiply (q : MatCmd) (l : Latch) (x : Ctx) : Ctx :=
  let K := fld q.c.toNat 0 16
  let m := groupSize (ptrFmt q.a) (ptrFmt q.b)
  let na := q.aElems.length
  q.rows.zipIdx.foldl (fun x (i, ri) =>
    q.cols.zipIdx.foldl (fun x (j, cj) =>
      let a := (l.vals.drop (ri * K)).take K
      let b := (l.vals.drop (na + cj * K)).take K
      x.wa q.acc i j (mmqCell m (x.ra q.acc i j) a b)) x) x

/-- The value of an accumulator element. -/
def Ctx.accVal (x : Ctx) (n i j : Nat) : Fl := FloatTy.f32.fmt.value (x.ra n i j).toNat

/-- What `mqz` writes, in the order of its addresses (R199); where LDC gives several elements one index, the last in
row-major order stands (the model's choice, log entry 82). -/
def MatCmd.quantise (q : MatCmd) (x : Ctx) (rm : RMode) (sat : Bool) : List Nat :=
  let rs := (drawsFor rm 256 q.rng).1
  match tagOf (ptrFmt q.a) with
  | some (.mx t) =>
    let B := ptrBlock q.a
    let b := MxTy.bits t
    q.blocks.flatMap (fun (_, cells) =>
      let at' (p : Nat) := (cells.filter (fun c => decide (c.1 = p))).getLast?
      let xs := (List.range B).map (fun p => match at' p with
        | some c => x.accVal q.acc c.2.1 c.2.2
        | none => .fin false 0 0)
      let ds := (List.range B).map (fun p => match at' p with
        | some c => rs.getD (c.2.1 * 16 + c.2.2) 0
        | none => 0)
      let (scale, codes) := mxQuant t xs rm sat ds
      let bytes := mxPack b codes
      scale :: (List.range (B * b / 8)).map (fun i => bytes / 256 ^ i % 256))
  | some (.num f) =>
    q.cells.map (fun (i, j) =>
      (convertBy (.flt FloatTy.f32.fmt) f (x.ra q.acc i j).toNat rm sat (rs.getD (i * 16 + j) 0)).1)
  | _ => []

/-- The effect of `mdq` on a context (R200). -/
def MatCmd.dequantise (q : MatCmd) (l : Latch) (add : Bool) (x : Ctx) : Ctx :=
  (q.cells.zip l.vals).foldl (fun x ((i, j), v) =>
    let f := FloatTy.f32.fmt
    let r := if add then (f.finish (addA (x.accVal q.acc i j) v .rne) .rne false 0).1
      else (f.deliver v .rne false 0).1
    x.wa q.acc i j (BitVec.ofNat 32 r)) x

/-- PZ of an accumulator after a command (R184, R185, R197, R198). -/
def MatCmd.pzAfter (q : MatCmd) (l : Latch) (pz : BitVec 4) : BitVec 4 :=
  let bit := 1#4 <<< q.acc
  match q.op with
  | .mzero => pz &&& ~~~bit
  | .mld => if l.pois then pz ||| bit else pz &&& ~~~bit
  | _ => if l.pois then pz ||| bit else pz

/-- The effect on the context's accumulators. -/
def MatCmd.effect (q : MatCmd) (l : Latch) (x : Ctx) : Ctx :=
  let y := match q.op with
    | .mmq => q.multiply l x
    | .mmqg => q.multiply l x
    | .mzero => (List.range 256).foldl (fun x n => x.wa q.acc (n / 16) (n % 16) 0) x
    | .mld => (l.codes.zipIdx).foldl (fun x (c, n) => x.wa q.acc (n / 16) (n % 16) (BitVec.ofNat 32 c)) x
    | .mdq add => q.dequantise l add x
    | .mst => x
    | .mqz _ _ => x
  { y with pz := q.pzAfter l y.pz }

/-- The values that a command writes to memory, in the order of its places. -/
def MatCmd.outputs (q : MatCmd) (x : Ctx) : List Nat :=
  match q.op with
  | .mst => (List.range 256).map (fun n => (x.ra q.acc (n / 16) (n % 16)).toNat)
  | .mqz rm sat => q.quantise x rm sat
  | _ => []

/-- Bytes of one write of a command. -/
def MatCmd.width (q : MatCmd) : Nat :=
  match q.op with
  | .mst => 4
  | _ => elemBytes q.a

/-- Products formed for enabled elements, by the counter of their pair (R428). -/
def State.tallyMac (s : State) (p : Nat) (q : MatCmd) : State :=
  let n := q.cells.length * fld q.c.toNat 0 16
  let m := groupSize (ptrFmt q.a) (ptrFmt q.b)
  match q.op with
  | .mmq => s.tally p (if m = 16 then 1 else if m = 32 then 2 else 3) n
  | .mmqg => s.tally p (if m = 16 then 1 else if m = 32 then 2 else 3) n
  | _ => s

/-- The context whose accumulators a command writes out: those of a removed process are kept for it (R207). -/
def Core.matSource (k : Core) (x : Ctx) : Ctx :=
  match k.matKept with
  | some (a, z) => { x with acc := a, pz := z }
  | none => x

/-- MATRIX_EFFECT (R193): the accumulator is updated, or the writes are performed at home. -/
def execMatrixEffect (k : CoreId) (s : State) : Step :=
  let x := s.core k
  match x.matQ, x.matLatch with
  | q :: _, some l =>
    let c : CtxId := ⟨k.vt, k.core, q.slot⟩
    if x.matPhase ≠ .effect then .next s
    else match s.matGate k [] l.dest with
      | (s, false) => .next s
      | (s, true) =>
        let ctx := x.matSource (s.ctx c)
        let s := s.engWrites k.vt q.width (l.dest.zip ((q.outputs ctx).map (fun v => (v, ctx.pz.getLsbD q.acc))))
        let s := if q.alive then s.modCtx c (q.effect l) else s
        let s := s.tallyMac k.vt.part q
        .next (s.modCore k (fun x => { x with matPhase := .completion, matLatch := none, matKept := none }))
  | _, _ => .next s

/-- MATRIX_COMPLETION (R193): the signal is made, DONE rises, the next command comes to the head. -/
def execMatrixCompletion (k : CoreId) (s : State) : Step :=
  let x := s.core k
  match x.matQ with
  | [] => .next s
  | q :: r =>
    let c : CtxId := ⟨k.vt, k.core, q.slot⟩
    if x.matPhase ≠ .completion then .next s
    else
      let s := s.putCore k { x with matQ := r, matPhase := .enqueued }
      let s := if q.alive then s.modCtx c (fun y => { y with done := y.done + 1 }) else s
      let s := if q.sig.sinc = 0 then s
        else s.semAdd k q.sig.ssem.toNat q.sig.sinc.toNat (if q.alive then some c else none)
      .next (s.startMat k)

end Sys2Proof.Machine
end

