-- ==== Sys2Proof/Machine/Procs.lean ====
section
/-! DEFINITION. Queues III: asynchronous causes (R80), the end of a process (R345), swarms (R337 to R344),
`yield` and `whoami` (R346, R347). -/

namespace Sys2Proof

/-- The wait field of an instruction (R66): 0 for one whose encoding has none. -/
def Instr.waitField : Instr → WaitF
  | .ldOff16 o => o.wait
  | .ldOff32 o => o.wait
  | .stOff16 o => o.wait
  | .stOff32 o => o.wait
  | .ldpOff16 o => o.wait
  | .ldpOff32 o => o.wait
  | .stpOff16 o => o.wait
  | .stpOff32 o => o.wait
  | .acq o => o.wait
  | .rel o => o.wait
  | .fence o => o.wait
  | .pwait o => o.wait
  | .tlook o => o.wait
  | .tset o => o.wait
  | .tclr o => o.wait
  | .mon o => o.wait
  | .mwait o => o.wait
  | .sbr o => o.wait
  | .sbw o => o.wait
  | .aadd o => o.wait
  | .amin o => o.wait
  | .amax o => o.wait
  | .aand o => o.wait
  | .aor o => o.wait
  | .axor o => o.wait
  | .aswp o => o.wait
  | .acas o => o.wait
  | .afadd o => o.wait
  | .vldNoOffset o => o.wait
  | .vldOff32 o => o.wait
  | .vstNoOffset o => o.wait
  | .vstOff32 o => o.wait
  | .vldxNoOffset o => o.wait
  | .vldxOff32 o => o.wait
  | .vstxNoOffset o => o.wait
  | .vstxOff32 o => o.wait
  | .vldfNoOffset o => o.wait
  | .vldfOff32 o => o.wait
  | .vstfNoOffset o => o.wait
  | .vstfOff32 o => o.wait
  | _ => 0

end Sys2Proof

namespace Sys2Proof.Machine

/-! ### Abandoning a blocked instruction (R80) -/

/-- Take a context's own command for the fault agent back. -/
def State.dropCmd (s : State) (c : CtxId) : State :=
  s.modPart c.vt.part (fun p => { p with cmdQ := p.cmdQ.filter (fun e => decide (e.1 ≠ c)) })

/-- Withdraw a rendezvous that has not begun. -/
def State.withdrawWait (s : State) (c : CtxId) (q : Nat) (sending : Bool) : Option State :=
  if q = 255 then some (s.dropCmd c)
  else if s.begun ⟨c.vt, q⟩ sending then none
  else some (s.withdraw ⟨c.vt, q⟩)

/-- Take back a forager that parked, or waits for room to, and blocks its sender; where the count falls a spawn that waits
for the quota is admitted (R320). -/
def State.unparkForager (s : State) (c : CtxId) (p : Nat) : State :=
  let mine (k : Packet) : Bool := decide (k.ctx = some c) && decide (k.traffic = some 2)
  let n := if (s.part p).parkQ.any mine then 1 else 0
  let s := (s.mapFlying (dropFirst mine)).modPart p (fun q => { q with fcount := q.fcount - n })
  if n = 0 then s else s.admitSpawn p

/-- The blocked instruction of a context is abandoned with no effect (R80); `none` where what it waits for has
begun, or where it is no blocked state that a cause abandons. -/
def State.abandon (s : State) (c : CtxId) : Option State :=
  let k := c.coreId
  match (s.ctx c).wait with
  | none => some s
  | some (.chs q) => s.withdrawWait c q true
  | some (.vsift q _ _ _ _) => s.withdrawWait c q true
  | some (.chbs q _) => s.withdrawWait c q true
  | some (.chr q _ _) => s.withdrawWait c q false
  | some (.chbr q _) => s.withdrawWait c q false
  | some (.sem _) => some (s.leaveSem k (.ctx c.slot))
  | some (.copyPush _) =>
    some (s.modCore k (fun x => { x with copyBlocked := x.copyBlocked.filter (fun j => decide (j ≠ c.slot)) }))
  | some (.matPush _) =>
    some (s.modCore k (fun x => { x with matBlocked := x.matBlocked.filter (fun j => decide (j ≠ c.slot)) }))
  | some .spawnAbsent => some (s.unparkForager c c.vt.part)
  | some (.tlbi _ _ _) => none
  | some (.alt _ _ _) => some s
  | some (.arrive _ _ _) => some s
  | some (.gen _ _) => some s
  | some (.mwait _) => some s
  | some .idle => some s
  | some .mdrain => some s
  | some .pend => some s
  | some (.swl _ _) => some s
  | some (.swj _ _) => some s
  | some .rejoin => some s
  | some (.spawnQuota _ _) => some (s.modPart c.vt.part (fun q => { q with quotaQ := q.quotaQ.filter (fun d => decide (d ≠ c)) }))
  | some (.spawnFull _ _) => some s

/-- Whether a context stands at an instruction boundary (R80): the instruction that it comes to has not issued, or has begun
nothing before it moves to a wide core. -/
def Ctx.fresh? (x : Ctx) : Bool := !x.going || (decide (x.prog.need = .matrix) && !x.prog.rel)

/-- The PC of the instruction that a context has not issued yet. -/
def Ctx.boundaryPc (x : Ctx) : Word := ((x.member.bind (·.next))).getD x.pc

/-- The first pending asynchronous cause is taken where the context stands (R80, R84); a trap or a breakpoint whose entry has
had to wait returns behind its instruction. -/
def State.takeFirst (s : State) (c : CtxId) : State :=
  match (s.ctx c).pend with
  | [] => s
  | (k, v) :: r =>
    let epc := if k = .trap ∨ k = .breakpoint then s.nextPc c else (s.ctx c).boundaryPc
    (s.modCtx c (fun x => { x with st := .ready, wait := none, lim := none, prog := {}, pend := r })).take c
      ⟨k, v, 0, 0⟩ epc

/-- A pending asynchronous cause is taken if the context is at a boundary, or blocked on what can be
abandoned (R80). -/
def State.takeAsync (s : State) (c : CtxId) : State :=
  let x := s.ctx c
  if x.pend = [] then s
  else match x.st with
    | .ready => if x.fresh? then s.takeFirst c else s
    | .blocked => (match s.abandon c with
      | some s => s.takeFirst c
      | none => s)
    | .empty => s
    | .parked => s
    | .migrating => s

/-- ASYNC_CAUSE_TAKEN (R80); a context of a gang that does not run takes none (R99). -/
def execAsyncCauseTaken (c : CtxId) (s : State) : Step := .next (if s.running c.vt then s.takeAsync c else s)

/-! ### The end of a process (R345) -/

/-- The open messages of bulk transfers in which a context takes part are closed (R91). -/
def State.closeBulk (s : State) (c : CtxId) : State :=
  s.modPart c.vt.part (fun p => { p with openEng := p.openEng.filter (fun e => !(decide (e.ctx = c) && decide (e.kind = 4))) })

/-- A bulk transfer with a sending port is over: its step holds no place, and its misses no walk. -/
def State.dropBulk (s : State) (sp : PortId) : State :=
  let out (s : State) (v : VtId) : State := s.modVt v (fun x => { x with
    misses := x.misses.filter (fun m => decide (m.by_ ≠ .bulk sp)) })
  out (out (s.endStep (.bulk sp 0)) sp.vt) (s.port sp).peer.vt

/-- A bulk transfer that a removal cuts (R313): the other party completes with what has landed, and its message is closed. -/
def State.cutBulk (s : State) (c : CtxId) : State :=
  let ps := ((s.vtile c.vt).ports.filter (fun e =>
    decide (e.2.st = .move) && decide (e.2.owner = ownerCode c))).map (·.1)
  ps.foldl (fun s q =>
    let p : PortId := ⟨c.vt, q⟩
    let x := s.port p
    let peer := x.peer
    match x.bulk with
    | none => s.modPort p Port.idle
    | some b =>
      let other := ownerCtx peer.vt (s.port peer).owner
      let out (s : State) : State := (((((s.dropBulk p).dropBulk peer).modPort p Port.idle).modPort peer Port.idle).closeBulk
        other).endParty other (bulkResult (b.len - x.pending) b.clip true)
      if (s.port peer).st = .move then out s
      else
        -- the start has not reached the sender yet
        let start (k : Packet) : Bool := decide (k.src = p) && decide (k.body.kind = some .start)
        let s := s.mapFlying (fun l => l.filter (fun k => !start k))
        if (s.port peer).st = .own then out s else s.modPort p Port.idle) s

/-- A start that has not reached a sender that ends: its receiver completes with nothing moved (R313). -/
def State.cutStart (s : State) (c : CtxId) : State :=
  let mine (k : Packet) : Bool := decide (k.dst.vt = c.vt) && (match k.body with
    | .start b => !b.unfit
    | _ => false) &&
    decide ((s.port k.dst).st = .own) && decide ((s.port k.dst).owner = ownerCode c)
  match s.flying.find? mine with
  | none => s
  | some k =>
    let r := ownerCtx k.src.vt (s.port k.src).owner
    let clip := match k.body with
      | .start b => b.clip
      | _ => false
    let s := s.mapFlying (fun l => l.filter (fun x => decide (x ≠ k)))
    ((s.modPort k.dst Port.idle).modPort k.src Port.idle).endParty r (bulkResult 0 clip true)

/-- What a process that ends leaves at its ports (R307): one where it still waits is idle, and an acknowledgement, a refusal
or an agreement on its way there finds no one; its foragers under way have no sender any more. -/
def State.leavePorts (s : State) (c : CtxId) : State :=
  let ps := ((s.vtile c.vt).ports.filter (fun e => decide (e.2.st = .own) && decide (e.2.owner = ownerCode c))).map (·.1)
  let mine (k : Packet) : Bool := decide (k.dst.vt = c.vt) && ps.any (fun q => decide (q = k.dst.port)) && (match k.body with
    | .ack => true
    | .refuse => true
    | .start _ => true
    | .commit _ => true
    | _ => false)
  let s := s.mapFlying (fun l => (l.filter (fun k => !mine k)).map (fun k => match k.body with
    | .forager f _ => if k.ctx = some c then { k with ctx := none, body := .forager f none } else k
    | _ => k))
  ps.foldl (fun s q => s.modPort ⟨c.vt, q⟩ Port.idle) s

/-- The write-throughs of a core's dirty words begin where H has room (R413). -/
def State.beginThrough (s : State) (k : CoreId) : State :=
  if (s.core k).roomFor (s.core k).dirtyLines.length then s.modCore k Core.throughAll else s

/-- Word 0 of a host packet, with the bits that the host wrote, which one from a scale-out port does not have, and its
signal, once every store of the ended process is performed (R300, R460). -/
def State.finishPacket (s : State) (e : PacketEnd) : State :=
  let s := if s.hbmEnd ≤ e.addr then s else s.homeWriteNow e.addr 8 (e.word0 % 2 ^ 60 / 2 * 2 + e.status * 2 ^ 60)
  if e.signal = 0 then s
  else s.homeWriteNow e.signal 8 ((s.homeBytes e.signal 8 + 2 ^ 64 - 1) % 2 ^ 64)

/-- The lines that the completion of a host packet writes. -/
def State.endLines (s : State) (e : PacketEnd) : List Nat :=
  ((if s.hbmEnd ≤ e.addr then [] else [e.addr / 64]) ++ (if e.signal = 0 then [] else [e.signal / 64])).dedup

/-- Complete the host packets whose stores have been performed (R300), as the rim controllers and banks come to their
lines. -/
def State.finishPackets (s : State) : State :=
  s.ends.foldl (fun s e =>
    let s := s.beginThrough e.ctx.coreId
    let k := s.core e.ctx.coreId
    let ls := s.endLines e
    if (s.ctx e.ctx).q = 0 ∧ k.h = 0 ∧ k.dirtyLines = [] then
      match s.gate e.ctx.vt.part (.packet e.ctx e.addr 0) [] ls (((ls.map (· / 1024)).dedup).filter s.cleared) with
      | (s, false) => s
      | (s, true) => { s with ends := s.ends.filter (fun x => decide (x ≠ e)) }.finishPacket e
    else s) s

/-- The process of a slot ends (R345, R300): `status` is 0 for `pend`, 1 for a removal. -/
def State.endProcess (s : State) (c : CtxId) (status : Nat) : State :=
  let x := s.ctx c
  let s := s.cutBulk c
  let s := s.cutStart c
  let s := ((s.abandon c).getD s).leavePorts c
  let s := (s.uncommit c).leaveSwarm c
  let s := { s with probes := s.probes.filter (fun p => decide (p.init ≠ c)) }
  let s := s.modVt c.vt (fun v => { v with
    misses := v.misses.filter (fun m => !m.ofCtx c), migs := v.migs.filter (fun m => decide (m.1 ≠ c)) })
  let s := s.modCtx c Ctx.emptied
  let s := match x.origin with
    | .launch => s
    | .forager => (s.modPart c.vt.part (fun q => { q with fcount := q.fcount - 1 })).admitSpawn c.vt.part
    | .packet addr signal w0 =>
      let s := (s.modPart c.vt.part (fun q => { q with fcount := q.fcount - 1 })).admitSpawn c.vt.part
      ({ s with ends := s.ends ++ [PacketEnd.mk c addr signal w0 status] } : State).finishPackets
  s.checkWired c.vt c.quad

/-- The copy commands of a context that have not completed, on any core of its vtile (R26, R288). -/
def State.copiesOf (s : State) (c : CtxId) : List CopyCmd :=
  (s.cores.filter (fun e => decide (e.1.vt = c.vt))).flatMap (fun e =>
    e.2.copyQ.filter (fun q => q.alive && decide (q.ctx e.1 = c)))

/-- Whether a command that a context pushed has yet to complete (R345). -/
def State.commandsLeft (s : State) (c : CtxId) : Bool := !(s.copiesOf c).isEmpty || !(s.matOf c).isEmpty

/-- `pend` (R345). -/
def execPend (s : State) : Step :=
  .next (if s.commandsLeft s.cur then s.block s.cur .queueFull .pend
    else s.afterRelease s.cur true (fun s => s.endProcess s.cur 0))

/-! ### Commands of a removed context (R91) -/

/-- A core's copy commands of a removed context: queued ones are discarded, a started one goes on without it,
a held one is discarded at its offset. -/
def State.dropCopies (s : State) (c : CtxId) (k : CoreId) : State :=
  let x := s.core k
  let mine (q : CopyCmd) : Bool := q.alive && decide (q.ctx k = c)
  match x.copyQ with
  | [] => s
  | h :: r =>
    let rest := r.filter (fun q => !mine q)
    if !mine h then s.putCore k { x with copyQ := h :: rest }
    else if x.copyPhase = .fetch ∧ !x.copyHeld then s.putCore k { x with copyQ := { h with alive := false } :: rest }
    else
      let s := if x.copyPhase = .enqueued then s.leaveSem k .copy else s
      let s := (s.endStep (.copy k 0)).dropMiss k .copy
      ((s.leaveDie k).modCore k (fun x => { x with copyQ := rest, copyHeld := false })).startCopy k

/-- The same for its core's matrix commands: one whose effect phase has begun completes, with the accumulators that it
writes out (R193, R207). -/
def State.dropMatrix (s : State) (c : CtxId) : State :=
  let k := c.coreId
  let x := s.core k
  let mine (q : MatCmd) : Bool := q.alive && decide (q.slot = c.slot)
  match x.matQ with
  | [] => s
  | h :: r =>
    let rest := r.filter (fun q => !mine q)
    if !mine h then s.putCore k { x with matQ := h :: rest }
    else if x.matPhase = .effect ∨ x.matPhase = .completion then
      s.putCore k { x with matQ := { h with alive := false } :: rest, matKept := some ((s.ctx c).acc, (s.ctx c).pz) }
    else
      let s := if x.matPhase = .enqueued then s.leaveSem k .matrix else s
      let s := (s.endStep (.mat k 0)).dropMiss k .matrix
      (s.modCore k (fun x => { x with matQ := rest, matHeld := false, matLatch := none })).startMat k

/-- The remove command (R91): the process ends as if by `pend`, with its commands discarded. -/
def State.removeProcess (s : State) (c : CtxId) : State :=
  let ks := (s.cores.filter (fun e => decide (e.1.vt = c.vt))).map (·.1)
  let s := (ks.foldl (fun s k => s.dropCopies c k) s).dropMatrix c
  let left (e : EngOpen) : Bool :=
    if e.kind = 4 then false
    else if e.kind = 2 then (s.core c.coreId).matHeld && (s.core c.coreId).matQ.head?.any (fun q => decide (q.slot = c.slot))
    else (s.core ⟨c.vt, e.core⟩).copyHeld &&
      (s.core ⟨c.vt, e.core⟩).copyQ.head?.any (fun q => decide (q.ctx ⟨c.vt, e.core⟩ = c))
  let s := s.modPart c.vt.part (fun p => { p with openEng := p.openEng.filter (fun e => decide (e.ctx ≠ c) || left e) })
  (s.beginThrough c.coreId).endProcess c 1

/-! ### Swarms (R337 to R344) -/

/-- The lowest slot of a core that waits at a `swj` naming core k. -/
def State.waitingSwj (s : State) (c : CoreId) (k : Nat) : Option CtxId :=
  c.slots.find? (fun d => match (s.ctx d).wait with
    | some (.swj _ l) => decide (l = k)
    | _ => false)

/-- The register that a swarm instruction's result goes to. -/
def Ctx.swarmReg (x : Ctx) : Nat :=
  match x.wait with
  | some (.swl d _) => d
  | some (.swj d _) => d
  | _ => 0

/-- The lowest free entry of a vtile's swarm table (R340). -/
def State.freeSwarm (s : State) (v : VtId) : Option Nat :=
  firstFrom (fun e => decide (NMap.get 0 (s.vtile v).swarms e = 0)) 12 0

/-- Form the swarm of a leader that waits at `swl` for n members, if all are there (R340). Where every entry of the table is
taken meanwhile, it waits on for one (the model's choice, log entry 101): status 1 is given at the issue alone. -/
def State.formSwarm (s : State) (c : CtxId) (n : Nat) : State :=
  let ms := (List.range (n - 1)).map (fun k => s.waitingSwj ⟨c.vt, c.core + 1 + k⟩ c.core)
  match s.freeSwarm c.vt with
  | none => s
  | some e =>
    if ms.any (·.isNone) then s
    else
      let np := s.nextPc c
      let line := (s.ctx c).line
      let all := c :: ms.filterMap (fun m => m)
      let s := (all.zipIdx).foldl (fun s (m, i) => s.modCtx m (fun x =>
        { x.wg x.swarmReg (BitVec.ofNat 64 (i * 256)) with
          st := .ready, wait := none, lim := none, prog := {}, pc := np, line := line
          member := some ⟨e, i, false, none⟩ })) s
      s.modVt c.vt (fun v => { v with swarms := NMap.set 0 v.swarms e 1 })

/-- Every leader of a vtile that waits at `swl`, by core and slot (R340). -/
def State.formSwarms (s : State) (v : VtId) : State :=
  v.slots.foldl (fun s c => match (s.ctx c).wait with
    | some (.swl _ n) => s.formSwarm c n
    | _ => s) s

/-- `swl` (R339 to R341). -/
def execSwl (o : GG) (s : State) : Step :=
  let c := s.cur
  let a := ((s.ctx c).rg o.a.toNat).toNat
  let n := fld a 0 5
  let lim := fld a 32 32
  .next (if (s.ctx c).member.isSome ∨ fld a 5 27 ≠ 0 ∨ n < 2 ∨ 16 < n ∨ 47 < c.core + n - 1 then
      s.stopped c (.cause .operandReserved (s.headAt c))
    else if s.freeSwarm c.vt = none then s.finish (fun x => x.wg o.d.toNat 1)
    else (s.block c .barrier (.swl o.d.toNat n) (if lim = 0 then none else some lim)).formSwarms c.vt)

/-- `swj` (R339 to R341). -/
def execSwj (o : GG) (s : State) : Step :=
  let c := s.cur
  let a := ((s.ctx c).rg o.a.toNat).toNat
  let l := fld a 0 6
  let lim := fld a 32 32
  .next (if (s.ctx c).member.isSome ∨ fld a 6 26 ≠ 0 ∨ c.core ≤ l ∨ 15 < c.core - l then
      s.stopped c (.cause .operandReserved (s.headAt c))
    else (s.block c .barrier (.swj o.d.toNat l) (if lim = 0 then none else some lim)).formSwarms c.vt)

/-- SWARM_FORMATION_TIMEOUT (R341): a waiting `swl` or `swj` reaches its limit. -/
def execSwarmFormationTimeout (c : CtxId) (s : State) : Step :=
  let x := s.ctx c
  let waits := match x.wait with
    | some (.swl _ _) => true
    | some (.swj _ _) => true
    | _ => false
  .next (if waits && decide (x.lim = some 0) then (s.modCtx c (fun x => x.wg x.swarmReg 2)).complete c else s)

/-- The members of a swarm that are joined. -/
def State.joinedOf (s : State) (v : VtId) (e : Nat) : List CtxId := (s.swarm v e).filter (fun c => (s.ctx c).joined)

/-- A member stands at a PC with nothing begun. -/
def Ctx.standAt (x : Ctx) (pc : Word) (line : Option (Nat × Vec)) (det : Bool) : Ctx :=
  { x with
    st := .ready, wait := none, lim := none, prog := {}, pc := pc, line := line
    member := x.member.map (fun m => { m with det := det, next := none }) }

/-- The merge at `rejoin` (R343), once the whole joined group and every detached member wait at one. -/
def State.settleRejoin (s : State) (v : VtId) (e : Nat) : State :=
  let ms := s.swarm v e
  let js := s.joinedOf v e
  if js = [] ∨ !ms.all (fun c => decide ((s.ctx c).wait = some .rejoin)) then s
  else match js.head? with
    | none => s
    | some l =>
      let x := (s.ctx l).pc
      let np := s.nextPc l
      let line := (s.ctx l).line
      let s := ms.foldl (fun s c =>
        if (s.ctx c).pc = x then s.modCtx c (fun y => y.standAt np line false)
        else
          let s := s.complete c
          s.modCtx c Ctx.unswarm) s
      s.settleLead v e

/-- The swarm PC advances once every joined member has issued and is no longer blocked (R337); those whose next PC
is not the leader's detach (R129, R342). -/
def State.advanceSwarm (s : State) (v : VtId) (e : Nat) : State :=
  let js := s.joinedOf v e
  match s.leader v e with
  | none => s
  | some l =>
    if js = [] ∨ !js.all (fun c => ((s.ctx c).member.bind (·.next)).isSome) then s
    else
      let np := (s.ctx l).boundaryPc
      let line := (s.ctx l).line
      js.foldl (fun s c =>
        if (s.ctx c).boundaryPc = np then s.modCtx c (fun x => x.standAt np line false)
        else s.modCtx c (fun x => x.standAt x.boundaryPc x.line true)) s

/-- The swarms of a vtile: forming, merging, advancing. -/
def State.settleSwarms (s : State) (v : VtId) : State :=
  (List.range 12).foldl (fun s e =>
    if NMap.get 0 (s.vtile v).swarms e = 0 then s else (s.settleRejoin v e).advanceSwarm v e) (s.formSwarms v)

/-- `rejoin` (R343): outside a swarm it acts as `nop`. -/
def execRejoin (s : State) : Step :=
  let c := s.cur
  .next (match (s.ctx c).member with
    | none => s.complete c
    | some m => (s.block c .barrier .rejoin).settleRejoin c.vt m.entry)

/-- `split` (R342, R344): outside a swarm it acts as `nop`. -/
def execSplit (s : State) : Step :=
  let c := s.cur
  .next (match (s.ctx c).member with
    | none => s.complete c
    | some m =>
      if m.det then (s.leaveSwarm c).complete c
      else
        (s.endSwarm c.vt m.entry).complete c)

/-! ### Fetch (R57, R60, R62, R265, R338) -/

/-- The line of a context's PC: held, or entered now with the checks of R62, which are reported at the PC, that of a resumed
context too (the model's reading, log entry 74), and at the entry PC of a process that begins, as R299 and R319 have it of a
forager; of a process of a launch this is the model's reading (log entry 102). -/
def State.fetch (s : State) (c : CtxId) : Except Stop (Nat × Vec) :=
  let x := s.ctx c
  let a := lineOf x.pc
  let r : Except Stop Vec := match x.line with
    | some (b, l) => if b = a then .ok l else s.readLine c x.pc x.pc (BitVec.ofNat 64 a)
    | none => s.readLine c x.pc x.pc (BitVec.ofNat 64 a)
  match r with
  | .error e => .error e
  | .ok l =>
    if slotOf x.pc = 0 ∨ fld x.pc.toNat 0 1 = 1 ∨ headCount l < slotOf x.pc then
      .error (.cause .targetEmpty x.pc)
    else .ok (a, l)

/-! ### Decoding (R67) -/

/-- The steps 2 to 4 of R67 for the instruction at a context's PC. -/
def State.decodeAt (s : State) (c : CtxId) (l : Vec) : Except Stop Instr :=
  let x := s.ctx c
  let h := halfword l (slotOf x.pc)
  let w := BitVec.ofNat 64 h
  if 0xE0 ≤ fld h 8 8 ∧ !(x.bind (fld h 8 8 - 0xE0)).valid then .error (.cause .opcodeUndefined w)
  else match decode h (tailAt l (slotOf x.pc)) with
    | .ok i => .ok i
    | .undefined => .error (.cause .opcodeUndefined w)
    | .reserved => .error (.cause .operandReserved w)

/-- Whether the instruction that a context comes to is held by its wait field (R66, R252): it has not issued, and the slot is
not ready. -/
def State.heldByWait (s : State) (c : CtxId) : Bool :=
  let x := s.ctx c
  !x.going && x.live.isNone && decide (x.pend = []) && (match s.fetch c with
    | .error _ => false
    | .ok l => match s.decodeAt c l.2 with
      | .error _ => false
      | .ok i => !s.waitOk c i.waitField)

/-- Whether a slot may issue or go on (R252, R337): it is ready, it is no joined member that has issued and waits for the
others, and no wait field holds it. -/
def State.slotOpen (s : State) (c : CtxId) : Bool :=
  decide ((s.ctx c).st = .ready) && decide ((s.ctx c).member.bind (·.next) = none) && !s.heldByWait c

/-- Whether an instruction waits for its release or its acquire (R273). -/
def Ctx.releasing (x : Ctx) : Bool :=
  x.going && (x.prog.rel || (match x.prog.need with
    | .release _ => true
    | .acquire => true
    | .roomH => true
    | _ => false))

/-- Whether a slot counts as ready (R30, R252, R273): it may issue or go on, and its instruction does not wait for a release
or an acquire. -/
def State.slotReady (s : State) (c : CtxId) : Bool := s.slotOpen c && !(s.ctx c).releasing

/-- `yield` (R346): the slot waits for the turns of the others, at most 16 cycles. -/
def execYield (s : State) : Step :=
  let c := s.cur
  let others := (c.coreId.slots.filter (fun d => decide (d ≠ c) && s.slotReady d)).map (·.slot)
  .next (s.finish (fun x => { x with yielded := if others = [] then none else some (16, others) }))

/-- The word of `whoami` (R347). -/
def State.whoami (s : State) (c : CtxId) : Nat :=
  c.core + c.slot * 2 ^ 6 + (match (s.ctx c).member with
    | none => 0
    | some m =>
      2 ^ 8 + m.det.toNat * 2 ^ 9 + (decide (s.leader c.vt m.entry = some c)).toNat * 2 ^ 10 +
        m.entry * 2 ^ 12 + m.idx * 2 ^ 16 + (s.swarm c.vt m.entry).length * 2 ^ 20)

/-- `whoami` (R347). -/
def execWhoami (o : GReg) (s : State) : Step :=
  let w := s.whoami s.cur
  .next (s.finish (fun x => x.wg o.toNat (BitVec.ofNat 64 w)))

end Sys2Proof.Machine
end

