-- ==== Sys2Proof/Machine/System.lean ====
section
/-! DEFINITION. Registers V and Tables I: control registers and system instructions (R209 to R222), `mwait` and
`idle` limits, `tlbi` (R367 to R369). -/

namespace Sys2Proof.Machine

/-! ### Derived registers (R212, R213) -/

/-- Physical tiles of a form (R1). -/
def Form.tiles : Form → Nat
  | .sd64 => 64 | .sp256 => 256 | .sw2304 => 2304

/-- FORM (R212). -/
def Form.code : Form → Nat
  | .sd64 => 0 | .sp256 => 1 | .sw2304 => 2

/-- BIN (R212). -/
def Bin.code : Bin → Nat
  | .single => 0 | .a => 1 | .b => 2 | .c => 3

/-- DTILES: the working tiles of the device. -/
def State.dtiles (s : State) : Nat :=
  s.form.tiles - (s.tiles.filter (fun e => decide (e.1 < s.form.tiles) && (!e.2.working || e.2.retired))).length

/-- PTILES: the working tiles of a partition. -/
def State.ptilesOf (s : State) (p : Nat) : Nat :=
  (s.tiles.filter (fun e => decide (e.2.owner = some p) && e.2.working && !e.2.retired)).length

/-- Working wide cores of a vtile's tile. -/
def State.wideCount (s : State) (v : VtId) : Nat := ((s.tile (s.vtile v).ptile).wide.filter (fun b => b)).length

/-- Whether a partition has a transform engine (R212): XFORM of `cfeat` is read as this rule words it, for the partition,
also at a tile whose entry names no engine, where a transform command still raises engine-absent (R295; the model's reading,
log entry 103). -/
def State.hasXform (s : State) (p : Nat) : Bool := s.dies.any (fun e => decide (e.2 = some p))

/-- `cfeat` (R212). -/
def State.cfeat (s : State) (c : CtxId) : Word :=
  let w := s.wideCount c.vt
  let p := s.ptilesOf c.vt.part
  BitVec.ofNat 64 ((decide (w ≠ 0)).toNat + (s.hasXform c.vt.part).toNat * 2 + w * 4 + s.bin.code * 2 ^ 8 +
    s.form.code * 2 ^ 12 + (s.gangTiles c.vt.part).length * 2 ^ 16 + p * 2 ^ 32 + s.dtiles * 2 ^ 48)

/-- `cvtile` (R213). -/
def cvtile (v : VtId) : Word := BitVec.ofNat 64 (v.x + v.y * 2 ^ 16 + v.col * 2 ^ 32 + v.part * 2 ^ 40)

/-- `ccore` (R213). -/
def State.ccore (s : State) (c : CtxId) : Word :=
  let v := s.vtile c.vt
  BitVec.ofNat 64 (c.core + c.slot * 2 ^ 8 + v.lpct.getD c.core c.core * 2 ^ 16 + v.ptile * 2 ^ 32)

/-- `cpart` (R213). -/
def State.cpart (s : State) (c : CtxId) : Word :=
  BitVec.ofNat 64 ((s.vtile c.vt).gang + (s.part c.vt.part).keyepoch.toNat * 2 ^ 32)

/-- `ccomb` of a frame (R215). -/
def Frame.ccomb (f : Frame) : Word := BitVec.ofNat 64 (2 ^ 63 + f.k * 2 ^ 48 + f.cnt * 2 ^ 32 + f.upc)

/-! ### crd and cwr (R209 to R220) -/

/-- The value of a control register (R209 to R215); zero for an index that names none. -/
def State.ctl (s : State) (c : CtxId) (i : Nat) : Word :=
  let x := s.ctx c
  if i = 0x000 then x.cstat
  else if i = 0x001 then x.ccause
  else if i = 0x002 then x.cepc
  else if i = 0x003 then x.ctval
  else if i = 0x004 then x.ctvec
  else if i = 0x005 then x.cfsave
  else if i = 0x010 then x.csrng
  else if i = 0x011 then x.cgeo
  else if i = 0x012 then x.calt
  else if i = 0x020 then x.cprobe
  else if i = 0x021 then x.cwdog
  else if i = 0x030 then BitVec.ofNat 64 s.time
  else if i = 0x040 then s.cfeat c
  else if i = 0x041 then cvtile c.vt
  else if i = 0x042 then s.ccore c
  else if i = 0x043 then s.cpart c
  else match x.shadow with
    | none => 0
    | some f =>
      if i = 0x070 then f.ccomb
      else if 0x078 ≤ i ∧ i ≤ 0x07F then NMap.get 0 f.h (i - 0x078)
      else if 0x080 ≤ i ∧ i ≤ 0x09F then
        BitVec.ofNat 64 (fld (NMap.get 0 f.q ((i - 0x080) / 8)).toNat (64 * ((i - 0x080) % 8)) 64)
      else 0

/-- Whether a register is readable and writable only at privilege C (R209). -/
def ctlPrivileged (i : Nat) : Bool := decide (i = 0x042) || decide (i = 0x043)

/-- Whether no instruction writes a register (R209). -/
def ctlReadOnly (i : Nat) : Bool :=
  decide (i = 0x030) || (decide (0x040 ≤ i) && decide (i ≤ 0x043)) || decide (i = 0x070)

/-- `new` in the bits of a mask, `old` in the others (R210). -/
def maskedWrite (mask old new : Word) : Word := (old &&& ~~~mask) ||| (new &&& mask)

/-- A write to a control register, field by field (R210, R211, R214, R215); `none` where the register's own check
refuses the value. -/
def Ctx.setCtl (x : Ctx) (i : Nat) (w : Word) : Option Ctx :=
  if i = 0x000 then some { x with cstat := maskedWrite 0x31F x.cstat w }
  else if i = 0x001 then some { x with ccause := maskedWrite 0x3FF x.ccause w }
  else if i = 0x002 then some { x with cepc := w }
  else if i = 0x003 then some { x with ctval := w }
  else if i = 0x004 then some { x with ctvec := w }
  else if i = 0x005 then some { x with cfsave := w }
  else if i = 0x010 then some { x with csrng := w }
  else if i = 0x011 then (if geoOk w then some { x with cgeo := w } else none)
  else if i = 0x012 then
    (if 8 < fld w.toNat 0 4 then none else some { x with calt := maskedWrite 0xF x.calt w })
  else if i = 0x020 then
    let d := fld w.toNat 0 32
    some { x with cprobe := maskedWrite 0xFFFFFFFF x.cprobe (if 0 < d ∧ d < 1024 then 1024 else w) }
  else if i = 0x021 then some { x with cwdog := w }
  else match x.shadow with
    | none => some x
    | some f =>
      if 0x078 ≤ i ∧ i ≤ 0x07F then some { x with shadow := some { f with h := NMap.set 0 f.h (i - 0x078) w } }
      else if 0x080 ≤ i ∧ i ≤ 0x09F then
        let n := (i - 0x080) / 8
        some { x with shadow := some { f with
          q := NMap.set 0 f.q n (vecPut (NMap.get 0 f.q n) (8 * ((i - 0x080) % 8)) 8 w.toNat) } }
      else some x

/-- privilege with ctval holding the head (R8). -/
def State.noPrivilege (s : State) : Step := .next (s.stopped s.cur (.cause .privilege (s.headAt s.cur)))

/-- `crd` (R219). -/
def execCrd (o : Crd) (s : State) : Step :=
  let i := o.idx.toNat
  if ctlPrivileged i && !(s.ctx s.cur).priv then s.noPrivilege
  else
    let v := s.ctl s.cur i
    .next (s.finish (fun x => x.wg o.d.toNat v))

/-- `cwr` (R220). A register that no instruction writes raises operand-reserved. -/
def execCwr (o : Cwr) (s : State) : Step :=
  let x := s.ctx s.cur
  let i := o.idx.toNat
  let refuse : Step := .next (s.stopped s.cur (.cause .operandReserved (s.headAt s.cur)))
  if ctlPrivileged i && !x.priv then s.noPrivilege
  else if ctlReadOnly i then refuse
  else match x.setCtl i (x.rg o.a.toNat) with
    | some y => .next (s.finish (fun _ => y))
    | none => refuse

/-! ### trap, brk and tret -/

/-- `trap` (R216). -/
def execTrap (imm : BitVec 16) (s : State) : Step :=
  .next (s.take s.cur ⟨.trap, imm.zeroExtend 64, 0, 0⟩ (s.nextPc s.cur))
/-- `brk` (R216). -/
def execBrk (imm : BitVec 16) (s : State) : Step :=
  .next (s.take s.cur ⟨.breakpoint, imm.zeroExtend 64, 0, 0⟩ (s.nextPc s.cur))

/-- The 48 words of a spilled frame, in ascending order (R218). -/
def State.frameWords (s : State) (c : CtxId) : Nat → Nat → Except Stop (List Word)
  | 0, _ => .ok []
  | n + 1, i =>
    match s.spillLoad c (s.ctx c).cfsave i with
    | .error e => .error e
    | .ok v =>
      match s.frameWords c n (i + 1) with
      | .error e => .error e
      | .ok vs => .ok (BitVec.ofNat 64 v :: vs)

/-- The frame that `tret` reloads, if any (R218): what it is, and the context without it. -/
def State.tretFrame (s : State) (c : CtxId) : Except Stop (Option Frame × (Ctx → Ctx)) :=
  let x := s.ctx c
  let refuse : Except Stop (Option Frame × (Ctx → Ctx)) := .error (.cause .operandReserved (s.headAt c))
  if !x.ccause.getLsbD 8 then .ok (none, fun x => x)
  else if x.ccause.getLsbD 9 then
    match s.frameWords c 48 0 with
    | .error e => .error e
    | .ok ws => (match frameOf ws with
      | some f => .ok (some f, fun x => x.setCf false)
      | none => refuse)
  else match x.shadow with
    | none => refuse
    | some f => .ok (some f, fun x => { x with shadow := none })

/-- `tret` (R218). -/
def execTret (s : State) : Step :=
  let c := s.cur
  let t := (s.ctx c).cepc
  .next (match s.checkTarget c t with
    | .error e => s.stopped c e
    | .ok _ => s.orStop (s.tretFrame c) (fun (f, g) =>
      s.transfer c t (fun x => { (g x).setTh false with resume := f })))

/-- `rdtime` (R221). -/
def execRdtime (o : GReg) (s : State) : Step :=
  .next (s.finish (fun x => x.wg o.toNat (BitVec.ofNat 64 s.time)))

/-! ### Waits with a limit (R222, R278) -/

/-- `idle` (R222). -/
def execIdle (s : State) : Step :=
  let m := (s.ctx s.cur).mon
  .next (if m.armed && m.fired then s.complete s.cur else s.block s.cur .mwait .idle (some 65536))

/-- IDLE_TIMEOUT (R222). -/
def execIdleTimeout (c : CtxId) (s : State) : Step :=
  let x := s.ctx c
  .next (if x.wait = some .idle ∧ x.lim = some 0 then s.complete c else s)

/-- MWAIT_LIMIT_EXPIRY (R278): a `mwait` whose limit has passed completes with status 1. -/
def execMwaitLimitExpiry (c : CtxId) (s : State) : Step :=
  let x := s.ctx c
  match x.wait with
  | some (.mwait d) => .next (if x.lim = some 0 ∧ s.acquireRoom c then s.endMwait c d 1 else s)
  | _ => .next s

/-- A monitor that has fired ends `mwait` and `idle` (R222, R278). -/
def State.monitorWake (s : State) (c : CtxId) : State :=
  let x := s.ctx c
  if !(x.mon.armed && x.mon.fired) then s
  else match x.wait with
    | some (.mwait d) => if s.acquireRoom c then s.endMwait c d 0 else s
    | some .idle => s.complete c
    | _ => s

/-! ### tlbi (R367 to R369) -/

/-- The targets of `tlbi` (R368). -/
def State.tlbiTargets (s : State) (p : Nat) (mode : BitVec 2) (b : Word) : List VtId :=
  let b := b.toNat
  let k := fld b 32 6
  if mode = 1 then (s.vtiles.filter (fun e => e.2.exist && decide (e.1.part = p) && decide (e.1.col = k))).map (·.1)
  else [⟨p, k, fld b 0 9, fld b 16 9⟩]

/-- The walk of a harvest, from the root of its target (R369). -/
def State.harvestWalk (s : State) (v : VtId) (va : Nat) : Walked :=
  let root := (s.vtile v).root
  if root = 0 then .fault .pageAbsent 0 else s.walkFrom v.part va 6 (root * 512) 0

/-- The line of the leaf that a harvest finds, while its bank does not take the atomic (R245, R438). -/
def State.harvestWaits (s : State) (c : CtxId) (v : VtId) (va : Nat) : Option Nat :=
  match s.harvestWalk v va with
  | .fault _ _ => none
  | .leaf _ _ first => if s.homeOpen first c.vt.part (.ctx c) then none else some (first / 64)

/-- The result of a harvest and the state after it (R369): its atomic on the leaf counts as a write whatever the bits were
(R279). -/
def State.harvest (s : State) (c : CtxId) (v : VtId) (va : Nat) (ca : Bool) : State × Word :=
  match s.harvestWalk v va with
  | .fault .pageAbsent _ => (s, 0)
  | .fault _ _ => (s, 8)
  | .leaf _ _ first =>
    let e := s.homeBytes first 8
    let cleared := e - fld e 10 1 * 2 ^ 10 - (if ca then fld e 9 1 * 2 ^ 9 else 0)
    (((s.touchHome c (.home first va false) 8).homeWrite first 8 cleared).fireHome first 8,
      BitVec.ofNat 64 (4 + fld e 9 1 * 2 + fld e 10 1))

/-- The fills that have arrived for the slots of a core, by slot and line. -/
def State.fillsAt (s : State) (k : CoreId) : List (Nat × Nat) :=
  k.slots.flatMap (fun d => (s.ctx d).prog.fills.map (fun f => (d.slot, f.line)))

/-- What `tlbi` does at a target that is resident (R368). A vtile that is placed and has not started holds no translation. -/
def State.tlbiAt (s : State) (v : VtId) (mode : BitVec 2) (va : Nat) : State :=
  if !s.present v then s
  else
    let keep (t : TEntry) : Bool := decide (mode ≠ 1) && !t.covers va
    let s := s.modVt v (fun x => { x with tlb := x.tlb.filter keep, ptrs := [] })
    let old (k : CoreId) : List (Nat × Nat) := s.fillsAt k
    let s := (List.range 12).foldl (fun s q => s.wakeQuad ⟨(s.vtile v).ptile, q⟩) s
    { s with cores := s.cores.map (fun e =>
        if e.1.vt = v then
          let k := { e.2 with tlb := e.2.tlb.filter keep, stale := old e.1 ++ e.2.stale }.acquire
          (e.1, if mode = 1 then { k with cache := [] } else k)
        else e) }

/-- Whether every core of the targets has room for the write-throughs that `tlbi` starts (R413). -/
def State.tlbiRoom (s : State) (vs : List VtId) : Bool :=
  s.cores.all (fun e => !decide (e.1.vt ∈ vs) || e.2.roomFor e.2.dirtyLines.length)

/-- Whether a matrix command has latched places at home that it has still to write (R193). -/
def Core.latchedHome (k : Core) : Bool :=
  match k.matLatch with
  | some l => l.dest.any (fun d => match d with
    | .home _ _ _ => true
    | _ => false)
  | none => false

/-- Whether every write of a vtile is performed: its cores' write-throughs, its contexts' posted stores, and what its matrix
units have latched (R368, R370). -/
def State.writesDone (s : State) (v : VtId) : Bool :=
  s.cores.all (fun e => decide (e.1.vt ≠ v) || (e.2.through.isEmpty && !e.2.latchedHome)) &&
  s.ctxs.all (fun e => decide (e.1.vt ≠ v) || e.2.posted.isEmpty)

/-- Whether a target has acknowledged (R368, R371): a resident one once its writes are performed, one among the stopping
tiles once it is saved, or, where its own save waits for a `tlbi`, once its writes are performed. -/
def State.tlbiAcked (s : State) (v : VtId) : Bool :=
  let stopping := s.stops.any (fun h => h.halted && h.tiles.any (fun e => decide (e.1 = v)) && !decide (v ∈ h.saved))
  let waits := (s.ctxsOf v).any (fun c => match (s.ctx c).wait with
    | some (.tlbi _ _ _) => true
    | _ => false)
  if s.present v then s.writesDone v
  else if stopping then waits && s.writesDone v && s.cores.all (fun e => decide (e.1.vt ≠ v) || e.2.dirtyLines.isEmpty)
  else true

/-- `tlbi` (R367, R368). -/
def execTlbi (o : Tlbi) (s : State) : Step :=
  let c := s.cur
  let x := s.ctx c
  let a := x.rg o.a.toNat
  let b := x.rg o.b.toNat
  let k := s.colony c.vt.part (fld b.toNat 32 6)
  let vs := s.tlbiTargets c.vt.part o.mode b
  if !x.priv then s.noPrivilege
  else .next (
    if o.mode = 3 ∨ (o.ca ∧ o.mode ≠ 2) ∨ (o.mode = 1 ∧ o.a ≠ 0) then
      s.stopped c (.cause .operandReserved (s.headAt c))
    else if !k.live ∨ k.gridX ≤ fld b.toNat 0 9 ∨ k.gridY ≤ fld b.toNat 16 9 then
      s.stopped c (.cause .operandReserved b)
    else if o.mode ≠ 1 ∧ (!tagOk a ∨ !(decide (spaceOf (adr a) = .heap) || decide (spaceOf (adr a) = .gallery))) then
      s.stopped c (.cause .addressForm a)
    else s.afterRelease c true (fun s =>
      if !s.tlbiRoom vs then s.stopped c (.need (.release true))
      else match (if o.mode = 2 then vs.head?.bind (fun v => s.harvestWaits c v (adr a)) else none) with
      | some l => s.stopped c (.need (.home l))
      | none =>
        let (s, r) := if o.mode = 2 then
            match vs with
            | v :: _ => s.harvest c v (adr a) o.ca
            | [] => (s, 0)
          else (s, 0)
        -- a harvest that found no leaf changes nothing (R369)
        let vs := if o.mode = 2 ∧ ¬ r.getLsbD 2 then [] else vs
        let s := vs.foldl (fun s v => s.tlbiAt v o.mode (adr a)) s
        s.block c .queueFull (.tlbi o.d.toNat r vs)))

/-- TLBI_ACKNOWLEDGEMENT (R368): the last target of a `tlbi` has acknowledged. -/
def execTlbiAcknowledgement (c : CtxId) (s : State) : Step :=
  match (s.ctx c).wait with
  | some (.tlbi d r vs) =>
    .next (if vs.all s.tlbiAcked then (s.modCtx c (fun x => x.wg d r)).complete c else s)
  | _ => .next s

end Sys2Proof.Machine
end

