-- ==== Sys2Proof/Machine/Wide.lean ====
section
/-! DEFINITION. Registers II: the wide extension 0xD0 to 0xD7 (R144 to R151) and the extension move that brings a
context to a wide core (R26, R150, R207, R235, R267, R280, R402). -/

namespace Sys2Proof.Machine

/-! ### The extension move -/

/-- The stop that a vtile's gang is in, once its notice has been sent (R95). -/
def State.stopOf (s : State) (v : VtId) : Option Halt :=
  s.stops.find? (fun h => h.gangs.any (fun g => decide (g = s.gangOf v)))

/-- Whether T − 256 has been reached for a vtile (R95). -/
def State.closing (s : State) (v : VtId) : Bool :=
  match (s.stopOf v).bind (·.t) with
  | some t => decide (t ≤ s.time + 256)
  | none => false

/-- The slot that an extension move takes (R26): the working wide core with the most empty slots, ties to the lower
logical core, and its lowest empty slot. A core that a thermal migration is moving is passed by: the rules do not say what
an extension move does there (the model's choice, log entry 104). -/
def State.wideSlot (s : State) (v : VtId) : Option CtxId :=
  let best := (List.range 48).foldl (fun (b : Option (Nat × CtxId)) k =>
    if !s.wideCore v k ∨ (s.core ⟨v, k⟩).moving then b
    else match s.emptySlots ⟨v, k⟩, b with
      | [], b => b
      | c :: r, none => some (r.length, c)
      | c :: r, some (n, d) => if n < r.length then some (r.length, c) else some (n, d)) none
  best.map (·.2)

/-- A move begins: the slot is taken, and the release on the context's behalf (R267). -/
def State.startMove (s : State) (c d : CtxId) : State :=
  (s.beginThrough c.coreId).modCtx c (fun x => { x with
    st := .migrating, prog := {}, moveTo := some (d.core, d.slot) })

/-- extension-absent with the vtile's mask (R90). -/
def State.noExtension (s : State) (c : CtxId) (head : Word) : State :=
  s.stopped c (.raise ⟨.extensionAbsent, head, (s.vtile c.vt).mask, 0⟩)

/-- A context off a working wide core reaches a wide opcode (R26, R150): it moves, or joins those that wait in the
migrating state, which move in the order in which they entered it. -/
def State.reachWide (s : State) (c : CtxId) : State :=
  let head := s.headAt c
  if s.wideCount c.vt = 0 then s.noExtension c head
  else
    let s := s.leaveSwarm c
    match s.wideSlot c.vt with
    | some d =>
      if s.closing c.vt ∨ !(s.vtile c.vt).migs.isEmpty then
        (s.modCtx c (fun x => { x with st := .migrating, prog := {} })).modVt c.vt
          (fun v => { v with migs := v.migs ++ [(c, head.toNat)] })
      else if !(s.matOf c).isEmpty then s.stopped c (.need .matrix)
      else s.startMove c d
    | none =>
      (s.modCtx c (fun x => { x with st := .migrating, prog := {} })).modVt c.vt
        (fun v => { v with migs := v.migs ++ [(c, head.toNat)] })

/-- A monitor is armed again: MADDR is translated again, and the word is read in the same step (R280). The walk is made for
the wafer manager or the move, and installs no translation. One whose page cannot be translated any more is FIRED, so that its
context looks at the word itself (the model's choice, log entry 90). -/
def State.rearm (s : State) (c : CtxId) : State :=
  let m := (s.ctx c).mon
  let put (s : State) (phys : Option Nat) (f : Bool) : State :=
    s.modCtx c (fun x => { x with mon := { m with phys := phys, fired := m.fired || f } })
  if !m.armed then s
  else match m.phys with
    | none => put s none (decide (s.sramBytes c.vt m.maddr 8 ≠ m.mval.toNat))
    | some _ => match s.walkRead c.vt m.maddr (!(s.ctx c).priv) with
      | some pa => put s (some (pa / 8 * 8)) (decide (s.homeBytes (pa / 8 * 8) 8 ≠ m.mval.toNat))
      | none => put s m.phys true

/-- Whatever names a context names it by its new slot. -/
def State.rename (s : State) (c d : CtxId) : State :=
  let pk (k : Packet) : Packet :=
    let k := match k.body with
      | .commit e => if e = c then { k with body := .commit d } else k
      | _ => k
    if k.ctx = some c then { k with ctx := some d } else k
  let s := s.modVt c.vt (fun v => { v with ports := v.ports.map (fun e =>
    if (e.2.st = .own ∨ e.2.st = .commit ∨ e.2.st = .move) ∧ e.2.owner = ownerCode c then
      (e.1, { e.2 with owner := ownerCode d }) else e) })
  { s.mapFlying (fun l => l.map pk) with
    vtiles := s.vtiles.map (fun e => (e.1, { e.2 with ports := e.2.ports.map (fun q =>
      if q.2.partner = some c then (q.1, { q.2 with partner := some d }) else q) }))
    parts := (s.mapFlying (fun l => l.map pk)).parts.map (fun e => (e.1, { e.2 with
      quotaQ := e.2.quotaQ.map (fun e => if e = c then d else e)
      offered := e.2.offered.map (fun m => if m.eng ∧ m.ctx = some c then { m with ctx := some d } else m)
      openEng := e.2.openEng.map (fun o => if o.ctx = c then { o with ctx := d } else o) }))
    cores := s.cores.map (fun e => (e.1, { e.2 with copyQ := e.2.copyQ.map (fun q =>
      if q.alive ∧ q.ctx e.1 = c then { q with core := d.core, slot := d.slot } else q) })) }

/-- The words of a comb region go to another core's region (R402). -/
def State.copyRegion (s : State) (c d : CtxId) : State :=
  let k := s.core c.coreId
  s.modCore d.coreId (fun t => (List.range 512).foldl (fun t i =>
    { t with
      comb := NMap.set 0 t.comb (regionWord d.slot i) (NMap.get 0 k.comb (regionWord c.slot i))
      combPois := NSet.put t.combPois (regionWord d.slot i / 2) (NSet.mem k.combPois (regionWord c.slot i / 2)) }) t)

/-- The context stands in its new slot; its old one is empty. -/
def State.moveCtx (s : State) (c d : CtxId) : State :=
  let x := s.ctx c
  let s := (s.rename c d).copyRegion c d
  let s := s.modCtx d (fun y => { x with
    st := .ready, moveTo := none, posted := y.posted, prog := {}, line := none, wait := none, yielded := none })
  let s := s.modCtx c Ctx.emptied
  ((s.acquire d).rearm d).checkWired c.vt c.quad

/-- EXTENSION_MOVE_COMPLETE (R26): the move ends once the release is performed and the wide core's cache has room for
the acquire. -/
def execExtensionMoveComplete (c : CtxId) (s : State) : Step :=
  match (s.ctx c).moveTo with
  | none => .next s
  | some (k, j) =>
    let d : CtxId := ⟨c.vt, k, j⟩
    let s := s.beginThrough c.coreId
    let n := s.core c.coreId
    .next (if (s.ctx c).q = 0 ∧ n.h = 0 ∧ n.dirtyLines = [] ∧ s.acquireRoom d then s.moveCtx c d else s)

/-- MIGRATING_CONTEXT_MOVE (R26, R349): the context that has waited longest begins its move, or raises
extension-absent where no wide core works any more. -/
def execMigratingContextMove (v : VtId) (s : State) : Step :=
  match (s.vtile v).migs with
  | [] => .next s
  | (c, head) :: r =>
    if s.closing v then .next s
    else
      let out := s.modVt v (fun x => { x with migs := r })
      if s.wideCount v = 0 then
        .next ((out.modCtx c (fun x => { x with st := .ready })).noExtension c (BitVec.ofNat 64 head))
      else match s.wideSlot v with
        | some d => .next (if (s.matOf c).isEmpty then out.startMove c d else s)
        | none => .next s

/-! ### The instructions -/

/-- A wide instruction: on a working wide core it has its effect; elsewhere the context moves (R144). -/
def wideInstr (n : Ctx → Nat) (f : Ctx → Ctx) (s : State) : Step :=
  let c := s.cur
  .next (if s.wideCore c.vt c.core then (s.tally c.vt.part 4 (n (s.ctx c))).finish f else s.reachWide c)

/-- Scalar f64 arithmetic (R146). -/
def wideArith (op : FOp) (n : Nat) (d a b c : GReg) (rm : RMode) (s : State) : Step :=
  wideInstr (fun _ => n) (fun x => x.putFlags d.toNat
    (scalarArith op FloatTy.f64.fmt (x.rg a.toNat) (x.rg b.toNat) (x.rg c.toNat) rm)) s

/-- `dadd` (R146). -/
def execDadd (o : DArith) (s : State) : Step := wideArith .add 0 o.d o.a o.b 0 o.rm s
/-- `dsub` (R146). -/
def execDsub (o : DArith) (s : State) : Step := wideArith .sub 0 o.d o.a o.b 0 o.rm s
/-- `dmul` (R146). -/
def execDmul (o : DArith) (s : State) : Step := wideArith .mul 1 o.d o.a o.b 0 o.rm s
/-- `dfma` (R146). -/
def execDfma (o : DFma) (s : State) : Step := wideArith .fma 1 o.d o.a o.b o.c o.rm s
/-- `ddiv` (R146). -/
def execDdiv (o : DArith) (s : State) : Step := wideArith .div 0 o.d o.a o.b 0 o.rm s
/-- `dsqrt` (R146). -/
def execDsqrt (o : DUn) (s : State) : Step := wideArith .sqrt 0 o.d o.a 0 0 o.rm s

/-- `dcvt` (R147). -/
def execDcvt (o : FCvt) (s : State) : Step :=
  wideInstr (fun _ => 0)
    (fun x => x.putFlags o.d.toNat (scalarConvert o.src o.dst (x.rg o.a.toNat) o.rm o.sat)) s

/-- `vdfma` (R148). -/
def execVdfma (o : VDFma) (s : State) : Step :=
  wideInstr (fun x => popN (x.mask o.om).toNat 8) (fun x =>
    let r := laneDfma o.rm (x.mask o.om) (x.rv o.d.toNat) (x.rv o.a.toNat) (x.rv o.b.toNat) (x.rv o.c.toNat) x.csrng
    { x.wv o.d.toNat r.1 with csrng := r.2 }) s

end Sys2Proof.Machine
end

