-- ==== Sys2Proof/Machine/Events.lean ====
section
/-! DEFINITION. What the memories do on their own: posted stores, write-throughs, fills, the results of atomics, walks,
scrubbing and zeroing (R230, R231, R236, R237, R245, R251, R254, R264, R284, R358 to R365). -/

namespace Sys2Proof.Machine

/-- A self-test starts, unless the same one is under way (R103). -/
def State.startTest (s : State) (tile : Nat) (u : UnitId) : State :=
  if s.tests.any (fun x => decide (x = ⟨tile, u⟩)) then s else { s with tests := s.tests ++ [⟨tile, u⟩] }

/-! ### Posted stores (R249 to R251) -/

/-- Whether a posted store may be performed: its bank's quad is awake and the port holds nothing from before, its store is not being moved (R235), and none
of the context's earlier stores goes to the same home (R250). -/
def State.postedReady (s : State) (c : CtxId) (i : Nat) : Bool :=
  let l := (s.ctx c).posted
  match l[i]? with
  | none => false
  | some p =>
    s.portOpen c.vt p.addr (.store c p.home) && !(l.take i).any (fun q => decide (q.home = p.home)) &&
    (s.movingAt c.vt p.addr).isNone

/-- The number that little-endian bytes stand for. -/
def bytesVal : List Byte → Nat
  | [] => 0
  | b :: r => b.toNat + 256 * bytesVal r

/-- POSTED_STORE_PERFORMED (R251): the store reaches its bank, and Q falls. -/
def execPostedStorePerformed (c : CtxId) (i : Nat) (s : State) : Step :=
  match (s.ctx c).posted[i]? with
  | none => .next s
  | some p =>
    .next (if s.postedReady c i then
      ((s.modQuad (s.portOf c.vt p.addr) (fun x => { x with
        held := dropFirst (fun a => decide (a = .store c p.home)) x.held })).modCtx c (fun x => { x with posted := x.posted.eraseIdx i })).sramWrite c.vt p.addr p.bytes.length
        (bytesVal p.bytes)
    else s)

/-! ### Write-throughs (R236, R251) -/

/-- The words of a write-through reach the rim controller: a whole line at once, otherwise word by word. -/
def State.writeLine (s : State) (t : Through) : State :=
  if t.mask = 0xFF then (s.homeWrite (t.line * 64) 64 t.data.toNat).fireHome (t.line * 64) 64
  else (maskWords t.mask t.data).foldl (fun s (w, v) =>
    (s.homeWrite (t.line * 64 + 8 * w) 8 v).fireHome (t.line * 64 + 8 * w) 8) s

/-- An access has arrived at a granule that is being zeroed, or behind one that has: it waits there (R245). -/
def State.arrive (s : State) (pa : Nat) (a : Arrival) : State :=
  if NSet.mem s.zeroing (granuleOf pa) || !(NMap.get [] s.homeQ (granuleOf pa)).isEmpty then s.holdHome pa a else s

/-- WRITE_THROUGH_PERFORMED (R251): the write is performed at home, after any zeroing (R245), and H falls. -/
def execWriteThroughPerformed (k : CoreId) (line : Nat) (s : State) : Step :=
  let pa := line * 64
  match (s.core k).through.find? (fun t => decide (t.line = line)) with
  | none => .next s
  | some t =>
    .next (if s.cleared (line / 1024) ∧ s.homeFree pa then (s.startZero (line / 1024)).holdHome pa (.through k line)
      else if !s.homeOpen pa k.vt.part (.through k line) then s.arrive pa (.through k line)
      else (((s.servedHome pa (.through k line)).activate pa k.vt.part).modCore k (fun x => { x with
        through := dropFirst (fun t => decide (t.line = line)) x.through })).writeLine t)

/-! ### Fills (R236, R237, R254) -/

/-- Whether what an instruction waits for comes with a line: a load the line, a store a word of it. -/
def Need.ofLine (line : Nat) : Need → Bool
  | .fill l _ => decide (l = line)
  | .word l _ => decide (l = line)
  | _ => false

/-- The contexts of a core that wait for a line. -/
def State.fillWaiters (s : State) (k : CoreId) (line : Nat) : List CtxId :=
  k.slots.filter (fun c => decide ((s.ctx c).st = .ready) && (s.ctx c).prog.need.ofLine line)

/-- The loads among the contexts of a core that wait for a line: whether each reaches it through a gallery page. -/
def State.fillPages (s : State) (k : CoreId) (line : Nat) : List Bool :=
  (s.fillWaiters k line).filterMap (fun c => match (s.ctx c).prog.need with
    | .fill _ g => some g
    | _ => none)

/-- Whether the fill of a line may be made now: the cache can take it, and home serves it (R245, R254, R413). -/
def State.fillReady (s : State) (k : CoreId) (line : Nat) : Bool :=
  (s.core k).takesFill line && s.homeOpen (line * 64) k.vt.part (.fill k line)

/-- Whether the protection grade of a granule corrects nothing (R242). -/
def State.parityOnly (s : State) (g : Nat) : Bool := decide (fld (NMap.get 0 s.granules g).toNat 5 2 = 2)

/-- An error found by a read at home: 1 is corrected, 2 is not; under grade P none is corrected (R103, R242). -/
def State.homeError (s : State) (line err : Nat) : State :=
  if err = 0 ∨ s.cleared (line / 1024) then s
  else
    let s := if err = 2 ∨ s.parityOnly (line / 1024) then { s with badLine := NSet.ins s.badLine line } else s
    s.startTest 0 (.hbmRow (line * 64 / 2 ^ 36) (line * 64 / 256 % 16))

/-- A line has been read at home for a core: DRAM activates a row and is read, unless the granule is cleared. -/
def State.readDram (s : State) (k : CoreId) (line : Nat) : State :=
  if s.cleared (line / 1024) then s else (s.activate (line * 64) k.vt.part).tallyRead (line * 64) 64

/-- What a fill brings goes to the instructions of a core that wait for it, and is what they see from now on (R254). -/
def State.fillCtxs (s : State) (k : CoreId) (f : Fill) (cs : List CtxId) : State :=
  let s := cs.foldl (fun (s : State) c => s.modCtx c (fun x => { x with
    prog := { x.prog with need := .none, fills := x.prog.fills.filter (fun g => decide (g.line ≠ f.line)) ++ [f] } })) s
  s.modCore k (fun x => { x with stale := x.stale.filter (fun e =>
    decide (e.2 ≠ f.line) || !cs.any (fun c => decide (c.slot = e.1))) })

/-- CACHE_FILL (R236, R237): the line returns to those that wait for it; for a load it is installed, unless it is
uncorrectable, as a gallery line where every load that waits for it reaches it through a gallery page (log entry 24). A
store takes its word alone. A fill that the cache cannot take yet has not reached home. `err` is the error its read met. -/
def execCacheFill (k : CoreId) (line err : Nat) (s : State) : Step :=
  let cs := s.fillWaiters k line
  let a : Arrival := .fill k line
  .next (if cs = [] then s
    else if !(s.core k).takesFill line then s.servedHome (line * 64) a
    else if !s.fillReady k line then s.arrive (line * 64) a
    else
      let pages := s.fillPages k line
      let s := ((s.homeError line err).readDram k line).servedHome (line * 64) a
      let f := s.homeLine line
      let s := s.fillCtxs k ((s.core k).merged f) cs
      if f.bad ≠ 0 ∨ pages = [] then s else s.modCore k (fun x => x.fillLine f (pages.all (fun g => g))))

/-! ### Atomics at home (R264, R284) -/

/-- The end of an atomic: the acquire, if it has one, the result and the next PC. -/
def State.endAtomic (s : State) (c : CtxId) (r : AtomRes) : State :=
  let s := if r.acq then s.acquire c else s
  (s.modCtx c (fun x => x.wg r.d r.val)).complete c

/-- ATOMIC_RESULT_RETURN (R284): the result reaches the context. -/
def execAtomicResultReturn (c : CtxId) (s : State) : Step :=
  let x := s.ctx c
  match x.prog.res with
  | none => .next s
  | some r =>
    .next (if x.prog.need ≠ .result ∧ x.prog.need ≠ .acquire then s
      else if r.acq ∧ !s.acquireRoom c then s.modCtx c (fun x => { x with prog := { x.prog with need := .acquire } })
      else s.endAtomic c r)

/-! ### Walks (R358 to R365) -/

/-- The walk of a page reads its lines one after the other, each when its granule and its bank take it (R245, R438, R439): the
state, and whether it has read them all. It has a place at the line that it has come to. -/
def State.walkRows (a : Arrival) (p : Nat) : List Nat → State → State × Bool
  | [], s => (s.endStep a, true)
  | l :: r, s =>
    let b := a.onLine l
    if b ∈ s.rows then State.walkRows a p r s
    else if !s.homeHere (l * 64) b then (s.takePlaces a [] [b], false)
    else if s.cleared (l / 1024) then State.walkRows a p r (s.leavePlaces a)
    else if !s.rowOpen p b then (s.takePlaces a [] [b], false)
    else State.walkRows a p r ((s.openRows p [b]).leavePlaces a)

/-- The fault of a miss, if its walk now comes to one (R358 to R360). -/
def State.missFault (s : State) (m : Miss) : Option (Cause × Nat) :=
  match s.walk m.ctx.vt m.va with
  | .fault c e => some (c, e)
  | .leaf e _ _ => if permitted e m.va m.acc m.user then none else some (.permission, e)

/-- The misses of a page that its walk can end now: a fault is raised once every miss that reached the walker before has
ended, since messages are offered in that order (R365). -/
def State.endable (s : State) (v : VtId) (vpn : Nat) : List Miss → List Miss
  | [] => []
  | m :: r =>
    if m.failed then s.endable v vpn r
    else if m.va / 4096 = vpn then m :: s.endable v vpn r
    else r.filter (fun n => !n.failed && decide (n.va / 4096 = vpn) && (s.missFault n).isNone)

/-- A walk for an engine's step faults: the command, or the transfer of a party, is held (R94, R193, R293, R313). -/
def State.engFault (s : State) (m : Miss) (r : Raise) : State :=
  let k := m.ctx.coreId
  match m.by_ with
  | .instr => s
  | .spill => s
  | .copy => match (s.core k).copyQ with
    | q :: _ => if (s.core k).copyPhase = .fetch ∧ !(s.core k).copyHeld then (s.endStep (.copy k 0)).holdCopy k q r else s
    | [] => s
  | .matrix => match (s.core k).matQ with
    | q :: _ => if (s.core k).matPhase = .fetch ∧ !(s.core k).matHeld then s.holdMat k q r else s
    | [] => s
  | .bulk p => match (s.port p).bulk with
    | some b =>
      let x := s.port p
      let c := if m.acc = .write then ownerCtx x.peer.vt (s.port x.peer).owner else ownerCtx p.vt x.owner
      if x.st = .move ∧ !b.halted then (s.endStep (.bulk p 0)).holdBulk p c r (b.len - x.pending) else s
    | none => s

/-- The walk of a miss ends (R358 to R361, R365): the translation is installed and what missed goes on, or its cause is raised.
A frame that cannot be stored is left to the handler entry that saves it (R82). -/
def State.endMiss (s : State) (m : Miss) : State :=
  let out (s : State) : State := s.modVt m.ctx.vt (fun x => { x with misses := x.misses.filter (fun n => decide (n ≠ m)) })
  let wake (s : State) : State := if m.by_ = .spill then s.modCtx m.ctx (fun x => { x with prog := {} }) else s
  match s.walkFor m.ctx.coreId m.va m.acc m.user with
  | (s, .ok _) => wake (out s)
  | (s, .error (c, e)) =>
    let r : Raise := ⟨c, m.tval, BitVec.ofNat 64 m.acc.code, BitVec.ofNat 64 e⟩
    match m.by_ with
    | .instr => (out s).raise m.ctx r
    | .spill => wake (s.modVt m.ctx.vt (fun x => { x with
        misses := x.misses.map (fun n => if n = m then { n with failed := true } else n) }))
    | .copy => (out s).engFault m r
    | .matrix => (out s).engFault m r
    | .bulk _ => (out s).engFault m r

/-- PAGE_WALK (R363): the walk that misses of one page share finishes, once it has read its tables. -/
def execPageWalk (v : VtId) (vpn : Nat) (s : State) : Step :=
  let x := s.vtile v
  let ms := s.endable v vpn x.misses
  .next (if ms = [] ∨ !x.walking.any (fun p => decide (p = vpn)) then s
    else
      let path := s.walkPath v (vpn * 4096)
      match State.walkRows (.walk v vpn 0) v.part path s with
      | (s, false) => s
      | (s, true) => ms.foldl State.endMiss (path.foldl (fun (s : State) l => s.tallyRead (l * 64) 64) s))

/-! ### Scrub and zeroing -/

/-- The read step of R230 meets an error in a word: it is corrected, or the word is marked poisoned; the self-test of its
row starts (R103). -/
def State.sramError (s : State) (v : VtId) (a err array row : Nat) : State :=
  if err = 0 ∨ !(s.vtile v).exist ∨ !s.quadAwake v a then s
  else
    let s := if err = 2 then { s with pois := NSet.ins s.pois (sramWord v a) } else s
    s.startTest (s.vtile v).ptile (.sram array row)

/-- SCRUB_READ (R231, R233): a word of a quad memory or of an instruction store is read by the read step of R230, by the
scrub or as an access finds it; `err` is the error it meets: 1 corrected, 2 uncorrectable. -/
def execScrubRead (v : VtId) (a err : Nat) (s : State) : Step :=
  match spaceOf a with
  | .quad q => .next (s.sramError v a err q (a % 0x00100000 / 64))
  | .istore k => .next (s.sramError v a err (istoreArray ((s.vtile v).lpct.getD k k)) (a % 0x00010000 / 64))
  | _ => .next s

/-- GRANULE_ZEROING_COMPLETE (R245): the granule reads zero at DRAM, its bit is clear, and accesses proceed. Where the wafer
manager has zeroed it for a write of its own meanwhile, nothing is left to zero. -/
def execGranuleZeroingComplete (g : Nat) (s : State) : Step :=
  .next (if NSet.mem s.zeroing g then
      let s := if s.cleared g then s.zeroGranule g else s
      { s with zeroing := NSet.erase s.zeroing g }
    else s)

/-- PLAIN_REGISTER_WRITE (R11, R385): a write to a register of a context's device window that has no behaviour of its
own. -/
def execPlainRegisterWrite (c : CtxId) (off : Nat) (w : Word) (s : State) : Step :=
  .next (if (s.ctx c).st ≠ .empty ∧ (s.ctx c).priv ∧ off ≠ 0x128 then s.modCtx c (fun x => x.plainWrite off w) else s)

end Sys2Proof.Machine
end

