-- ==== Sys2Proof/Machine/Image.lean ====
section
/-! DEFINITION. Colony images: their tables, their checks, and how a vtile is set up from one (R3, R15, R73 to R77,
R376, R377). -/

namespace Sys2Proof.Machine

/-! ### The tables (R75, R76) -/

/-- A vtile record. -/
structure ImgVt where
  x0 : Nat
  y0 : Nat
  x1 : Nat
  y1 : Nat
  flags : Nat
  mask : Nat
  entry : Nat
  res : Nat
  deriving DecidableEq, Repr

/-- A section record with its bytes. -/
structure ImgSec where
  kind : Nat
  core : Nat
  vt : Nat
  res : Nat
  addr : Nat
  off : Nat
  len : Nat
  bytes : List Byte
  deriving DecidableEq, Repr

/-- A port record. -/
structure ImgPort where
  x : Nat
  y : Nat
  port : Nat
  dir : Nat
  peer : Nat
  width : Nat
  px : Nat
  py : Nat
  max : Nat
  deriving DecidableEq, Repr

/-- An image as its header and tables give it. -/
structure Img where
  magic : Nat
  version : Nat
  flags : Nat
  gx : Nat
  gy : Nat
  gangs : Nat
  mask : Nat
  len : Nat
  /-- the reserved fields of the header -/
  res : List Nat
  /-- where each table begins and ends -/
  spans : List (Nat × Nat)
  map : List Nat
  vts : List ImgVt
  secs : List ImgSec
  ports : List ImgPort
  deriving DecidableEq, Repr

/-- A little-endian field of a byte string (R9). -/
def leAt (l : List Byte) (o n : Nat) : Nat := bytesVal ((l.drop o).take n)

/-- Records of n bytes from an offset. -/
def imgRecords {α : Type} (l : List Byte) (o count n : Nat) (f : List Byte → α) : List α :=
  (List.range count).map (fun i => f ((l.drop (o + n * i)).take n))

/-- The header and tables of an image, wherever its offsets point. Counts are bounded by its length. -/
def imgOf (l : List Byte) : Img :=
  let h (o n : Nat) : Nat := leAt l o n
  let cap (o n : Nat) : Nat := min (h o 4) (l.length / n + 1)
  let vt (b : List Byte) : ImgVt :=
    ⟨leAt b 0 2, leAt b 2 2, leAt b 4 2, leAt b 6 2, leAt b 8 2, leAt b 16 8, leAt b 24 8, leAt b 10 6⟩
  let sec (b : List Byte) : ImgSec :=
    ⟨leAt b 0 1, leAt b 1 1, leAt b 2 2, leAt b 4 4, leAt b 8 8, leAt b 16 8, leAt b 24 8,
      (l.drop (leAt b 16 8)).take (leAt b 24 8)⟩
  let port (b : List Byte) : ImgPort :=
    ⟨leAt b 0 2, leAt b 2 2, leAt b 4 1, leAt b 5 1, leAt b 6 1, leAt b 7 1, leAt b 8 2, leAt b 10 2, leAt b 12 4⟩
  { magic := h 0 4, version := h 4 2, flags := h 6 2, gx := h 8 2, gy := h 0xA 2, gangs := h 0xC 2
    mask := h 0x10 8, len := h 0x18 8, res := [h 0xE 2, h 0x34 4, h 0x44 4, h 0x54 4, h 0x58 40]
    spans := [(h 0x20 8, h 0x20 8 + 2 * (h 8 2 * h 0xA 2)), (h 0x28 8, h 0x28 8 + 32 * h 0x30 4),
      (h 0x38 8, h 0x38 8 + 32 * h 0x40 4), (h 0x48 8, h 0x48 8 + 16 * h 0x50 4)]
    map := (List.range (min (h 8 2 * h 0xA 2) (l.length / 2 + 1))).map (fun i => leAt l (h 0x20 8 + 2 * i) 2)
    vts := imgRecords l (h 0x28 8) (cap 0x30 32) 32 vt
    secs := imgRecords l (h 0x38 8) (cap 0x40 32) 32 sec
    ports := imgRecords l (h 0x48 8) (cap 0x50 16) 16 port }

/-! ### The checks (R74, R77) -/

/-- Whether a record covers a vtile. -/
def ImgVt.covers (r : ImgVt) (x y : Nat) : Bool :=
  decide (r.x0 ≤ x) && decide (x ≤ r.x1) && decide (r.y0 ≤ y) && decide (y ≤ r.y1)

/-- Whether a record gives an entry. -/
def ImgVt.hasEntry (r : ImgVt) : Bool := decide (r.flags % 2 = 1)

/-- The rules of a vtile record. The reserved bits of a mask are refused also where flags bit 1 leaves the mask unused: R76
calls the field used or not used, and R77 refuses a reserved field that is not zero (the model's choice, log entry 107). -/
def ImgVt.ok (r : ImgVt) (gx gy : Nat) : Bool :=
  decide (r.x0 ≤ r.x1) && decide (r.x1 < gx) && decide (r.y0 ≤ r.y1) && decide (r.y1 < gy) && decide (r.flags < 4) &&
  decide (r.res = 0) && decide (r.mask < 2)

/-- The rules of a section record: inside the image, inside the memory it goes to, an empty one with its address there. -/
def ImgSec.ok (r : ImgSec) (vts len : Nat) : Bool :=
  let within (e : Nat) : Bool := decide (r.addr < e) && decide (r.addr + r.len ≤ e)
  decide (r.res = 0) && decide (r.off + r.len ≤ len) &&
  (if r.kind = 4 then decide (r.vt = 0xFFFF) else decide (r.vt < vts)) &&
  (if r.kind = 1 then decide (r.core < 48) && decide (0x01000000 + r.core * 0x10000 ≤ r.addr) &&
      within (0x01000000 + (r.core + 1) * 0x10000)
   else if r.kind = 2 then within 0x00C00000
   else if r.kind = 3 then decide (0x000100000000 ≤ r.addr) && within 0x800000000000
   else decide (r.kind = 4) && decide (0x800000000000 ≤ r.addr) && within 0x1000000000000)

/-- Two declarations that match (R74). -/
def ImgPort.matches (p q : ImgPort) : Bool :=
  decide (q.x = p.px) && decide (q.y = p.py) && decide (q.port = p.peer) &&
  decide (p.x = q.px) && decide (p.y = q.py) && decide (p.port = q.peer) && decide (p.width = q.width) &&
  (decide (p.dir = 0) && decide (q.dir = 1) || decide (p.dir = 1) && decide (q.dir = 0) ||
   decide (p.dir = 2) && decide (q.dir = 3) || decide (p.dir = 3) && decide (q.dir = 2))

/-- The rules of a port record. -/
def ImgPort.ok (p : ImgPort) (gx gy : Nat) (all : List ImgPort) : Bool :=
  decide (p.x < gx) && decide (p.y < gy) && decide (p.port < 255) && decide (p.peer < 255) && decide (p.dir < 4) &&
  (if p.dir < 2 then decide (1 ≤ p.width) && decide (p.width ≤ 8) else decide (p.width = 0)) &&
  (if p.dir = 2 then decide (1 ≤ p.max) else decide (p.max = 0)) && all.any (fun q => p.matches q) &&
  decide ((all.filter (fun q => decide (q.x = p.x) && decide (q.y = p.y) && decide (q.port = p.port))).length = 1)

/-- All vtiles of a grid. -/
def gridOf (gx gy : Nat) : List (Nat × Nat) :=
  (List.range gy).flatMap (fun y => (List.range gx).map (fun x => (x, y)))

/-- Every check of R77 but the signature. Of the conditions of R74 these are the ones that the tables of an image show: the
bytes of its code sections are not decoded, and an instruction that R74 would have refused raises its cause when it is reached
(the model's choice, log entry 106). -/
def Img.ok (i : Img) : Bool :=
  decide (i.flags < 2) && decide (1 ≤ i.gx) && decide (i.gx ≤ 512) && decide (1 ≤ i.gy) && decide (i.gy ≤ 512) &&
  decide (1 ≤ i.gangs) && decide (i.gangs ≤ 4096) && decide (i.mask < 2) && i.res.all (fun n => decide (n = 0)) &&
  i.spans.all (fun (_, b) => decide (b ≤ i.len)) &&
  i.map.all (fun g => decide (g < i.gangs)) &&
  (List.range i.gangs).all (fun g => i.map.any (fun h => decide (h = g))) &&
  i.vts.all (fun r => r.ok i.gx i.gy) && i.secs.all (fun r => r.ok i.vts.length i.len) &&
  i.ports.all (fun p => p.ok i.gx i.gy i.ports) &&
  (gridOf i.gx i.gy).all (fun (x, y) =>
    decide ((i.vts.filter (fun r => r.hasEntry && r.covers x y)).length ≤ 1))

/-- Whether an image carries a good signature under a key (R77). -/
def imgSigned (key l : List Byte) : Bool :=
  let n := leAt l 0x18 8
  decide (n = l.length) && decide (224 ≤ n) && ecdsaOk key (sha384 (l.take (n - 96))) (l.drop (n - 96))

/-- The status of R446 that an image gets before R3 is looked at: 0, 2 or 3. An L that is not the number of bytes handed over
is 3 (the model's choice, log entry 73). -/
def imgStatus (key l : List Byte) : Nat :=
  let i := imgOf l
  if l.length < 224 ∨ i.magic ≠ 0x4C434E51 ∨ i.version ≠ 1 ∨ i.len ≠ l.length then 3
  else if !imgSigned key l then 2
  else if i.ok then 0 else 3

/-! ### What a vtile gets -/

/-- The gang of a vtile. -/
def Img.gangOf (i : Img) (x y : Nat) : Nat := i.map.getD (y * i.gx + x) 0

/-- The requirement mask of a vtile: its record's, or the colony's (R76); of two records the first (the model's choice, log
entry 72). -/
def Img.maskOf (i : Img) (x y : Nat) : Nat :=
  match i.vts.find? (fun r => r.covers x y && decide (r.flags / 2 = 1)) with
  | some r => r.mask
  | none => i.mask

/-- The entry PC of a vtile. -/
def Img.entryOf (i : Img) (x y : Nat) : Option Nat :=
  (i.vts.find? (fun r => r.covers x y && r.hasEntry)).map (·.entry)

/-- The direction of a port record. -/
def dirOf (n : Nat) : Dir := if n = 0 then .inp else if n = 1 then .out else if n = 2 then .bin else .bout

/-- The port table of a vtile at launch (R381). -/
def Img.portsOf (i : Img) (p k x y : Nat) : AMap Nat Port :=
  (i.ports.filter (fun q => decide (q.x = x) && decide (q.y = y))).map (fun q =>
    (q.port, { decl := true, dir := dirOf q.dir, width := q.width, max := q.max, peer := ⟨⟨p, k, q.px, q.py⟩, q.peer⟩ }))

/-- Put bytes from a key on. -/
def putBytes : NMap Byte → Nat → List Byte → NMap Byte
  | m, _, [] => m
  | m, k, b :: r => putBytes (NMap.set 0 m k b) (k + 1) r

/-- Bytes from an address on, cut at the ends of lines. -/
def linePieces (a : Nat) (bs : List Byte) : List (Nat × List Byte) :=
  (linesOf a bs.length).map (fun l =>
    let lo := max a (l * 64)
    (lo, (bs.drop (lo - a)).take (min (l * 64 + 64) (a + bs.length) - lo)))

/-- Where the loader puts an address of a vtile's heap or galleries (R247). -/
def loaderAddr (v : VtId) (a : Nat) : Nat := Config.loaderPage v.part v.col v.x v.y (a / 4096) * 4096 + a % 4096

/-- Put bytes at home where the loader puts that page of a vtile, line by line (R242, R247). -/
def State.loadHeap (s : State) (v : VtId) (a : Nat) (bs : List Byte) : State :=
  (linePieces a bs).foldl (fun (s : State) e =>
    let pa := loaderAddr v e.1
    if s.granOk v.part (granuleOf pa) then s.homeWriteNow pa e.2.length (bytesVal e.2) else s) s

/-- Whether home serves the loader at n bytes of a vtile: no zeroing or restart of a rim controller is under way there, and
nothing that arrived before waits (R245, R456). -/
def State.loadFree (s : State) (v : VtId) (a n : Nat) : Bool :=
  (linesOf a n).all (fun l =>
    let pa := loaderAddr v (l * 64)
    s.homeFree pa && (NMap.get [] s.homeQ (granuleOf pa)).isEmpty)

/-- Load a section into a vtile. -/
def State.loadSec (s : State) (v : VtId) (c : ImgSec) : State :=
  if c.kind = 1 ∨ c.kind = 2 then { s with mem := putBytes s.mem (sramKey v c.addr) c.bytes }
  else if c.kind = 3 then s.loadHeap v c.addr c.bytes
  else s

/-- Everything that a vtile held is gone: its SRAM, its cores, its contexts (R14). -/
def State.wipeVt (s : State) (v : VtId) : State :=
  let mine (k : Nat) : Bool := decide (sramKey v 0 ≤ k) && decide (k < sramKey v 0 + 2 ^ 48)
  { s with
    mem := NMap.keep s.mem (fun k => !mine k)
    pois := s.pois.filter (fun w => !mine (8 * w))
    ctxs := s.ctxs.filter (fun e => decide (e.1.vt ≠ v))
    cores := s.cores.filter (fun e => decide (e.1.vt ≠ v))
    dieQ := s.dieQ.map (fun (d, l) => (d, l.filter (fun x => decide (x.vt ≠ v))))
    probes := s.probes.filter (fun p => decide (p.init.vt ≠ v)) }

/-- A vtile is set up as at launch (R15): its tables, its sections, and its process. -/
def State.setupVt (s : State) (i : Img) (v : VtId) : State :=
  let s := (s.wipeVt v).putVt v
    { exist := true, gang := i.gangOf v.x v.y, mask := BitVec.ofNat 64 (i.maskOf v.x v.y)
      ports := i.portsOf v.part v.col v.x v.y
      lastStart := if (i.entryOf v.x v.y).isSome then s.time else (s.vtile v).lastStart }
  let s := i.secs.foldl (fun (s : State) c =>
    match i.vts[c.vt]? with
    | some r => if r.covers v.x v.y then s.loadSec v c else s
    | none => s) s
  match i.entryOf v.x v.y with
  | some pc => s.modCtx ⟨v, 0, 0⟩ (fun x => x.fresh (BitVec.ofNat 64 pc) (s.curatorVt v) .launch)
  | none => s

/-! ### Whether a partition can hold it (R3) -/

/-- Whether some tiles hold some vtiles: n of them, w of them with a wide core. -/
def State.holds (s : State) (tiles : List Nat) (n w : Nat) : Bool :=
  decide (n ≤ tiles.length) && decide (w ≤ (tiles.filter (fun t => (s.tile t).wide.any (fun b => b))).length)

/-- R3 for an image that becomes colony k of a partition. -/
def State.imgFits (s : State) (p k : Nat) (i : Img) : Bool :=
  let grid := gridOf i.gx i.gy
  if (s.part p).curcol = k then
    s.holds ((s.part p).curTiles.filter (fun t => (s.tile t).working && !(s.tile t).retired)) grid.length
      (grid.filter (fun (x, y) => decide (i.maskOf x y % 2 = 1))).length
  else
    let tiles := s.gangTiles p
    s.holds tiles 0 (i.mask % 2) &&
    (if i.flags % 2 = 1 then s.holds tiles grid.length 0
     else (List.range i.gangs).all (fun g => s.holds tiles (i.map.filter (fun h => decide (h = g))).length 0))

end Sys2Proof.Machine
end

