-- ==== Sys2Proof/Machine/Probe.lean ====
section
/-! DEFINITION. The wait-graph probe: counts, edges, the knot and its report (R326 to R331, R341). -/

namespace Sys2Proof.Machine

/-- The delay of `cprobe` (R214). -/
def Ctx.probeDelay (x : Ctx) : Nat := fld x.cprobe.toNat 0 32

/-- Whether a context is blocked for a reason that the probe count runs for (R326). -/
def Ctx.probed (x : Ctx) : Bool :=
  decide (x.st = .blocked) && (match x.why with
    | .channel => true
    | .alt => true
    | .barrier => true
    | .quota => true
    | .semaphore => false
    | .mwait => false
    | .queueFull => false)

/-- Whether a probe count runs (R326). -/
def State.counts (s : State) (c : CtxId) : Bool :=
  let x := s.ctx c
  x.probed && !x.knot && decide (x.probeDelay ≠ 0) && s.running c.vt

/-! ### Edges (R327) -/

/-- How the successors of an edge count (R328). -/
inductive EdgeKind where
  | any | all | single
  deriving DecidableEq, Repr

/-- An edge: its kind, successors, whether it is progressing, its reason in a report (R330), and the vtiles that an OR
edge names. -/
structure Edge where
  kind : EdgeKind
  succ : List CtxId
  prog : Bool
  reason : Nat
  names : List VtId
  deriving DecidableEq, Repr

/-- Whether a forager is accepted, spilled, parked or in flight for a vtile. -/
def State.foragersFor (s : State) (v : VtId) : Bool :=
  let x := s.vtile v
  let isF (k : Packet) : Bool := decide (k.dst.vt = v) && (match k.body with
    | .forager _ _ => true
    | _ => false)
  !x.arrivals.isEmpty || !x.spill.isEmpty || s.flying.any isF

/-- The successors of a wait on a port, whether its edge is progressing, and the vtile it names (first row of R327). A probe
does not cross the boundary of its partition. -/
def State.portEdge (s : State) (c : CtxId) (q : Nat) : List CtxId × Bool × List VtId :=
  if q = 255 then ([], true, [])
  else
    let v := (s.port ⟨c.vt, q⟩).peer.vt
    let live := if v.part = c.vt.part then s.ctxsOf v else []
    (live.filter (fun d => decide (d ≠ c)),
      live.isEmpty || s.foragersFor v || decide (v.part ≠ c.vt.part) || !(s.vtile v).exist ||
        !(s.colony v.part v.col).live, [v])

/-- The edge of a rendezvous on a port: single to a committed partner of the same partition, otherwise OR; one that has begun
is progressing. -/
def State.rendezvousEdge (s : State) (c : CtxId) (q : Nat) (sending : Bool) : Edge :=
  let x := s.port ⟨c.vt, q⟩
  let (l, p, n) := s.portEdge c q
  if q ≠ 255 ∧ s.begun ⟨c.vt, q⟩ sending then ⟨.any, [], true, 1, []⟩
  else match (if q = 255 then none else x.partner) with
    | some d => if d = c ∨ d.vt.part ≠ c.vt.part then ⟨.any, l, p, 1, n⟩ else ⟨.single, [d], false, 5, []⟩
    | none => ⟨.any, l, p, 1, n⟩

/-- The enabled ports of an `alt`. -/
def altPorts (ports guard : Word) : List Nat :=
  ((List.range 8).filter (fun i => guard.getLsbD i)).map (fun i => fld ports.toNat (8 * i) 8)

/-- The edge of a blocked context; `none` where it counts as progressing. -/
def State.edge (s : State) (c : CtxId) : Option Edge :=
  let x := s.ctx c
  let barrier (l : List CtxId) : Option Edge := some ⟨.all, l, false, 3, []⟩
  let late (sc : BScope) : List CtxId := (s.participants c.vt c.quad sc).filter (fun d => !(s.ctx d).arr sc)
  let coreLive (k : Nat) : List CtxId :=
    (CoreId.slots ⟨c.vt, k⟩).filter (fun d => decide ((s.ctx d).st ≠ .empty))
  match x.wait with
  | some (.chs q) => some (s.rendezvousEdge c q true)
  | some (.vsift q _ _ _ _) => some (s.rendezvousEdge c q true)
  | some (.chr q _ _) => some (s.rendezvousEdge c q false)
  | some (.chbs q _) => some (s.rendezvousEdge c q true)
  | some (.chbr q _) => some (s.rendezvousEdge c q false)
  | some (.alt _ ports guard) =>
    let es := (altPorts ports guard).map (s.portEdge c)
    some ⟨.any, (es.flatMap (·.1)).dedup, guard.getLsbD 8 || es.any (·.2.1), 2, es.flatMap (·.2.2)⟩
  | some (.arrive sc _ _) => barrier (late sc)
  | some (.gen sc _) => barrier (late sc)
  | some (.swl _ n) => barrier ((List.range (n - 1)).flatMap (fun i =>
      (coreLive (c.core + 1 + i)).filter (fun d => match (s.ctx d).wait with
        | some (.swj _ l) => decide (l ≠ c.core)
        | _ => true)))
  | some (.swj _ l) => barrier (coreLive l)
  | some .rejoin => (match x.member with
    | none => none
    | some m =>
      let ms := (s.swarm c.vt m.entry).filter (fun d => decide ((s.ctx d).wait ≠ some .rejoin))
      barrier (if m.det then ms.filter (fun d => (s.ctx d).joined) else ms))
  | some (.spawnQuota _ _) =>
    some ⟨.any, (s.ctxs.filter (fun e => decide (e.1.vt.part = c.vt.part) && decide (e.2.st ≠ .empty))).map (·.1),
      false, 4, (s.vtiles.filter (fun e => decide (e.1.part = c.vt.part) && e.2.exist)).map (·.1)⟩
  | some (.sem _) => none
  | some (.mwait _) => none
  | some .idle => none
  | some (.copyPush _) => none
  | some (.matPush _) => none
  | some .mdrain => none
  | some .pend => none
  | some (.tlbi _ _ _) => none
  | some .spawnAbsent => none
  | some (.spawnFull _ _) => none
  | none => none

/-- The edge that a probe launched at time t follows from a context (R328): none from one that counts as progressing. -/
def State.probeEdge (s : State) (t : Nat) (c : CtxId) : Option Edge :=
  let x := s.ctx c
  if x.probed && decide (x.stamp ≤ t) then s.edge c else none

/-- The contexts that a probe reaches, in the order in which it reaches them (R327, R328): a marked context is a member
of its own knot, and its edge is not followed (R329). `none` once 4,096 are reached. -/
def State.reach (s : State) (t : Nat) : Nat → List CtxId → List CtxId → Option (List CtxId)
  | 0, _, seen => some seen
  | _ + 1, [], seen => some seen
  | n + 1, c :: r, seen =>
    let new := if (s.ctx c).knot then [] else match s.probeEdge t c with
      | none => []
      | some e => e.succ.filter (fun d => !seen.any (fun x => decide (x = d)))
    if 4096 ≤ (seen ++ new).length then none else s.reach t n (r ++ new) (seen ++ new)

/-- What a probe reaches. -/
def State.reached (s : State) (p : Probe) : Option (List CtxId) := s.reach p.id 4097 [p.init] [p.init]

/-! ### The knot (R328) -/

/-- One removal pass: members whose rule fails against the set. -/
def State.knotPass (s : State) (t : Nat) (l : List CtxId) : List CtxId :=
  let inD (d : CtxId) : Bool := l.any (fun x => decide (x = d))
  l.filter (fun c => (s.ctx c).knot || (match s.probeEdge t c with
    | none => false
    | some e => match e.kind with
      | .any => !e.prog && e.succ.all inD
      | .all => e.succ.any inD
      | .single => e.succ.all inD))

/-- The largest set of R328 among the contexts reached. -/
def State.knotOf (s : State) (t : Nat) : Nat → List CtxId → List CtxId
  | 0, l => l
  | n + 1, l =>
    let l' := s.knotPass t l
    if l'.length = l.length then l else s.knotOf t n l'

/-- The edge of a context at the confirmation: that of a marked one counts whenever it blocked (R329). -/
def State.realEdge (s : State) (t : Nat) (c : CtxId) : Option Edge :=
  if (s.ctx c).knot then (if (s.ctx c).st = .blocked then s.edge c else none) else s.probeEdge t c

/-- What the edges lead to, those of marked contexts too. -/
def State.reachReal (s : State) (t : Nat) : Nat → List CtxId → List CtxId → Option (List CtxId)
  | 0, _, seen => some seen
  | _ + 1, [], seen => some seen
  | n + 1, c :: r, seen =>
    let new := match s.realEdge t c with
      | none => []
      | some e => e.succ.filter (fun d => !seen.any (fun x => decide (x = d)))
    if 4096 ≤ (seen ++ new).length then none else s.reachReal t n (r ++ new) (seen ++ new)

/-- One removal pass at the confirmation, in which a marked context has no exemption. -/
def State.realPass (s : State) (t : Nat) (l : List CtxId) : List CtxId :=
  let inD (d : CtxId) : Bool := l.any (fun x => decide (x = d))
  l.filter (fun c => match s.realEdge t c with
    | none => false
    | some e => match e.kind with
      | .any => !e.prog && e.succ.all inD
      | .all => e.succ.any inD
      | .single => e.succ.all inD)

/-- The contexts among some that nothing outside them can release (R329). -/
def State.realKnot (s : State) (t : Nat) : Nat → List CtxId → List CtxId
  | 0, l => l
  | n + 1, l =>
    let l' := s.realPass t l
    if l'.length = l.length then l else s.realKnot t n l'

/-- Whether a set is a real deadlock at the confirmation of a probe (R329): no process outside it releases a member, nor one
of an earlier knot that it leads to. -/
def State.confirmed (s : State) (p : Probe) (d : List CtxId) : Bool :=
  match s.reachReal p.id 4097 [p.init] [p.init] with
  | none => false
  | some l =>
    let k := s.realKnot p.id l.length l
    d.all (fun c => decide (c ∈ k))

/-- The candidates: blocked since the launch or before. -/
def State.suspects (s : State) (t : Nat) (l : List CtxId) : List CtxId :=
  l.filter (fun c => decide ((s.ctx c).st = .blocked) && ((s.ctx c).knot || (s.probeEdge t c).isSome))

/-- No process has started since the launch on a vtile that an OR edge of the knot names (R328). -/
def State.noStart (s : State) (t : Nat) (d : List CtxId) : Bool :=
  d.all (fun c => (match (if (s.ctx c).knot then s.edge c else s.probeEdge t c) with
    | some e => e.names.all (fun v => decide ((s.vtile v).lastStart ≤ t))
    | none => true))

/-- The ports on which a blocked context waits for something to arrive. -/
def Ctx.waitPorts (x : Ctx) : List Nat :=
  match x.wait with
  | some (.chs q) => [q]
  | some (.vsift q _ _ _ _) => [q]
  | some (.chr q _ _) => [q]
  | some (.chbs q _) => [q]
  | some (.chbr q _) => [q]
  | some (.alt _ ports guard) => altPorts ports guard
  | _ => []

/-- Whether something on its way releases a member of a knot (R329): an offer, a notice, an acknowledgement, an agreement or
a refusal for a port on which it waits. -/
def State.stirs (s : State) (d : List CtxId) : Bool :=
  s.flying.any (fun k => (match k.body with
    | .offer _ => true
    | .ready _ => true
    | .ack => true
    | .start _ => true
    | .refuse => true
    | _ => false) && d.any (fun c => decide (c.vt = k.dst.vt) && (s.ctx c).waitPorts.any (fun q => decide (q = k.dst.port)) &&
      (match (s.ctx c).wait, k.body with
        | some (.chs _), .ready _ => false
        | some (.vsift _ _ _ _ _), .ready _ => false
        | some (.chbs _ _), .ready _ => false
        | _, _ => true)))

/-- Whether a context that a probe has reached stands in a gang that is being saved: it is answered after the save (R332). -/
def State.saved? (s : State) (c : CtxId) : Bool :=
  match s.stopOf c.vt with
  | some h => !h.halted || decide (c.vt ∈ h.saved)
  | none => true

/-! ### Reports (R329, R330) -/

/-- A knot entry (R330). -/
def State.knotEntry (s : State) (c : CtxId) : Word :=
  let r := match s.edge c with
    | some e => e.reason
    | none => 0
  BitVec.ofNat 64 (r * 2 ^ 60 + (s.vtile c.vt).gang * 2 ^ 48 + 2 ^ 44 + c.slot * 2 ^ 40 + c.core * 2 ^ 32 +
    c.vt.col * 2 ^ 25 + c.vt.y * 2 ^ 16 + c.vt.x)

/-- The continuations of a report: three entries each. -/
def State.continuations (s : State) (m : Msg) (id : Word) : Nat → List Word → State
  | 0, _ => s
  | _ + 1, [] => s
  | n + 1, l =>
    let s := s.offer { m with raw := some (0, l.getD 0 0, id), w4 := l.getD 1 0, w5 := l.getD 2 0 }
    s.continuations m id n (l.drop 3)

/-- The report of a knot: the initiator first; every member is marked. -/
def State.report (s : State) (p : Probe) (d : List CtxId) : State :=
  let id := BitVec.ofNat 64 p.id
  let others := d.filter (fun c => decide (c ≠ p.init))
  let m : Msg := { s.msgOf p.init with cause := Cause.deadlock.code, kind := 1 }
  let n := (others.length + 2) / 3
  let s' := s.offer { m with
    raw := some (s.knotEntry p.init, (s.ctx p.init).pc, id)
    w4 := BitVec.ofNat 64 (d.length + n * 2 ^ 16), w5 := BitVec.ofNat 64 (s.ctx p.init).stamp }
  let s' := s'.continuations { m with ctx := none } id n (others.map s.knotEntry)
  d.foldl (fun (s : State) c => s.modCtx c (fun x => { x with knot := true })) s'

/-- The order of probes (R326). -/
def Probe.before (p q : Probe) : Bool :=
  decide (p.id < q.id) || (decide (p.id = q.id) && (decide (p.tile < q.tile) || (decide (p.tile = q.tile) &&
    decide (p.init.core * 4 + p.init.slot < q.init.core * 4 + q.init.slot))))

/-- Whether a probe is to be abandoned (R328, R329): it has reached too many contexts, or one that an earlier probe
reaches too. -/
def State.probeLost (s : State) (p : Probe) : Bool :=
  match s.reached p with
  | none => true
  | some l => s.probes.any (fun q => q.before p && (match s.reached q with
    | none => false
    | some m => l.any (fun c => m.any (fun d => decide (c = d)))))

/-- A probe is over, and its initiator's count restarts. -/
def State.endProbe (s : State) (p : Probe) : State :=
  { s with probes := s.probes.filter (fun q => decide (q ≠ p)) }.modCtx p.init
    (fun x => { x with probeLeft := x.probeDelay })

/-- PROBE_LAUNCH (R326): the count has reached `cprobe`; it restarts, and the NI launches a probe. One that its own
earlier probe would meet is abandoned at once (R329). -/
def execProbeLaunch (c : CtxId) (s : State) : Step :=
  .next (if !s.counts c ∨ (s.ctx c).probeLeft ≠ 0 then s
    else
      let s := s.modCtx c (fun x => { x with probeLeft := x.probeDelay })
      if s.probes.any (fun p => decide (p.init = c)) then s
      else { s with probes := s.probes ++ [⟨c, s.time, (s.vtile c.vt).ptile⟩] })

/-- PROBE_ABANDONED (R329): the later of two probes that meet, or one that has reached too many contexts. -/
def execProbeAbandoned (c : CtxId) (s : State) : Step :=
  match s.probes.find? (fun p => decide (p.init = c)) with
  | none => .next s
  | some p => .next (if s.probeLost p then s.endProbe p else s)

/-- DEADLOCK_REPORT (R328 to R330): the probe has come back. The report follows if the initiator is in the knot and the
confirmation holds. -/
def execDeadlockReport (c : CtxId) (s : State) : Step :=
  match s.probes.find? (fun p => decide (p.init = c)) with
  | none => .next s
  | some p =>
    .next (if s.probeLost p then s.endProbe p
      else match s.reached p with
        | none => s.endProbe p
        | some l =>
          if !l.all s.saved? then s else
          let d := s.knotOf p.id l.length (s.suspects p.id l)
          let ok := decide (c ∈ d) && !(s.ctx c).knot && s.noStart p.id d && !s.stirs d && s.confirmed p d
          let s' := { s with probes := s.probes.filter (fun q => decide (q ≠ p)) }
          if ok then s'.report p d else s')

end Sys2Proof.Machine
end

