-- ==== Sys2Proof/Machine/Place.lean ====
section
/-! DEFINITION. Gangs: the synchronised stop, the save, placement, restoration, retirement of tiles and the completion
of colonies (R15 to R18, R23, R27 to R29, R95 to R104, R323, R324, R350 to R353, R418). -/

namespace Sys2Proof.Machine

/-! ### What the host hears (R446, R449) -/

/-- An entry of a function's event ring; while the ring is full it is held (R449). -/
def State.hostEvent (s : State) (f : Nat) (ws : List Word) : State :=
  let x := AMap.get {} s.funcs f
  let y : Func := if x.evRing.length < 256 ∧ x.events = [] then
      { x with evRing := x.evRing ++ [ws], evWritten := (x.evWritten + 1) % 2 ^ 32
               evMem := NMap.set [] x.evMem (x.evWritten % 256) ws
               irqs := NMap.set 0 x.irqs 1 (NMap.get 0 x.irqs 1 + 1) }
    else { x with events := x.events ++ [ws] }
  { s with funcs := AMap.put s.funcs f y }

/-- A response in a function's response ring, which raises vector 0 (R446). -/
def State.respond (s : State) (f tag status : Nat) (ws : List Word) : State :=
  let x := AMap.get {} s.funcs f
  { s with funcs := AMap.put s.funcs f { x with
      resps := x.resps ++ [BitVec.ofNat 64 (status + tag * 256) :: ws]
      irqs := NMap.set 0 x.irqs 0 (NMap.get 0 x.irqs 0 + 1) } }

/-- The physical function. -/
def pf : Nat := 16

/-! ### Tiles -/

/-- Put an element before the first whose number is greater. -/
def insertBy {α : Type} (f : α → Nat) (a : α) : List α → List α
  | [] => [a]
  | b :: r => if f a < f b then a :: b :: r else b :: insertBy f a r

/-- A list in the order of a number. -/
def sortBy {α : Type} (f : α → Nat) (l : List α) : List α := l.foldl (fun r a => insertBy f a r) []

/-- Whether a request under way names a tile, its engine or the die of its engine: nothing is placed there before it ends
(R27, R295). -/
def State.inTransfer (s : State) (t : Nat) : Bool :=
  s.transfers.any (fun x => x.tiles.any (fun u => decide (u = t)) || x.engines.any (fun e => decide (e.1 = t)) ||
    ((s.tile t).engine.map (fun d => decide (d ∈ x.dies))).getD false)

/-- The tiles that a partition's gangs may be placed on now. -/
def State.freeTiles (s : State) (p : Nat) : List Nat :=
  (s.gangTiles p).filter (fun t => decide ((s.tile t).vtile = none) && !(s.tile t).testing && !s.inTransfer t)

/-- Whether a tile has a working wide core. -/
def State.tileWide (s : State) (t : Nat) : Bool := (s.tile t).wide.any (fun b => b)

/-- A placement of vtiles on tiles, one each, those that declare FP64 on tiles with a wide core (R23). -/
def State.assign (s : State) (vs : List VtId) (free : List Nat) : Option (List (VtId × Nat)) :=
  let wide := vs.filter (fun v => (s.vtile v).mask.getLsbD 0)
  let plain := vs.filter (fun v => !(s.vtile v).mask.getLsbD 0)
  let wt := (free.filter s.tileWide).take wide.length
  let rest := free.filter (fun t => !wt.any (fun u => decide (u = t)))
  if wt.length < wide.length ∨ rest.length < plain.length then none else some (wide.zip wt ++ plain.zip rest)

/-- The tiles that some gangs stand on. -/
def State.tilesOf (s : State) (gs : List GangId) : List Nat := (s.vtilesOf gs).map (fun v => (s.vtile v).ptile)

/-- A vtile leaves its tile, and the tile the tree of its colony (R414). -/
def State.vacate (s : State) (v : VtId) : State :=
  let t := (s.vtile v).ptile
  let s := s.modVt v (fun x => { x with res := false, issue := false })
  if (s.tile t).vtile = some v then (s.modTile t (fun x => { x with vtile := none })).leaveTrees t else s

/-! ### Messages about gangs -/

/-- tile-retired for a gang with its shortfall (R90, R104). -/
def State.retiredMsg (s : State) (p t : Nat) (g : GangId) (short : Nat) : State :=
  s.offer { part := p, col := g.col, gang := g.gang, cause := Cause.tileRetired.code, kind := 1
            short := decide (short ≠ 0), val := BitVec.ofNat 64 t, w4 := BitVec.ofNat 64 t
            w5 := BitVec.ofNat 64 (short % 65536), tile := t }

/-- save-timeout for a gang (R90, R101). -/
def State.timeoutMsg (s : State) (p t : Nat) (g : GangId) : State :=
  s.offer { part := p, col := g.col, gang := g.gang, cause := Cause.saveTimeout.code, kind := 1, lost := true
            val := BitVec.ofNat 64 t, w4 := BitVec.ofNat 64 t, tile := t }

/-! ### Asking for a stop -/

/-- Gangs begin to be stopped: the notice follows (R95). -/
def State.requestStop (s : State) (p : Nat) (gs : List GangId) (why : StopWhy) : State :=
  let gs := gs.filter (fun g => decide ((s.gang g).st = .resident) && !(s.gang g).stopping)
  if gs = [] then s
  else
    let s := gs.foldl (fun (s : State) g => s.modGang g (fun x => { x with stopping := true })) s
    { s with stops := s.stops ++ [{ part := p, gangs := gs, why := why }] }

/-- A placement that has not reached its start count is abandoned, and the unit returns to the head of its queue
(R29). -/
def State.abandonPlacing (s : State) (u : List GangId) : State :=
  match u with
  | [] => s
  | g :: _ =>
    let s := (s.vtilesOf u).foldl State.vacate s
    let s := u.foldl (fun (s : State) g => s.modGang g (fun x => { x with placing := false, start := none })) s
    if (s.part g.part).curcol = g.col then u.foldl (fun (s : State) g => s.modGang g (fun x => { x with st := .absent })) s
    else s.enqueue g.part (s.entryOf g) true

/-! ### Quiescence and completion (R16) -/

/-- Whether a vtile is quiescent. -/
def State.quietVt (s : State) (v : VtId) : Bool :=
  let x := s.vtile v
  (s.ctxsOf v).isEmpty && x.arrivals.isEmpty && x.spill.isEmpty &&
  s.cores.all (fun e => decide (e.1.vt ≠ v) || (e.2.copyQ.isEmpty && e.2.matQ.isEmpty))

/-- Whether traffic for some vtiles is parked. -/
def State.parkedFor (s : State) (p : Nat) (vs : List VtId) : Bool :=
  (s.part p).parkQ.any (fun k => vs.any (fun v => decide (k.dst.vt = v)))

/-- The vtiles of a colony. -/
def State.colonyVts (s : State) (p k : Nat) : List VtId :=
  (s.vtiles.filter (fun e => e.2.exist && decide (e.1.part = p) && decide (e.1.col = k))).map (·.1)

/-- Whether a colony is complete (R16): every vtile quiescent with its stores performed, and no packet of the colony
under way or parked. One with a lost gang is not: the gang can be restarted. -/
def State.complete? (s : State) (p k : Nat) : Bool :=
  let vs := s.colonyVts p k
  let of (v : VtId) : Bool := decide (v.part = p) && decide (v.col = k)
  (s.colony p k).live && !(s.gangsOf p k).any (fun g => decide ((s.gang g).st = .lost)) && vs.all s.quietVt && !s.parkedFor p vs &&
  !s.net.any (fun q => of q.src.vt || of q.dst.vt) &&
  !s.parts.any (fun e => e.2.parkQ.any (fun q => of q.src.vt)) &&
  !s.ends.any (fun e => of e.ctx.vt) && !(s.gangsOf p k).any (fun g => (s.gang g).stopping) &&
  s.ctxs.all (fun e => !of e.1.vt || e.2.posted.isEmpty) &&
  s.cores.all (fun e => !of e.1.vt || (e.2.through.isEmpty && e.2.dirtyLines.isEmpty)) &&
  !s.tiles.any (fun e => e.2.saveBuf.any (fun q => of q.dst.vt))

/-- A colony is gone: its vtiles, gangs, queue entries and tree channel. -/
def State.dropColony (s : State) (p k : Nat) : State :=
  let vs := s.colonyVts p k
  let s := (vs.foldl (fun (s : State) v => (s.vacate v).wipeVt v) s).forgetVts vs
  let of (v : VtId) : Bool := decide (v.part = p) && decide (v.col = k)
  let s := { s with
    vtiles := s.vtiles.filter (fun e => !of e.1)
    gangs := s.gangs.filter (fun e => decide (e.1.part ≠ p) || decide (e.1.col ≠ k))
    net := s.net.filter (fun q => !of q.dst.vt), tiles := s.tiles.map (fun (e : Nat × Tile) =>
      (e.1, { e.2 with saveBuf := e.2.saveBuf.filter (fun q => !of q.dst.vt) }))
    treeWait := s.treeWait.filter (fun w => decide (w ≠ (p, k)))
    colonies := AMap.del s.colonies (p, k) }
  s.modPart p (fun q => { q with
    runq := q.runq.filter (fun e => decide (e.1 ≠ k)), parkQ := q.parkQ.filter (fun x => !of x.dst.vt)
    heldSummons := q.heldSummons.filter (fun g => decide (g.col ≠ k))
    quotaQ := q.quotaQ.filter (fun c => !of c.vt)
    launched := q.launched.filter (fun x => decide (x ≠ k)) })

/-- The completion of a colony is reported (R16, R449). -/
def State.endColony (s : State) (p k : Nat) : State :=
  let s := s.dropColony p k
  s.hostEvent p [1, BitVec.ofNat 64 k, BitVec.ofNat 64 s.time]

/-! ### Tree channels (R418) -/

/-- The lowest free tree channel. -/
def State.freeTree (s : State) : Option Nat :=
  firstFrom (fun n => !s.colonies.any (fun e => decide (e.2.tree = some n))) 32 0

/-- A colony waits for a tree channel: its curator and the host are told. -/
def State.waitTree (s : State) (p k : Nat) : State :=
  let s := s.offer { part := p, col := k, kind := 3, w4 := 6 }
  let s := s.hostEvent p [7, 6]
  { s with treeWait := s.treeWait ++ [(p, k)] }

/-- TREE_CHANNEL_ASSIGNED (R418): a free channel goes to the colony that began to wait earliest, which returns to the
head of its partition's run queue. -/
def execTreeChannelAssigned (s : State) : Step :=
  match s.treeWait, s.freeTree with
  | (p, k) :: r, some n =>
    let s := { s with treeWait := r }.modColony p k (fun c => { c with tree := some n })
    .next (if (s.part p).curcol = k then (s.colonyVts p k).foldl State.joinTree s else s.enqueue p (k, none) true)
  | _, _ => .next s

/-! ### The stop (R95 to R97) -/

/-- The stop that a gang is in. -/
def State.haltOf (s : State) (g : GangId) : Option Halt := s.stops.find? (fun h => h.gangs.any (fun x => decide (x = g)))

/-- Change the stop that a gang is in. -/
def State.modHalt (s : State) (g : GangId) (f : Halt → Halt) : State :=
  { s with stops := updFirst (fun h => h.gangs.any (fun x => decide (x = g))) f s.stops }

/-- STOP_NOTICE (R95): the notice carries T to every tile of the set; sleeping quads wake (R441). A tile that
acknowledged the notice before has missed none in a row. -/
def execStopNotice (g : GangId) (t : Nat) (s : State) : Step :=
  match s.haltOf g with
  | none => .next s
  | some h =>
    if h.t.isSome ∨ t < s.time + 4096 then .next s
    else
      let vs := (s.vtilesOf h.gangs).map (fun v => (v, (s.vtile v).ptile))
      let s := s.modHalt g (fun h => { h with
        t := some t, tiles := vs, missed := [], misses := NMap.keep h.misses (fun n => NSet.mem h.missed n) })
      .next (vs.foldl (fun s (_, n) => (List.range 12).foldl (fun s q => s.wakeQuad ⟨n, q⟩) s) s)

/-- A tile cannot finish its part: it is declared faulty and tested, and its gangs are lost (R101). -/
def State.missSave (s : State) (h : Halt) (g : GangId) (v : VtId) (t : Nat) : State :=
  let s := (s.modTile t (fun x => { x with testing := true })).startTest t .core
  let lost := s.gangOf v
  let s := s.modHalt g (fun h => { h with late := NSet.ins h.late t })
  let s := s.timeoutMsg h.part t lost
  s.modGang lost (fun x => { x with st := .lost })

/-- STOP_ACK_DEADLINE (R95): a tile has not acknowledged before T − 1,024. The notice is withdrawn, and every tile that
missed it counts; the third in a row counts as a missed save. -/
def execStopAckDeadline (g : GangId) (tile : Nat) (s : State) : Step :=
  match s.haltOf g with
  | none => .next s
  | some h =>
    let due : Bool := match h.t with
      | some t => !h.halted && decide (t ≤ s.time + 1024)
      | none => !h.missed.isEmpty
    match h.tiles.find? (fun e => decide (e.2 = tile)) with
    | some (v, _) =>
      if !due ∨ NSet.mem h.late tile ∨ NSet.mem h.missed tile then .next s
      else
        let n := NMap.get 0 h.misses tile + 1
        let s := s.modHalt g (fun h => { h with misses := NMap.set 0 h.misses tile n, missed := NSet.ins h.missed tile })
        .next (if n < 3 then s.modHalt g (fun h => { h with t := none }) else s.missSave h g v tile)
    | none => .next s

/-- The packets under way to the set are held by the routers at which they are at T (R97); one that waits at its source NI
has not been injected. -/
def State.holdPackets (s : State) (vs : List (VtId × Nat)) : State :=
  { s with net := s.net.map (fun k =>
      if !k.waits && k.router.isNone && vs.any (fun e => decide (e.1 = k.dst.vt)) then
        { k with router := some (Config.routerOf (s.vtile k.src.vt).ptile k.tile s.time % s.form.tiles) } else k) }

/-- Each router diverts the packets that it holds into its save buffer, of 256 packets (R97); the others wait. -/
def State.divert (s : State) : State :=
  s.net.foldl (fun (s : State) k =>
    match k.router with
    | none => s
    | some r =>
      if 256 ≤ (s.tile r).saveBuf.length then s
      else (s.dropPacket k).modTile r (fun x => { x with saveBuf := x.saveBuf ++ [k] })) s

/-! ### A thermal migration that ends (R25, R235, R267, R280, R380) -/

/-- The logical core of a vtile that stands on a physical core. -/
def State.lcAt (s : State) (v : VtId) (pc : Nat) : Nat :=
  ((List.range 48).find? (fun k => decide ((s.vtile v).lpct.getD k k = pc))).getD pc

/-- A core's caches are empty after a migration (R267, R371): what fills had brought before it is read anew. -/
def State.emptyCache (s : State) (k : CoreId) : State :=
  s.modCore k (fun x => { x with cache := [], tlb := [], stale := s.fillsAt k, moving := false })

/-- What a core has stored and not yet written home is written there at once. -/
def State.flushHome (s : State) (k : CoreId) : State :=
  let x := (s.core k).throughAll
  x.through.foldl (fun (s : State) t =>
    (if s.cleared (t.line / 1024) then s.zeroGranule (t.line / 1024) else s).writeLine t)
    (s.putCore k { x with through := [] })

/-- The spare rows of one core's stores serve at another's (R235). -/
def Tile.moveSpares (t : Tile) (src dst : Nat) : Tile :=
  let put (m : NMap Nat) (f : Nat → Nat) : NMap Nat := NMap.set 0 m (f dst) (NMap.get 0 t.spares (f src))
  { t with spares := put (put t.spares istoreArray) combArray }

/-- The end of a migration (R25, R235, R267, R280, R380): the table entries swap, the stores have moved with their spare
rows, the caches of both cores are empty, monitors are armed again and the curator is told. -/
def State.moveCore (s : State) (m : Thermal) : State :=
  let t := (s.vtile m.vt).ptile
  let k : CoreId := ⟨m.vt, m.core⟩
  let l : CoreId := ⟨m.vt, s.lcAt m.vt m.dst⟩
  let s := s.modVt m.vt (fun v => { v with lpct := (v.lpct.set m.core m.dst).set l.core m.src })
  let s := ((s.emptyCache k).emptyCache l).modTile t (fun x => x.moveSpares m.src m.dst)
  let s := k.slots.foldl State.rearm s
  let s := { s with thermals := s.thermals.filter (fun x => decide (x ≠ m)) }
  s.offer { part := m.vt.part, col := m.vt.col, gang := (s.vtile m.vt).gang, vt := some m.vt
            cause := Cause.thermalMigrated.code, kind := 2, val := BitVec.ofNat 64 m.core
            w4 := BitVec.ofNat 64 m.src, w5 := BitVec.ofNat 64 m.dst, tile := t }

/-- A migration that runs when T is reached has completed before it (R25). -/
def State.endThermal (s : State) (m : Thermal) : State :=
  ((s.flushHome ⟨m.vt, m.core⟩).flushHome ⟨m.vt, s.lcAt m.vt m.dst⟩).moveCore m

/-! ### The stop count -/

/-- The walks of a stopping vtile are abandoned: the accesses are made again after the restore (R372). -/
def State.dropWalks (s : State) (v : VtId) : State :=
  let s := ((s.vtile v).misses.filter (fun m => m.ofCtx m.ctx)).foldl (fun (s : State) m => s.modCtx m.ctx (fun x =>
    match x.prog.need with
    | .walk _ => { x with prog := {} }
    | _ => x)) s
  s.modVt v (fun x => { x with misses := [] })

/-- STOP_COUNT (R96, R97): at T every tile of the set stops issue, its vtiles are absent for the network, and what was
begun settles. A thermal migration that runs has completed before T (R25). -/
def execStopCount (g : GangId) (s : State) : Step :=
  match s.haltOf g with
  | none => .next s
  | some h =>
    match h.t with
    | none => .next s
    | some t =>
      if h.halted ∨ s.time < t then .next s
      else
        let vs := h.tiles.map (·.1)
        let s := s.forgetVts vs
        let mine (v : VtId) : Bool := vs.any (fun w => decide (w = v))
        let s := (s.thermals.filter (fun m => mine m.vt)).foldl State.endThermal s
        let s := vs.foldl (fun (s : State) v => s.modVt v (fun x => { x with res := false, issue := false })) s
        let s := { s with probes := s.probes.filter (fun p => !mine p.init.vt) }
        let ks := (s.cores.filter (fun e => mine e.1.vt)).map (·.1)
        let s := ks.foldl (fun (s : State) k => (s.leaveDie k).beginThrough k) s
        let s := ((vs.foldl State.dropWalks s).holdPackets h.tiles).divert
        .next (s.modHalt g (fun h => { h with halted := true }))

/-- Whether a packet is for the set of a stop. -/
def Halt.mine (h : Halt) (k : Packet) : Bool := h.tiles.any (fun e => decide (e.1 = k.dst.vt))

/-- FLUSH_TOKEN_ARRIVAL (R97): a flush token reaches a router, which is swept once one has come on every input and it
has diverted what it holds for the set. -/
def execFlushTokenArrival (g : GangId) (r : Nat) (s : State) : Step :=
  match s.haltOf g with
  | none => .next s
  | some h =>
    if !h.halted ∨ s.form.tiles ≤ r then .next s
    else
      let n := min (NMap.get 0 h.tokens r + 1) (Config.routerInputs r)
      let s := s.divert
      let clear := !s.net.any (fun k => h.mine k && decide (k.router = some r))
      .next (s.modHalt g (fun h => { h with
        tokens := NMap.set 0 h.tokens r n
        swept := if n = Config.routerInputs r ∧ clear then NSet.ins h.swept r else h.swept }))

/-- SAVE_BUFFER_DRAIN (R97, R323, R325): the first packet of a router's save buffer goes to the park queue, whose reserve
takes it; where the buffer has lost a word of it, it arrives poisoned. -/
def execSaveBufferDrain (g : GangId) (d : Drain) (s : State) : Step :=
  match s.haltOf g with
  | none => .next s
  | some h =>
    match (s.tile d.router).saveBuf with
    | [] => .next s
    | k :: rest =>
      let k := { k with poison := k.poison || d.lost, router := none }
      let tell := match k.body with
        | .forager _ t => t
        | _ => none
      let s' := s.modTile d.router (fun x => { x with saveBuf := rest })
      .next (if !h.halted then s
        else match k.body with
          | .forager _ _ => (s'.parkForager k tell).divert
          | _ => (s'.parkPacket k).divert)

/-! ### The save (R98, R101) -/

/-- Whether the flush of a stop has ended (R97). -/
def State.flushed (s : State) (h : Halt) : Bool :=
  decide (h.swept.length = s.form.tiles) && !s.net.any (fun k => h.mine k && !k.waits) &&
  !s.tiles.any (fun e => e.2.saveBuf.any h.mine)

/-- Whether a context has nothing of its instruction under way (R96), a `tlbi` included (R371); a remote table operation may
wait (R386), and one that waits for the line it stands in has not issued. -/
def Ctx.still (x : Ctx) : Bool :=
  x.posted.isEmpty && x.moveTo.isNone && (match x.wait with
    | some (.tlbi _ _ _) => false
    | _ => true) &&
  (!x.going || decide (x.prog.need = .remote) || decide (x.prog.need = .matrix))

/-- Whether R96 has settled on a vtile. -/
def State.settledVt (s : State) (v : VtId) : Bool :=
  s.ctxs.all (fun e => decide (e.1.vt ≠ v) || e.2.still) &&
  s.cores.all (fun e => decide (e.1.vt ≠ v) ||
    (e.2.through.isEmpty && e.2.dirtyLines.isEmpty && !e.2.moving &&
     (decide (e.2.matPhase = .enqueued) || decide (e.2.matPhase = .fetch))))

/-- What a saved vtile loses: caches, translations, those of its tile's NI too, lines (R96, R98, R374). -/
def State.coldVt (s : State) (v : VtId) : State :=
  let s := (s.modVt v (fun x => { x with tlb := [], ptrs := [], misses := [] })).modTile (s.vtile v).ptile (fun x => { x with ni := [] })
  { s with
    cores := s.cores.map (fun e => if e.1.vt = v then (e.1, { e.2 with cache := [], tlb := [], stale := [], lastIssue := none }) else e)
    ctxs := s.ctxs.map (fun e => if e.1.vt = v then (e.1, { e.2 with
        line := none, yielded := none
        prog := if e.2.prog.need = .matrix ∨ e.2.prog.entry then {} else e.2.prog }) else e) }

/-- TILE_CONTEXT_SAVE (R98): once R96 has settled and the flush has ended, the tile's copy engines begin to write its
context. -/
def execTileContextSave (v : VtId) (s : State) : Step :=
  match s.stopOf v with
  | none => .next s
  | some h =>
    let ks := (s.cores.filter (fun e => decide (e.1.vt = v))).map (·.1)
    if !h.halted ∨ v ∈ h.saving ∨ !h.tiles.any (fun e => decide (e.1 = v)) then .next s
    else
      let s := ks.foldl State.beginThrough s
      .next (if s.settledVt v && s.flushed h then
        (s.coldVt v).modHalt (s.gangOf v) (fun h => { h with saving := h.saving ++ [v] })
      else s)

/-- A lost vtile is wiped; its foragers no longer count, and a spawn that waits for the quota is admitted for each (R101,
R320). -/
def State.loseVt (s : State) (v : VtId) : State :=
  let x := s.vtile v
  let n := ((s.ctxsOf v).filter (fun c => decide ((s.ctx c).origin ≠ .launch))).length + x.arrivals.length + x.spill.length
  let s := (s.modVt v (fun x => { x with arrivals := [], spill := [] })).modPart v.part (fun q => { q with
    fcount := q.fcount - n, quotaQ := q.quotaQ.filter (fun c => decide (c.vt ≠ v)) })
  let s := s.wipeVt v
  (List.range n).foldl (fun (s : State) _ => s.admitSpawn v.part) s

/-- A gang's stop is over (R28, R101, R350, R352). A co-resident colony with a lost gang cannot be placed whole: its other
gangs stay absent until that gang is restarted (R351); a gang that no longer fits becomes absent, and its return waits
as a held summons does (R28, R352). -/
def State.afterStop (s : State) (h : Halt) (g : GangId) : State :=
  let x := s.gang g
  let s := s.modGang g (fun x => { x with stopping := false, placing := false, start := none, expired := false })
  let s := (s.vtilesOf [g]).foldl State.vacate s
  let e := s.entryOf g
  let curator := decide ((s.part g.part).curcol = g.col)
  if x.st = .lost then (s.vtilesOf [g]).foldl State.loseVt s
  else
    let s := s.modGang g (fun x => { x with st := .absent })
    if curator ∨ (s.unitOf g).any (fun j => decide ((s.gang j).st = .lost)) then s
    else if s.shortfall g.part (s.unitOf g) ≠ 0 then s.modGang g (fun x => { x with summoned := true })
    else if g ∈ h.heads ∧ h.why ≠ .free then s.enqueue g.part e true
    else match h.why with
      | .quiescent => if x.summoned then s.enqueue g.part e false else s
      | .retired => s.enqueue g.part e true
      | .curator => s.enqueue g.part e true
      | .free => s
      | .quantum => s.enqueue g.part e false
      | .preempt => s.enqueue g.part e false
      | .repartition => s.enqueue g.part e false

/-- The stop ends when every tile's part is done or was missed (R98, R101). -/
def State.endStop (s : State) (g : GangId) : State :=
  match s.haltOf g with
  | none => s
  | some h =>
    if h.tiles.all (fun (v, t) => decide (v ∈ h.saved) || NSet.mem h.late t) then
      h.gangs.foldl (fun (s : State) g => s.afterStop h g)
        { s with stops := s.stops.filter (fun x => decide (x.gangs ≠ h.gangs)) }
    else s

/-- The bytes of a tile context that are charged as written (R98, R428): its quad memories and instruction stores. -/
def contextBytes : Nat := 12 * 2 ^ 20 + 48 * 2 ^ 16

/-- TILE_SAVE_DONE (R98): the last write of a tile's save lands. -/
def execTileSaveDone (v : VtId) (s : State) : Step :=
  match s.stopOf v with
  | none => .next s
  | some h =>
    .next (if v ∈ h.saving ∧ v ∉ h.saved then
      ((s.modHalt (s.gangOf v) (fun h => { h with saved := h.saved ++ [v] })).sysWrite v.part contextBytes).endStop (s.gangOf v)
    else s)

/-- SAVE_TIMEOUT (R101): measured from T; every tile that has not finished its part is declared faulty, and its gang is
lost. -/
def execSaveTimeout (g : GangId) (s : State) : Step :=
  match s.haltOf g with
  | none => .next s
  | some h =>
    match h.t with
    | none => .next s
    | some t =>
      if !h.halted ∨ s.time < t + (s.part h.part).saveto * 600 then .next s
      else
        let late := h.tiles.filter (fun (v, n) => !decide (v ∈ h.saved) && !NSet.mem h.late n)
        .next ((late.foldl (fun s (v, n) => s.missSave h g v n) s).endStop g)

/-! ### Retirement of a tile (R18, R28, R29, R104) -/

/-- The units of a partition that are short of tiles. -/
def State.shortGangs (s : State) (p : Nat) : List GangId :=
  (s.gangs.filter (fun e => decide (e.1.part = p) && decide ((s.part p).curcol ≠ e.1.col) &&
    decide (s.shortfall p (s.unitOf e.1) ≠ 0))).map (·.1)

/-- A queued unit that no longer fits leaves the queue (R28, R352). It returns when the partition's tiles for gangs have grown
to fit it, with no summons given since, as one whose summons is held does (the model's choice, log entry 108). -/
def State.unqueue (s : State) (g : GangId) : State :=
  let e := s.entryOf g
  let queued := (s.part g.part).runq.any (fun x => decide (x = e))
  let s := s.modPart g.part (fun q => { q with runq := q.runq.filter (fun x => decide (x ≠ e)) })
  if queued then
    (s.entryGangs g.part e).foldl (fun (s : State) j => s.modGang j (fun x => { x with st := .absent, summoned := true })) s
  else s

/-- The gangs that no longer fit, and did before, leave the queue, and the curator hears of the shortfall of each (R28,
R104, R352): t is the tile that the partition's gangs have lost. -/
def State.tellShort (s : State) (p t : Nat) (before : List GangId) : State :=
  let short := (s.shortGangs p).filter (fun g => !before.any (fun b => decide (b = g)))
  let s := short.foldl State.unqueue s
  short.foldl (fun (s : State) g => s.retiredMsg p t g (s.shortfall p (s.unitOf g))) s

/-- No core of a vtile is being moved by a thermal migration any more. -/
def State.endMoving (s : State) (v : VtId) : State :=
  { s with cores := s.cores.map (fun e => if e.1.vt = v then (e.1, { e.2 with moving := false }) else e) }

/-- A tile leaves the pool for good (R28, R29, R104): its mask bits are set, unless its latch has still to count (R414, R420);
the gang on it is stopped, or goes to the head of its queue after the stop that is under way. The message of a tile without a gang carries the curator colony (the model's choice, log entry 75). -/
def State.retireTile (s : State) (t : Nat) : State :=
  let x := s.tile t
  if x.retired then s
  else
    let before := match x.owner with
      | some p => s.shortGangs p
      | none => []
    let s := s.modTile t (fun y => { y with retired := true, testing := false })
    let s := if x.latch then s else x.unmasked.foldl (fun (s : State) ch => s.maskTile t ch) s
    let s := { s with tests := s.tests.filter (fun u => decide (u.tile ≠ t)) }
    let moving := s.thermals.filter (fun m => decide ((s.vtile m.vt).ptile = t))
    let s := moving.foldl (fun (s : State) m => s.endMoving m.vt)
      { s with thermals := s.thermals.filter (fun m => decide ((s.vtile m.vt).ptile ≠ t)) }
    let s := s.hostEvent pf [4, BitVec.ofNat 64 t]
    match x.owner with
    | none => s
    | some p =>
      let s := s.hostEvent p [4, BitVec.ofNat 64 t]
      let here := (x.vtile.map s.gangOf).toList
      let s := here.foldl (fun (s : State) g =>
        let u := s.unitOf g
        if (s.gang g).placing then s.abandonPlacing u
        else if (s.gang g).stopping then s.modHalt g (fun h => { h with heads := h.heads ++ u })
        else s.requestStop p u .retired) s
      let news := (s.shortGangs p).filter (fun g => !before.any (fun b => decide (b = g)))
      let s := here.foldl (fun (s : State) g => s.retiredMsg p t g (s.shortfall p (s.unitOf g))) s
      let s := (here.filter (fun g => decide (g ∈ news))).foldl State.unqueue s
      let s := if here = [] then s.retiredMsg p t ⟨p, (s.part p).curcol, 0⟩ 0 else s
      s.tellShort p t (before ++ here)

/-- Held summonses are acted on once the partition's tiles suffice (R352). -/
def State.retrySummons (s : State) (p : Nat) : State :=
  s.gangs.foldl (fun (s : State) e =>
    let g := e.1
    let u := s.unitOf g
    if g.part = p ∧ (s.gang g).st = .absent ∧ (s.gang g).summoned ∧ !(s.gang g).stopping ∧ s.shortfall p u = 0 ∧
       !u.any (fun j => decide ((s.gang j).st = .lost)) ∧ !s.treeWait.any (fun w => decide (w = (p, g.col))) then
      s.enqueue p (s.entryOf g) false
    else s) s

/-! ### Placement and restoration (R20, R23, R100, R324) -/

/-- A vtile is put on a tile: its LPCT is the identity, its caches are empty, its monitors are armed again (R280), and
its migrating contexts stand before their wide opcodes (R26, R29). -/
def State.placeVt (s : State) (v : VtId) (t : Nat) : State :=
  let s := s.modTile t (fun x => { x with
    vtile := some v
    quads := x.quads.map (fun e => (e.1, { e.2 with power := .awake, idle := 0, wake := 0 })) })
  let s := ((s.modVt v (fun x => { x with ptile := t, lpct := List.range 48, migs := [] })).coldVt v).joinTree v
  (s.ctxsOf v).foldl (fun (s : State) c =>
    (s.modCtx c (fun x => if x.st = .migrating then { x with st := .ready, prog := {} } else x)).rearm c) s

/-- A unit is placed on tiles, to start at a count (R23, R100): the context of each vtile is read from its save area (R428). -/
def State.placeUnit (s : State) (u : List GangId) (l : List (VtId × Nat)) (start : Nat) : State :=
  let s := l.foldl (fun s (v, t) => (s.placeVt v t).sysRead v.part contextBytes) s
  u.foldl (fun (s : State) g => s.modGang g (fun x => { x with st := .queued, placing := true, start := some start })) s

/-- GANG_PLACEMENT (R15, R23, R352, R418): the scheduler places the head of a partition's run queue, if it fits, with
the start count given, before which there is a cycle in which RES is set (R377). A head that can never fit leaves the queue (the retirement has reported it, R104), and so does one
that must wait for a channel. -/
def execGangPlacement (p start : Nat) (s : State) : Step :=
  let q := s.part p
  match q.runq with
  | [] => .next s
  | e :: _ =>
    let u := s.entryGangs p e
    let g := u.headD ⟨p, e.1, 0⟩
    let c := s.colony p e.1
    let out (s : State) : State := s.modPart p (fun q => { q with runq := q.runq.drop 1 })
    if q.state ≠ 1 ∨ start < s.time + 2 then .next s
    else if s.shortfall p u ≠ 0 then .next (u.foldl State.unqueue s)
    else if c.cores ∧ c.tree = none then
      .next (match (if s.treeWait = [] then s.freeTree else none) with
        | some n => s.modColony p e.1 (fun c => { c with tree := some n })
        | none =>
          let s := u.foldl (fun (s : State) g => s.modGang g (fun x => { x with st := .absent })) (out s)
          s.waitTree p e.1)
    else match s.assign (s.vtilesOf u) (s.freeTiles p) with
      | none => .next s
      | some l => .next ((out s).placeUnit (s.unitOf g) l start)

/-- One parked packet is delivered (R324): `none` where a forager finds no room. -/
def State.deliver (s : State) (k : Packet) : Option State :=
  let p := k.dst.vt.part
  let out (s : State) : State := s.modPart p (fun q => { q with parkQ := dropFirst (fun x => decide (x = k)) q.parkQ })
  match k.body with
  | .forager f tell =>
    ((s.vtile k.dst.vt).accept { f with poison := f.poison || k.poison }).map (fun x =>
      let s := ((out s).putVt k.dst.vt x).sysRead p 128
      let s := if x.spill = [] then s else s.sysWrite p 128
      match k.ctx with
      | some c => s.answerSpawn c tell 0
      | none => s)
  | _ => some (arriveAtPort k ((out s).sysRead p 128))

/-- The parked packets for some vtiles are delivered in park order; a forager without room keeps its place, and so do
those behind it. -/
def State.deliverParked (s : State) (p : Nat) (vs : List VtId) : State :=
  ((s.part p).parkQ.foldl (fun (acc : State × List VtId) k =>
    let (s, full) := acc
    let v := k.dst.vt
    if !vs.any (fun w => decide (w = v)) ∨ (k.traffic = some 2 ∧ full.any (fun w => decide (w = v))) then (s, full)
    else match s.deliver k with
      | some s => (s, full)
      | none => (s, v :: full)) (s, [])).1

/-- A transform command whose tile has no engine after a restore is held (R94, R295). -/
def State.holdEngineless (s : State) (v : VtId) : State :=
  ((s.cores.filter (fun e => decide (e.1.vt = v))).map (·.1)).foldl (fun (s : State) k =>
    let x := s.core k
    match x.copyQ with
    | [] => s
    | q :: _ =>
      if 2 ≤ cpMode q.mode ∧ x.copyPhase = .fetch ∧ !x.copyHeld ∧ s.engineOf v = none then
        s.holdCopy k q ⟨.engineAbsent, BitVec.ofNat 64 (cpMode q.mode), 0, 0⟩
      else s) s

/-- GANG_START_COUNT (R100, R324, R350, R377, R379): in the cycle before the start count RES is set, every NI forgets the
unit's vtiles and its parked traffic is delivered; at the count every tile of it issues again. -/
def execGangStartCount (g : GangId) (s : State) : Step :=
  let x := s.gang g
  let u := s.unitOf g
  let vs := s.vtilesOf u
  .next (if !x.placing ∨ s.time + 1 < x.start.getD 0 then s
    else
      let s := vs.foldl (fun (s : State) v => s.modVt v (fun y => { y with res := true })) s
      let s := (s.forgetVts vs).deliverParked g.part vs
      if s.time < x.start.getD 0 then s
      else
      let s := vs.foldl (fun (s : State) v => s.modVt v (fun y => { y with issue := true })) s
      let s := vs.foldl State.holdEngineless s
      u.foldl (fun (s : State) g => s.modGang g (fun x => { x with
        st := .resident, placing := false, start := none, since := s.time, expired := false, summoned := false })) s)

/-! ### Swapping out (R352) -/

/-- Whether every vtile of a unit is quiescent, with nothing parked for it. -/
def State.quietUnit (s : State) (p : Nat) (u : List GangId) : Bool :=
  let vs := s.vtilesOf u
  vs.all s.quietVt && !s.parkedFor p vs

/-- The units of a partition that may be swapped out, longest-resident first: those of one class. -/
def State.swapClass (s : State) (p : Nat) (quiet : Bool) : List (List GangId) :=
  let gs := (s.gangs.filter (fun e => decide (e.1.part = p) && decide ((s.part p).curcol ≠ e.1.col) &&
    decide (e.2.st = .resident) && !e.2.stopping)).map (fun e =>
      (e.2.since, s.unitOf e.1, decide (e.2.since + (s.part p).quantum * 600000 ≤ s.time)))
  let us := (gs.filter (fun e => if quiet then s.quietUnit p e.2.1 else e.2.2 && !s.quietUnit p e.2.1)).map
    (fun e => (e.1, e.2.1))
  ((sortBy (·.1) us.dedup).map (·.2)).dedup

/-- The resident units of a partition, longest-resident first. -/
def State.resident (s : State) (p : Nat) : List (List GangId) :=
  let gs := s.gangs.filter (fun e => decide (e.1.part = p) && decide ((s.part p).curcol ≠ e.1.col) &&
    decide (e.2.st = .resident) && !e.2.stopping)
  ((sortBy (·.2.since) gs).map (fun e => s.unitOf e.1)).dedup

/-- Take units until the head fits: those taken, with the tiles they add. -/
def State.takeUnits (s : State) (head : List VtId) : List (List GangId × StopWhy) → List Nat →
    List (List GangId × StopWhy) → Option (List (List GangId × StopWhy))
  | l, free, taken =>
    if (s.assign head free).isSome then some taken
    else match l with
      | [] => none
      | (u, w) :: r =>
        s.takeUnits head r (free ++ (s.tilesOf u).filter (fun t => !(s.tile t).retired)) (taken ++ [(u, w)])

/-- SWAP_OUT (R352): when the head of a partition's queue does not fit, resident gangs are stopped to make room, if
that can make enough. -/
def State.swapOut (s : State) (p : Nat) : State :=
  let q := s.part p
  match q.runq with
  | [] => s
  | e :: _ =>
    let u := s.entryGangs p e
    let c := s.colony p e.1
    if q.state ≠ 1 ∨ s.shortfall p u ≠ 0 ∨ (c.cores ∧ c.tree = none) then s
    else
      let leaving := (s.stops.filter (fun h => decide (h.part = p))).flatMap (·.gangs)
      let free := s.freeTiles p ++ (s.tilesOf leaving).filter (fun t => !(s.tile t).retired)
      let cands := (s.swapClass p true).map (fun u => (u, StopWhy.quiescent)) ++
        (s.swapClass p false).map (fun u => (u, StopWhy.quantum))
      match s.takeUnits (s.vtilesOf u) cands free [] with
      | none => s
      | some l => l.foldl (fun s (u, w) => s.requestStop p u w) s

/-- QUANTUM_EXPIRY (R352): a resident gang has been resident for a quantum. -/
def execQuantumExpiry (g : GangId) (s : State) : Step :=
  let x := s.gang g
  .next (if x.st = .resident ∧ x.since + (s.part g.part).quantum * 600000 ≤ s.time then
      (s.modGang g (fun x => { x with expired := true })).swapOut g.part
    else s)

/-! ### The curator colony (R18) -/

/-- The tiles among some free ones that close a curator colony's gap, as far as they go: for the vtiles that declare FP64
tiles with a wide core (R3, R18). -/
def State.gapTiles (s : State) (vs : List VtId) (named free : List Nat) : List Nat :=
  let wide := (vs.filter (fun v => (s.vtile v).mask.getLsbD 0)).length - (named.filter s.tileWide).length
  let w := (free.filter s.tileWide).take wide
  w ++ (free.filter (fun t => !w.any (fun u => decide (u = t)))).take (vs.length - (named.length + wide))

/-- Replacements enter the partition table in place of the curator tiles that have retired; the gangs that no longer fit
are told of (R18, R28). -/
def State.nameTiles (s : State) (p : Nat) (ts : List Nat) : State :=
  let before := s.shortGangs p
  let gone := (s.part p).curTiles.find? (fun t => (s.tile t).retired)
  let s := s.modPart p (fun q => { q with curTiles := q.curTiles.filter (fun t => !(s.tile t).retired) ++ ts })
  s.tellShort p (gone.getD (ts.headD 0)) before

/-- The curator colony of a running partition that stands on no tile is placed: on its named tiles, once they are free
and tested, or else on replacements, for which the longest-resident gang that holds a tile that serves makes room. Where
no tile of the partition can serve it stays absent (R18). R18 names a replacement for a retired tile; one that a REPARTITION
takes away is replaced in the same way (the model's choice, log entry 105). -/
def State.placeCurator (s : State) (p : Nat) : State :=
  let q := s.part p
  let u := s.gangsOf p q.curcol
  let vs := s.vtilesOf u
  if !q.valid ∨ q.state ≠ 1 ∨ !(s.colony p q.curcol).live ∨
     !u.all (fun g => decide ((s.gang g).st = .absent) && !(s.gang g).stopping) ∨ vs = [] then s
  else
    let named := q.curTiles.filter (fun t => (s.tile t).working && !(s.tile t).retired &&
      decide ((s.tile t).owner = some p) && !s.transfers.any (fun x => x.tiles.any (fun u => decide (u = t))))
    match s.assign vs (named.filter (fun t => !(s.tile t).testing && decide ((s.tile t).vtile = none) && !s.inTransfer t)) with
    | some l => s.placeUnit u l (s.time + 2)
    | none =>
      if (s.assign vs named).isSome ∨ (s.assign vs (named ++ s.gangTiles p)).isNone then s
      else match s.gapTiles vs named (s.freeTiles p) with
        | t :: r => s.nameTiles p (t :: r)
        | [] =>
          if s.stops.any (fun h => decide (h.part = p)) then s
          else match (s.resident p).find? (fun v =>
              !(s.gapTiles vs named ((s.tilesOf v).filter (fun t => !(s.tile t).retired))).isEmpty) with
            | some v => s.requestStop p v .curator
            | none => s

/-! ### Pre-emption (R27, R29) -/

/-- A synchronised stop of all resident gangs of a partition, its curator colony included; what is being placed is
abandoned (R27). -/
def State.stopAll (s : State) (p : Nat) (why : StopWhy) : State :=
  let gs := (s.gangs.filter (fun e => decide (e.1.part = p))).map (·.1)
  let s := gs.foldl (fun (s : State) g => if (s.gang g).placing then s.abandonPlacing (s.unitOf g) else s) s
  s.requestStop p gs why

/-- A running partition is pre-empted (R27). -/
def State.preempt (s : State) (p : Nat) : State :=
  if !(s.part p).valid ∨ (s.part p).state ≠ 1 then s
  else (s.modPart p (fun q => { q with state := 2 })).stopAll p .preempt

/-- PARTITION_PRE_EMPTION (R27). -/
def execPartitionPreEmption (p : Nat) (s : State) : Step := .next (s.preempt p)

/-- A pre-empted partition runs again (R27, R29, R299, R353): the summonses held meanwhile are acted on, and the dispatcher
takes up its queues. -/
def State.resumePart (s : State) (p : Nat) : State :=
  let q := s.part p
  if !q.valid ∨ q.state ≠ 2 ∨ s.stops.any (fun h => decide (h.part = p)) then s
  else
    let s := s.modPart p (fun q => { q with state := 1, heldSummons := [] })
    let s := { s with hqs := s.hqs.map (fun e => if e.2.part = p then (e.1, { e.2 with stalled := false }) else e) }
    q.heldSummons.foldl (fun (s : State) g => (s.summon g).1) s

/-- PARTITION_RESUMPTION (R27, R375): not while the one rim controller of a device restarts, or is to restart, before which all
partitions have stopped (R456, R457). -/
def execPartitionResumption (p : Nat) (s : State) : Step :=
  .next (if (s.upkeep.activating ∨ s.upkeep.restarting.isSome ∨ s.upkeep.waiting.isSome) ∧ s.form ≠ .sw2304 then s
    else s.resumePart p)

/-! ### Self-tests (R20, R103) -/

/-- The unit that is tested for an error: the array of a comb word, the row of a line (R103). -/
def testedUnit : UnitId → UnitId
  | .combWord core word _ => .sram (combArray core) (word / 16)
  | .hbmLine line _ => .hbmRow (line * 64 / 2 ^ 36) (line * 64 / 256 % 16)
  | .core => .core
  | .fp64 w => .fp64 w
  | .sram a r => .sram a r
  | .hbmRow a r => .hbmRow a r
  | .hbmChannel a c => .hbmChannel a c

/-- A comb word that is uncorrectable is marked poisoned, with the word it shares a pair with (R234). -/
def State.loseComb (s : State) (k : CoreId) (word : Nat) : State :=
  s.modCore k (fun x => { x with combPois := NSet.ins x.combPois (word / 2) })

/-- ERROR_IN_A_UNIT (R103): an error starts a targeted self-test of its unit; a core, vector unit, matrix unit, router
or NI is tested after a stop of the gang on its tile, which joins the head of its run queue (the model's choice, log entry
71). -/
def execErrorInAUnit (t : Nat) (u : UnitId) (s : State) : Step :=
  let x := s.tile t
  if x.retired then .next s
  else
    let s := match u with
      | .hbmLine _ _ => s
      | u => s.startTest t (testedUnit u)
    let stop (s : State) : State :=
      let s := s.modTile t (fun x => { x with testing := true })
      match x.vtile, x.owner with
      | some v, some p =>
        let g := s.gangOf v
        if (s.gang g).placing then s.abandonPlacing (s.unitOf g) else s.requestStop p (s.unitOf g) .retired
      | _, _ => s
    .next (match u with
      | .core => stop s
      | .fp64 _ => stop s
      | .sram _ _ => s
      | .combWord core word lost =>
        match x.vtile with
        | some v => if lost then s.loseComb ⟨v, s.lcAt v core⟩ word else s
        | none => s
      | .hbmLine line lost => s.homeError line (if lost then 2 else 1)
      | .hbmRow _ _ => s
      | .hbmChannel _ _ => s)

/-- Remapping a channel to a spare begins (R241). -/
def State.startRemap (s : State) (stack channel : Nat) (tag : Option Nat) : State :=
  if s.remaps.any (fun r => decide (r.stack = stack)) ∨ NMap.get 0 s.spare stack ≠ 0 then s
  else { s with remaps := s.remaps ++ [⟨stack, channel, 0, tag⟩] }

/-- Whether a stop is under way on a tile that has not missed its save (R102). -/
def State.stopUnder (s : State) (t : Nat) : Bool :=
  match (s.tile t).vtile.bind s.stopOf with
  | some h => !NSet.mem h.late t
  | none => false

/-- SELF_TEST_COMPLETE (R20, R102, R103): the test ends, once a stop under way on its tile has; a lasting fault spares a
row, removes a wide core's FP64 unit or retires the tile. -/
def execSelfTestComplete (t : Nat) (u : UnitId) (lasting : Bool) (s : State) : Step :=
  let x := s.tile t
  if !s.tests.any (fun e => decide (e = ⟨t, u⟩)) then .next s
  else
    let done := { s with tests := s.tests.filter (fun e => decide (e ≠ ⟨t, u⟩)) }
    let back (s : State) : State :=
      if s.tests.any (fun e => decide (e.tile = t) && (match e.u with
        | .core => true
        | .fp64 _ => true
        | .sram _ _ => false
        | .combWord _ _ _ => false
        | .hbmLine _ _ => false
        | .hbmRow _ _ => false
        | .hbmChannel _ _ => false)) then s else s.modTile t (fun x => { x with testing := false })
    .next (match u with
      | .sram a _ =>
        if s.stopUnder t then s
        else if !lasting then done
        else if NMap.get 0 x.spares a < 4 then
          done.modTile t (fun x => { x with spares := NMap.set 0 x.spares a (NMap.get 0 x.spares a + 1) })
        else done.retireTile t
      | .fp64 w =>
        if x.vtile.isSome then s
        else back (if lasting then done.modTile t (fun x => { x with wide := x.wide.set w false }) else done)
      | .core => if x.vtile.isSome then s else if lasting then done.retireTile t else back done
      | .combWord _ _ _ => done
      | .hbmLine _ _ => done
      | .hbmRow _ _ => done
      | .hbmChannel st ch => if lasting then done.startRemap st ch none else done)

/-! ### What the wafer manager does at once -/

/-- One partition at the end of a step: its curator colony, room for the head of its queue. -/
def State.settlePart (s : State) (p : Nat) : State := ((s.placeCurator p).placeCurator p).swapOut p

/-- Colonies that are complete. -/
def State.settleColonies (s : State) : State :=
  (s.colonies.map (·.1)).foldl (fun (s : State) (p, k) => if s.complete? p k then s.endColony p k else s) s

/-- Foragers that wait parked for room at a resident vtile (R324). -/
def State.settleParked (s : State) (p : Nat) : State :=
  let vs := ((s.part p).parkQ.map (·.dst.vt)).dedup.filter s.present
  if vs = [] then s else s.deliverParked p vs

end Sys2Proof.Machine
end

