-- ==== Sys2Proof/Machine/Faultport.lean ====
section
/-! DEFINITION. The fault port: the partition's fault queue and the curator's commands (R88 to R94). -/

namespace Sys2Proof.Machine

/-! ### The fault queue (R88) -/

/-- Whether a core's copy FIFO is held at a command that a slot of its vtile pushed. -/
def State.heldCopy (s : State) (c : CtxId) (k : CoreId) : Bool :=
  (s.core k).copyHeld && (match (s.core k).copyQ with
    | [] => false
    | q :: _ => decide (q.ctx k = c))

/-- Whether a core's matrix queue is held at a command of a slot. -/
def State.heldMat (s : State) (c : CtxId) : Bool :=
  (s.core c.coreId).matHeld && (match (s.core c.coreId).matQ with
    | [] => false
    | q :: _ => decide (q.slot = c.slot))

/-- The sending port of a bulk transfer held by a fault in which a context takes part (R313). -/
def State.heldBulkOf (s : State) (c : CtxId) : Option PortId :=
  let ps := ((s.vtile c.vt).ports.filter (fun e =>
    decide (e.2.st = .move) && decide (e.2.owner = ownerCode c))).map (fun e => (⟨c.vt, e.1⟩ : PortId))
  (ps ++ ps.map (fun p => (s.port p).peer)).find? (fun p => match (s.port p).bulk with
    | some b => b.halted
    | none => false)

/-- Whether what an ENG message tells of is still held: a bulk transfer (kind 4), a matrix queue (2), or the copy FIFO of a
core. -/
def State.engHeld (s : State) (c : CtxId) (kind core : Nat) : Bool :=
  if kind = 4 then (s.heldBulkOf c).isSome
  else if kind = 2 then s.heldMat c
  else s.heldCopy c ⟨c.vt, core⟩

/-- The parking message of a context has received its SEQ (R91). -/
def State.noteSeq (s : State) (m : Msg) (n : Nat) : State :=
  match m.ctx with
  | none => s
  | some c =>
    if m.eng then
      let k := if m.bulk then 4 else fld m.w4.toNat 0 4
      if s.engHeld c k m.core then s.modPart m.part (fun p => { p with openEng := p.openEng ++ [⟨n, c, k, m.core⟩] }) else s
    else if m.kind = 0 ∧ (s.ctx c).st = .parked ∧ (s.ctx c).parked = {} then
      s.modCtx c (fun x => { x with parked := { seq := some n } })
    else s

/-- FAULT_MESSAGE_ACCEPTED (R88): the message offered first enters the fault queue and receives its SEQ. -/
def execFaultMessageAccepted (p : Nat) (s : State) : Step :=
  let q := s.part p
  match q.offered with
  | [] => .next s
  | m :: r =>
    let n := nextSeq q.lastSeq
    .next (if 65536 ≤ q.faultQ.length then s
      else ((s.modPart p (fun q => { q with
        offered := r, lastSeq := n, faultQ := q.faultQ ++ [{ m with seq := n }] })).sysWrite p 64).noteSeq m n)

/-! ### Commands (R91) -/

/-- Word i of a command. -/
def cmdWord (ws : List Word) (i : Nat) : Nat := (ws.getD i 0).toNat
/-- The opcode. -/
def cmdOp (ws : List Word) : Nat := fld (cmdWord ws 0) 0 8
/-- The colony index of the target. -/
def cmdCol (ws : List Word) : Nat := fld (cmdWord ws 0) 20 6
/-- The SEQ that is answered. -/
def cmdSeq (ws : List Word) : Nat := fld (cmdWord ws 0) 32 32

/-- The bits of word 1 that R89 gives a meaning. -/
def word1Ok (w : Nat) : Bool :=
  decide (fld w 9 7 = 0) && decide (fld w 25 7 = 0) && decide (fld w 38 2 = 0) && decide (fld w 42 2 = 0) &&
  decide (fld w 45 3 = 0) && decide (fld w 60 4 = 0)

/-- Whether a command sets only the bits that its layout gives it. -/
def cmdClean (ws : List Word) : Bool :=
  let op := cmdOp ws
  decide (1 ≤ op) && decide (op ≤ 6) && decide (fld (cmdWord ws 0) 8 12 = 0) && decide (fld (cmdWord ws 0) 26 6 = 0) &&
  word1Ok (cmdWord ws 1) &&
  (if op = 2 then true else if op = 4 then decide (cmdWord ws 2 < 256) else decide (cmdWord ws 2 = 0)) &&
  (decide (op = 4) || decide (cmdWord ws 3 = 0)) &&
  (List.range 4).all (fun i => decide (cmdWord ws (4 + i) = 0)) && (decide (op < 5) || decide (cmdSeq ws = 0))

/-- The gang that word 1 names. -/
def cmdGang (p col w1 : Nat) : GangId := ⟨p, col, fld w1 48 12⟩

/-- Whether an open ENG message with a SEQ names a context. -/
def State.opens (s : State) (c : CtxId) (seq : Nat) : Bool :=
  (s.part c.vt.part).openEng.any (fun e => decide (e.seq = seq) && decide (e.ctx = c))

/-- The context of a live colony that a colony index and word 1 name (R89). An empty slot is named only by the SEQ of an open
message of a command that its last process has left running (the model's reading, log entry 77). -/
def State.namedCtx (s : State) (p col w1 seq : Nat) : Option CtxId :=
  let c : CtxId := ⟨⟨p, col, fld w1 0 9, fld w1 16 9⟩, fld w1 32 6, fld w1 40 2⟩
  if (s.colony p col).live ∧ fld w1 44 1 = 1 ∧ c.core < 48 ∧ (s.vtile c.vt).exist ∧
     (s.vtile c.vt).gang = fld w1 48 12 ∧ ((s.ctx c).st ≠ .empty ∨ s.opens c seq) then some c
  else none

/-- The first check of R91 that a command to a context fails; 0 for none. -/
def State.ctxReason (s : State) (c : CtxId) (op seq : Nat) : Nat :=
  let x := s.ctx c
  let mine := s.opens c seq
  let other := (s.part c.vt.part).openEng.any (fun e => decide (e.seq = seq) && decide (e.ctx ≠ c))
  if x.st = .parked ∧ x.parked.hseq.isSome then 7
  else if other ∨ (x.st = .parked ∧ x.parked.seq ≠ some seq ∧ !mine) then 2
  else if (x.st ≠ .parked ∧ !mine) ∨ (mine ∧ x.parked.seq ≠ some seq ∧ (op = 2 ∨ op = 4)) then 3
  else 0

/-- The reason for which a command is rejected (R91); 0 for none. -/
def State.cmdReason (s : State) (p : Nat) (ws : List Word) : Nat :=
  let k := cmdCol ws
  let w1 := cmdWord ws 1
  let g := cmdGang p k w1
  if !cmdClean ws then 4
  else if 5 ≤ cmdOp ws then
    if !(s.colony p k).live ∨ !AMap.has s.gangs g then 1
    else if cmdOp ws = 5 ∧ (s.gang g).st ≠ .lost then 5 else 0
  else match s.namedCtx p k w1 (cmdSeq ws) with
    | none => 1
    | some c => s.ctxReason c (cmdOp ws) (cmdSeq ws)

/-- The message that answers a rejected command (R90). -/
def State.rejectCmd (s : State) (p : Nat) (ws : List Word) (reason : Nat) : State :=
  s.offer { part := p, col := cmdCol ws, kind := 3, raw := some (ws.getD 1 0, ws.getD 2 0, ws.getD 3 0)
            w4 := BitVec.ofNat 64 reason, w5 := BitVec.ofNat 64 (cmdSeq ws) }

/-- The sender's rendezvous completes when the agent accepts its command (R91, R318). -/
def State.cmdTaken (s : State) (c : CtxId) : State :=
  match (s.ctx c).wait with
  | some (.chs _) => s.complete c
  | some (.vsift _ d v t m) =>
    (s.modCtx c (fun y =>
      (y.wv v (laneMerge (BitVec.ofNat 64 m) t.width (y.rv v) (fun _ => 0))).wg d (BitVec.ofNat 64 m))).complete c
  | _ => s

/-- The command that the agent takes next, if its opcode is the one named: the rejection, or the effect, where what the
effect needs is there. -/
def commandEvent (p : Nat) (mine : Nat → Bool) (f : List Word → State → State) (s : State)
    (ready : List Word → Bool := fun _ => true) : Step :=
  match (s.part p).cmdQ with
  | [] => .next s
  | (c, ws) :: r =>
    .next (if !mine (cmdOp ws) || (decide (s.cmdReason p ws = 0) && !ready ws) then s
      else
        let n := s.cmdReason p ws
        let s := (s.modPart p (fun q => { q with cmdQ := r })).cmdTaken c
        if n ≠ 0 then s.rejectCmd p ws n else f ws s)

/-! ### Effects (R91, R92) -/

/-- A parked context becomes ready at a PC; its line is read again (R62). -/
def State.unpark (s : State) (c : CtxId) (f : Ctx → Ctx) : State :=
  let q := (s.vtile c.vt).lpct.getD c.core c.core / 4
  let s := s.modCtx c (fun x => f { x with st := .ready, parked := {}, line := none, prog := {} })
  if s.present c.vt then s.wakeQuad ⟨(s.vtile c.vt).ptile, q⟩ else s

/-- A held engine command or bulk transfer restarts from its offset, and its message is closed (R91, R94). -/
def State.restartEngine (s : State) (c : CtxId) (seq : Nat) : State :=
  match (s.part c.vt.part).openEng.find? (fun e => decide (e.seq = seq) && decide (e.ctx = c)) with
  | none => s
  | some e =>
    let s := s.modPart c.vt.part (fun p => { p with openEng := p.openEng.filter (fun x => decide (x ≠ e)) })
    if e.kind = 4 then
      match s.heldBulkOf c with
      | some p => s.modPort p (fun x => { x with bulk := x.bulk.map (fun b => { b with halted := false }) })
      | none => s
    else if e.kind = 2 then
      if s.heldMat c then s.modCore c.coreId (fun k => { k with matHeld := false }) else s
    else if s.heldCopy c ⟨c.vt, e.core⟩ then s.modCore ⟨c.vt, e.core⟩ (fun x => { x with copyHeld := false }) else s

/-- A held command of a process that has been removed is discarded at its offset, and its message is closed (R91, R293). -/
def State.discardLeft (s : State) (c : CtxId) (e : EngOpen) : State :=
  let s := s.modPart c.vt.part (fun p => { p with openEng := p.openEng.filter (fun x => decide (x ≠ e)) })
  if e.kind = 2 then
    ((((s.endStep (.mat c.coreId 0)).dropMiss c.coreId .matrix)).modCore c.coreId (fun x => { x with
      matQ := x.matQ.drop 1, matHeld := false, matLatch := none })).startMat c.coreId
  else
    let k : CoreId := ⟨c.vt, e.core⟩
    ((((s.endStep (.copy k 0)).dropMiss k .copy).leaveDie k).modCore k (fun x => { x with
      copyQ := x.copyQ.drop 1, copyHeld := false })).startCopy k

/-- The open ENG message with a SEQ whose held command belongs to a process that has been removed. -/
def State.leftOpen (s : State) (c : CtxId) (seq : Nat) : Option EngOpen :=
  (s.part c.vt.part).openEng.find? (fun e => decide (e.seq = seq) && decide (e.ctx = c) && decide (e.kind ≠ 4) &&
    (if e.kind = 2 then s.heldMat c && (s.core c.coreId).matQ.head?.any (fun q => !q.alive)
     else s.heldCopy c ⟨c.vt, e.core⟩ && (s.core ⟨c.vt, e.core⟩).copyQ.head?.any (fun q => !q.alive)))

/-- What `remove` does (R91): the process ends; quoting the message of a command that an earlier process of the slot has
left, it discards that command. -/
def State.removeCtx (s : State) (c : CtxId) (seq : Nat) : State :=
  match s.leftOpen c seq with
  | some e => s.discardLeft c e
  | none => s.removeProcess c

/-- Whether the end of a process would complete a bulk transfer for a context that a thermal migration is moving: it waits
for the move (R313, R380). -/
def State.cutMoves (s : State) (c : CtxId) : Bool :=
  (s.vtile c.vt).ports.any (fun e =>
    let r := e.2.peer
    let d := ownerCtx r.vt (s.port r).owner
    (decide (e.2.st = .move) || decide (e.2.st = .own)) && decide (e.2.owner = ownerCode c) &&
    (decide ((s.port r).st = .move) || decide ((s.port r).st = .own)) && (s.core d.coreId).moving)

/-- The target of a command to a context. -/
def State.cmdTarget (s : State) (p : Nat) (ws : List Word) : Option CtxId := s.namedCtx p (cmdCol ws) (cmdWord ws 1) (cmdSeq ws)

/-- What `resume` does (R91). -/
def State.resumeCtx (s : State) (c : CtxId) (seq : Nat) : State :=
  if (s.ctx c).st = .parked ∧ (s.ctx c).parked.seq = some seq then s.unpark c (fun x => x) else s.restartEngine c seq

/-- RESUME (R91, R92); an unassigned opcode is rejected here. -/
def execResume (p : Nat) (s : State) : Step :=
  commandEvent p (fun n => decide (n = 1) || decide (n = 0) || decide (6 < n)) (fun ws s =>
    match s.cmdTarget p ws with
    | some c => s.resumeCtx c (cmdSeq ws)
    | none => s) s

/-- RESUME_AT (R91): a comb sequence under way is abandoned with its instruction (R399). -/
def execResumeAt (p : Nat) (s : State) : Step :=
  commandEvent p (fun n => decide (n = 2)) (fun ws s =>
    match s.cmdTarget p ws with
    | some c => s.unpark c (fun x => { x.noFrame with pc := ws.getD 2 0 })
    | none => s) s

/-- REMOVE (R91): taken once H has room for the release with which the process ends (R413), and no party of a bulk transfer
that it ends is being moved (R380). -/
def execRemove (p : Nat) (s : State) : Step :=
  commandEvent p (fun n => decide (n = 3)) (fun ws s =>
    match s.cmdTarget p ws with
    | some c => s.removeCtx c (cmdSeq ws)
    | none => s) s
    (fun ws => match s.cmdTarget p ws with
      | some c => s.acquireRoom c && !s.cutMoves c
      | none => true)

/-- The command TO_HANDLER that the agent takes next, where the entry stores a frame to a page that the vtile has no
translation of: its context and the address (R82, R363). -/
def State.handlerMiss (s : State) (p : Nat) : Option (CtxId × Word) :=
  match (s.part p).cmdQ with
  | [] => none
  | (_, ws) :: _ =>
    if cmdOp ws ≠ 4 ∨ s.cmdReason p ws ≠ 0 then none
    else (s.cmdTarget p ws).bind (fun c => if s.spillWaits c then none else (s.spillMiss c).map (fun ea => (c, ea)))

/-- TO_HANDLER (R84, R91): the context receives the cause of word 2 with the ctval of word 3; cepc is the NextPC for trap
and breakpoint. The command is taken once Q or H has room for the stores of a frame (R82, R413) and the vtile has a translation
for them, which its walker finds meanwhile (R363). -/
def execToHandler (p : Nat) (s : State) : Step :=
  match s.handlerMiss p with
  | some (c, ea) => .next (s.missSpill c ea)
  | none => commandEvent p (fun n => decide (n = 4)) (fun ws s =>
    match s.cmdTarget p ws with
    | some c =>
      let code := cmdWord ws 2
      let s := (s.dropMisses c).unpark c (fun x => x)
      let epc := if code = Cause.trap.code ∨ code = Cause.breakpoint.code then s.nextPc c else (s.ctx c).pc
      s.takeCode c code (ws.getD 3 0) epc
    | none => s) s
    (fun ws => match s.cmdTarget p ws with
      | some c => !s.spillWaits c
      | none => true)

/-- A lost gang is placed afresh: each of its vtiles is set up as at launch, and it is summoned, as R353 has it where its
partition is pre-empted, where it does not fit or where it is one of the curator colony (R29, R91, R101, R350, R353). -/
def State.restartGang (s : State) (g : GangId) : State :=
  let i := imgOf (s.colony g.part g.col).image
  let s := (s.vtilesOf [g]).foldl (fun (s : State) v => s.setupVt i v) s
  let s := s.modGang g (fun x => { x with st := .absent })
  (s.summon g).1

/-- RESTART_GANG (R91). -/
def execRestartGang (p : Nat) (s : State) : Step :=
  commandEvent p (fun n => decide (n = 5)) (fun ws s => s.restartGang (cmdGang p (cmdCol ws) (cmdWord ws 1))) s

/-- SUMMON (R91, R353). -/
def execSummon (p : Nat) (s : State) : Step :=
  commandEvent p (fun n => decide (n = 6)) (fun ws s => (s.summon (cmdGang p (cmdCol ws) (cmdWord ws 1))).1) s

end Sys2Proof.Machine
end

