-- ==== Sys2Proof/Machine/Log.lean ====
section
/-! DEFINITION. The accession log and key changes (R246, R428 to R430, R454). -/

namespace Sys2Proof.Machine

/-- n bytes of a number, little-endian (R9). -/
def leBytes (n v : Nat) : List Byte := (List.range n).map (fun i => BitVec.ofNat 8 (v / 256 ^ i))

/-- The 192 bytes of a record of a partition (R429). -/
def Record.bytes (r : Record) (p : Nat) : List Byte :=
  leBytes 8 r.seq ++ leBytes 8 r.time ++ leBytes 1 p ++ leBytes 1 r.kind ++ leBytes 2 0 ++ leBytes 4 r.model ++
  leBytes 8 r.epoch ++ (List.range 10).flatMap (fun i => leBytes 8 (r.totals.getD i 0)) ++ leBytes 32 0 ++
  beBytes 48 r.prev

/-- The hash of a record (R430), as a big-endian number. -/
def Record.hash (r : Record) (p : Nat) : Nat := beNat (sha384 (r.bytes p))

/-- The 96 bytes of a signature over a digest (R430, R451). -/
def signature (digest : Nat) : List Byte := beBytes 48 (Config.sign digest).1 ++ beBytes 48 (Config.sign digest).2

/-- An entry of the log as it is read (R454). -/
def Record.entry (r : Record) (p : Nat) : List Byte :=
  r.bytes p ++ (if r.signed then signature (r.hash p) else leBytes 96 0)

/-- The counters of a partition in the order of R429. -/
def State.totals (s : State) (p : Nat) : List Nat :=
  let u (i : Nat) : Nat := NMap.get 0 (s.part p).use i
  [u 0, u 1, u 2, u 3, u 4, u 5, u 6, (s.part p).energy, u 8, u 9]

/-- Whether the ring of a partition is full (R430). -/
def State.logFull (s : State) (p : Nat) : Bool := decide (65536 ≤ (s.part p).records.length)

/-- A record is closed (R430): every 60th, and those of kinds 1 and 3, are signed. -/
def State.closeRecord (s : State) (p kind : Nat) : State :=
  let q := s.part p
  let r : Record :=
    { seq := q.recSeq + 1, time := s.time, kind := kind, model := s.fw.model, epoch := q.keyepoch.toNat
      totals := s.totals p, prev := q.lastHash
      signed := decide (kind = 1) || decide (kind = 3) || decide ((q.recSeq + 1) % 60 = 0) }
  s.modPart p (fun q => { q with
    records := q.records ++ [r], recSeq := r.seq, lastHash := r.hash p, logLast := s.time })

/-- The record of a sequence number that the host names is signed (R430). -/
def State.signRecord (s : State) (p seq : Nat) : State :=
  s.modPart p (fun q => { q with records := q.records.map (fun r => if r.seq = seq then { r with signed := true } else r) })

/-- LOG_INTERVAL_CLOSE (R430): while the ring is full, no interval record is closed. -/
def execLogIntervalClose (p : Nat) (s : State) : Step :=
  let q := s.part p
  .next (if !q.valid ∨ s.time < q.logLast + q.logInt * 600000 then s
    else if s.logFull p then s.modPart p (fun q => { q with logLast := s.time })
    else s.closeRecord p 0)

/-! ### Key changes (R246) -/

/-- Whether a granule is given to a partition. -/
def State.holdsGranule (s : State) (p g : Nat) : Bool :=
  let e := NMap.get 0 s.granules g
  e.getLsbD 4 && decide (fld e.toNat 0 4 = p)

/-- The granules of a partition, in order. -/
def State.granulesOf (s : State) (p : Nat) : List Nat :=
  (s.granules.filter (fun e => e.2.getLsbD 4 && decide (fld e.2.toNat 0 4 = p))).map (·.1)

/-- Whether every line that a key change must re-encrypt is done. -/
def State.rekeyDone (s : State) (p : Nat) : Bool :=
  (s.granulesOf p).all (fun g => s.cleared g ||
    decide (((s.part p).rekeyed.filter (fun l => decide (l / 1024 = g))).length = 1024))

/-- The end of a key change (R246, R430, R449). -/
def State.settleKey (s : State) (p : Nat) : State :=
  let q := s.part p
  if q.newkey.isNone ∨ !s.rekeyDone p then s
  else
    let s := s.modPart p (fun q => { q with key := q.newkey, newkey := none, rekeyed := [], keyepoch := q.keyepoch + 1 })
    let s := if s.logFull p then s else s.closeRecord p 2
    s.hostEvent p [3, (s.part p).keyepoch.setWidth 64]

/-- KEY_REENCRYPT_LINE (R246): a line of a granule in use is read under the old key and written under the new one, which the
usage counters see (R428). -/
def execKeyReencryptLine (line : Nat) (s : State) : Step :=
  let g := line / 1024
  let p := fld (NMap.get 0 s.granules g).toNat 0 4
  .next (if !s.holdsGranule p g ∨ s.cleared g ∨ (s.part p).newkey.isNone ∨ !s.homeFree (line * 64) ∨
      NSet.mem (s.part p).rekeyed line then s
    else (((s.tallyHbm g 5 64).tallyHbm g 6 64).modPart p (fun q =>
      { q with rekeyed := NSet.ins q.rekeyed line })).settleKey p)

/-! ### Grades and remaps (R241, R242) -/

/-- Whether a write to a granule is still on its way (R242). -/
def State.writesTo (s : State) (g : Nat) : Bool := s.cores.any (fun e => e.2.through.any (fun t => decide (t.line / 1024 = g)))

/-- The request of a function that is under way has been answered. -/
def State.answer (s : State) (f tag status : Nat) (ws : List Word) : State :=
  let x : Func := AMap.get {} s.funcs f
  ({ s with funcs := AMap.put s.funcs f { x with busy := none } } : State).respond f tag status ws

/-- GRADE_REENCODE (R242): after the drain, every line of the granule is encoded under the new grade; free side bits read
zero. -/
def execGradeReencode (g : Nat) (s : State) : Step :=
  match s.regrades.find? (fun r => decide (r.gran = g)) with
  | none => .next s
  | some r =>
    .next (if s.writesTo g ∨ NSet.mem s.zeroing g then s
      else
        let e := NMap.get 0 s.granules g
        let e' := BitVec.ofNat 8 (e.toNat - fld e.toNat 5 2 * 32 + r.grade * 32)
        ({ s with
          granules := NMap.set 0 s.granules g e'
          side := NMap.keep s.side (fun k => decide (k / 1024 ≠ g))
          regrades := s.regrades.filter (fun x => decide (x ≠ r)) } : State).answer r.func r.tag 0 [])

/-- Lines of a channel: 4 GiB (R241). -/
def channelLines : Nat := 2 ^ 26

/-- HBM_REMAP_LINE_COPY (R241): one line goes to the spare channel; after the last, the spare serves the number. -/
def execHbmRemapLineCopy (stack : Nat) (s : State) : Step :=
  match s.remaps.find? (fun r => decide (r.stack = stack)) with
  | none => .next s
  | some r =>
    if r.line + 1 < channelLines then
      .next { s with remaps := updFirst (fun x => decide (x = r)) (fun x => { x with line := x.line + 1 }) s.remaps }
    else
      let s := { s with
        remaps := s.remaps.filter (fun x => decide (x ≠ r)), spare := NMap.set 0 s.spare stack (r.channel + 1) }
      let s := s.hostEvent pf [4, BitVec.ofNat 64 stack, BitVec.ofNat 64 r.channel]
      .next (match r.tag with
        | some t => s.answer pf t 0 []
        | none => s)

end Sys2Proof.Machine
end

