-- ==== Sys2Proof/Machine/Power.lean ====
section
/-! DEFINITION. Power and heat: operating points, throttling, thermal migration, activation windows, sleep and power-off
of quads (R25, R427, R434 to R442). -/

namespace Sys2Proof.Machine

/-- Time-base cycles in a millisecond (R4). -/
def ms : Nat := 600000

/-! ### Operating points (R434, R435) -/

/-- Whether a core requests OP0: a slot is ready, joined or detached, or a queue holds a command. A slot that its wait field
holds (R252), or whose instruction waits for a release or an acquire (R273), is not ready. -/
def State.asksFull (s : State) (k : CoreId) : Bool :=
  k.slots.any (fun c => s.slotReady c || (s.ctx c).member.isSome) || !(s.core k).copyQ.isEmpty || !(s.core k).matQ.isEmpty

/-- The point at which a quad should run: the lower of its request and its grant, and at most OP2 while it is throttled
(R434, R435). A higher number is a lower point. -/
def State.pointOf (s : State) (q : QuadId) : Nat :=
  let x := s.quad q
  let ask := if (s.coresOn q).any s.asksFull then 0 else 3
  max (max ask (x.granted.getD 0)) (if x.throttled then 2 else 0)

/-- A change of point, or its being held until the transition timer has run out (R435). -/
def State.settlePoint (s : State) (q : QuadId) : State :=
  let x := s.quad q
  let n := s.pointOf q
  if n = x.op then (if x.pendOp = none then s else s.modQuad q (fun x => { x with pendOp := none }))
  else if x.trans ≠ 0 then s.modQuad q (fun x => { x with pendOp := some n })
  else s.modQuad q (fun x => { x with op := n, pendOp := none, trans := ms, stall := 601 })

/-- The tiles of a partition. -/
def State.ownedTiles (s : State) (p : Nat) : List Nat :=
  (s.tiles.filter (fun e => decide (e.2.owner = some p))).map (·.1)

/-- The estimated draw of a partition. -/
def State.draw (s : State) (p : Nat) : Nat :=
  ((s.ownedTiles p).flatMap (fun t => (List.range 12).map (fun q => Config.quadDraw t q s.time))).foldl (· + ·) 0

/-- The power limit of the module or package in watts (R5). -/
def State.powerLimit (s : State) : Nat :=
  match s.form with
  | .sw2304 => 28000
  | .sp256 => Config.packageLimit 1
  | .sd64 => Config.packageLimit 0

/-- Whether the module draws more than its limit (R5, R435). -/
def State.overLimit (s : State) : Bool :=
  decide (s.powerLimit < ((List.range s.form.tiles).flatMap (fun t =>
    (List.range 12).map (fun q => Config.quadDraw t q s.time))).foldl (· + ·) 0)

/-- Whether every activation window is as long as the arbiter makes it (R438). -/
def State.windowsLong (s : State) : Bool := (List.range (s.form.stacks * 16)).all (fun b => decide ((s.bank b).win = 32))

/-- Whether the arbiter may lower the grant of a quad now (R435): its partition draws more than its cap, or has none and the
module exceeds its limit, for which the windows are lengthened first; and among the quads of the partition that can still go
lower none draws more. A partition within its cap is never lowered. -/
def State.mayLower (s : State) (q : QuadId) : Bool :=
  match (s.tile q.tile).owner with
  | none => false
  | some p =>
    (match (s.part p).cap with
     | some w => decide (w < s.draw p)
     | none => s.overLimit) && (!s.overLimit || s.windowsLong) &&
    (s.ownedTiles p).all (fun t => (List.range 12).all (fun n =>
      decide ((s.quad ⟨t, n⟩).granted = some 3) ||
      decide (Config.quadDraw t n s.time ≤ Config.quadDraw q.tile q.quad s.time)))

/-- OPERATING_POINT_GRANT (R435): the arbiter grants a point; it lowers a grant one point at a time. R435 says when a grant is
lowered and nothing of when one is raised again, or by how much: the model lets the arbiter raise a grant at any time to any
point, also while a limit is exceeded (the model's choice, log entry 49). -/
def execOperatingPointGrant (q : QuadId) (op : Nat) (s : State) : Step :=
  let x := s.quad q
  let old := x.granted.getD 0
  .next (if 3 < op ∨ 12 ≤ q.quad ∨ (old < op ∧ (op ≠ old + 1 ∨ !s.mayLower q)) then s
    else (s.modQuad q (fun x => { x with granted := some op })).settlePoint q)

/-- TRANSITION_TIMER_EXPIRY (R435): a change that was held is made if it is still called for. -/
def execTransitionTimerExpiry (q : QuadId) (s : State) : Step :=
  .next (if (s.quad q).trans = 0 ∧ (s.quad q).pendOp.isSome then s.settlePoint q else s)

/-- OPERATING_POINT_CHANGE_END (R435): the quad's issue resumes. -/
def execOperatingPointChangeEnd (q : QuadId) (s : State) : Step :=
  .next (if (s.quad q).stall = 1 then s.modQuad q (fun x => { x with stall := 0 }) else s)

/-! ### Throttling (R436) -/

/-- The quads of a partition that are throttled (R449). -/
def State.throttledQuads (s : State) (p : Nat) : Nat :=
  ((s.ownedTiles p).flatMap (fun t => (s.tile t).quads.filter (fun e => e.2.throttled))).length

/-- A throttle change is reported (R449). -/
def State.tellThrottle (s : State) (q : QuadId) : State :=
  match (s.tile q.tile).owner with
  | none => s
  | some p => s.hostEvent p [5, BitVec.ofNat 64 (s.throttledQuads p), BitVec.ofNat 64 s.time]

/-- THERMAL_SAMPLE (R436): at the threshold the quad is throttled; above 3 °C below it the hold timer restarts. -/
def execThermalSample (q : QuadId) (reading : Nat) (s : State) : Step :=
  let x := s.quad q
  let thr := s.fw.threshold
  .next (if 255 < reading ∨ 12 ≤ q.quad ∨ s.form.tiles ≤ q.tile then s
    else
      let s := s.modQuad q (fun x => { x with
        reading := reading, throttled := x.throttled || decide (thr ≤ reading)
        hold := if thr < reading + 3 then 0 else x.hold })
      if thr ≤ reading ∧ !x.throttled then (s.tellThrottle q).settlePoint q else s)

/-- HOLD_TIMER_EXPIRY (R436): the readings have stayed low for 1 ms. -/
def execHoldTimerExpiry (q : QuadId) (s : State) : Step :=
  let x := s.quad q
  .next (if x.throttled ∧ ms ≤ x.hold then
      ((s.modQuad q (fun x => { x with throttled := false, hold := 0 })).tellThrottle q).settlePoint q
    else s)

/-! ### Thermal migration (R25, R437) -/

/-- Whether a logical core of a vtile may receive a migration (R25). -/
def State.idleCore (s : State) (v : VtId) (k : Nat) : Bool :=
  let x := s.core ⟨v, k⟩
  decide ((s.emptySlots ⟨v, k⟩).length = 4) && x.copyQ.isEmpty && x.matQ.isEmpty && !x.moving

/-- Whether a migration waits for the result of an instruction once it has been issued: a vector register (R181), or the comb
store (R400, R403). -/
def lateResult : Instr → Bool
  | .cload _ => true
  | .vldNoOffset _ => true
  | .vldOff32 _ => true
  | .vldxNoOffset _ => true
  | .vldxOff32 _ => true
  | .vldfNoOffset _ => true
  | .vldfOff32 _ => true
  | _ => false

/-- Whether no context of a core is inside a micro-operation, a `cload` or a vector load (R181, R400, R403). -/
def State.atBoundary (s : State) (k : CoreId) : Bool :=
  k.slots.all (fun c => let x := s.ctx c
    !x.going || (x.live.isNone && (match s.decodeAt c (s.lineOfPc c) with
      | .ok i => !lateResult i
      | .error _ => true)))

/-- The core that moves away from a throttled quad (R437): the lowest logical one with a ready slot, a joined or detached one
being none (R335). -/
def State.hotCore (s : State) (q : QuadId) : Option CoreId :=
  (s.coresOn q).find? (fun k => k.slots.any (fun c => s.slotReady c && (s.ctx c).member.isNone))

/-- Where it goes (R437): an idle core of the same kind in a quad at least 10 °C below, the coolest, ties to the lowest
physical core. -/
def State.coolCore (s : State) (q : QuadId) (k : CoreId) : Option Nat :=
  let hot := (s.quad q).reading
  let fit (pc : Nat) : Bool :=
    let l := s.lcAt k.vt pc
    s.idleCore k.vt l && decide (s.wideCore k.vt l = s.wideCore k.vt k.core) &&
    decide ((s.quad ⟨q.tile, pc / 4⟩).reading + 10 ≤ hot)
  ((List.range 48).filter fit).foldl (fun (b : Option Nat) pc =>
    match b with
    | none => some pc
    | some o => if (s.quad ⟨q.tile, pc / 4⟩).reading < (s.quad ⟨q.tile, o / 4⟩).reading then some pc else some o) none

/-- THERMAL_MIGRATION (R25, R437): a core of a throttled quad begins to move; none begins once a stop count is agreed. -/
def execThermalMigration (q : QuadId) (s : State) : Step :=
  let t := s.tile q.tile
  match s.hotCore q with
  | none => .next s
  | some k =>
    let agreed := ((s.stopOf k.vt).bind (·.t)).isSome
    let early : Bool := match t.lastMove with
      | some n => decide (s.time < n + ms)
      | none => false
    let mat := (s.core k).matPhase
    .next (if !(s.quad q).throttled ∨ !s.running k.vt ∨ agreed ∨ early ∨ (s.core k).moving ∨
        s.thermals.any (fun m => decide (m.vt = k.vt)) ∨ mat = .effect ∨ mat = .completion ∨ !s.atBoundary k then s
      else match s.coolCore q k with
        | none => s
        | some pc =>
          let l : CoreId := ⟨k.vt, s.lcAt k.vt pc⟩
          let s := (s.beginThrough k).beginThrough l
          let s := (s.modCore k (fun x => { x with moving := true })).modCore l (fun x => { x with moving := true })
          { s.modTile q.tile (fun x => { x with lastMove := some s.time }) with
            thermals := s.thermals ++ [⟨k.vt, k.core, (s.vtile k.vt).lpct.getD k.core k.core, pc⟩] })

/-- Whether nothing that a core has stored is still on its way home. -/
def State.written? (s : State) (k : CoreId) : Bool :=
  (s.core k).through.isEmpty && (s.core k).dirtyLines.isEmpty

/-- THERMAL_MIGRATION_COMPLETE (R25, R267, R280, R380): the table entries swap, the caches of both cores are empty,
monitors are armed again and the curator is told. -/
def execThermalMigrationComplete (t : Nat) (s : State) : Step :=
  match s.thermals.find? (fun m => decide ((s.vtile m.vt).ptile = t)) with
  | none => .next s
  | some m =>
    let k : CoreId := ⟨m.vt, m.core⟩
    let l : CoreId := ⟨m.vt, s.lcAt m.vt m.dst⟩
    let b := (s.beginThrough k).beginThrough l
    .next (if !s.written? k ∨ !s.written? l ∨ (s.quad ⟨t, m.src / 4⟩).stall ≠ 0 ∨ (s.quad ⟨t, m.dst / 4⟩).stall ≠ 0 then b
      else s.moveCore m)

/-! ### Activation windows (R438) -/

/-- ACTIVATION_WINDOW_ADJUST (R438): a bank's window, in eighths of its nominal length, from 8 to 32. -/
def execActivationWindowAdjust (bank : Nat) (longer : Bool) (s : State) : Step :=
  let x := s.bank bank
  let put (n : Nat) : State := { s with banks := NMap.set {} s.banks bank { x with win := n } }
  .next (if s.form.stacks * 16 ≤ bank then s
    else if longer then if x.win < 32 then put (x.win + 1) else s
    else if 8 < x.win then put (x.win - 1) else s)

/-! ### Sleep (R440 to R442) -/

/-- Whether a slot lets its quad sleep: a swarm member is joined or detached, not blocked (R335). -/
def Ctx.restful (x : Ctx) : Bool :=
  if x.member.isSome then false
  else match x.st with
  | .empty => true
  | .parked => true
  | .ready => false
  | .migrating => false
  | .blocked => decide (x.wait = some .idle) || (match x.why with
    | .mwait => true
    | .semaphore => true
    | .barrier => true
    | .channel => true
    | .alt => false
    | .queueFull => false
    | .quota => false)

/-- Whether a quad has nothing to do (R440). -/
def State.restful (s : State) (q : QuadId) : Bool :=
  (s.coresOn q).all (fun k => k.slots.all (fun c => (s.ctx c).restful) &&
    (s.core k).copyQ.isEmpty && (s.core k).matQ.isEmpty) &&
  (s.copyHeads q).all (fun h => match h.2 with
    | .fifo _ => true
    | .bulk _ => false)

/-- Whether a posted store is on its way to a quad of a vtile. -/
def State.postedAt (s : State) (v : VtId) (q : Nat) : Bool :=
  s.ctxs.any (fun e => decide (e.1.vt = v) && e.2.posted.any (fun p => decide (s.quadNo v p.addr = q)))

/-- The posted stores that are on their way to a quad. -/
def State.toPort (s : State) (q : QuadId) : List Arrival :=
  match (s.tile q.tile).vtile with
  | none => []
  | some v => s.ctxs.flatMap (fun e => if e.1.vt = v then
      (e.2.posted.filter (fun p => decide (s.quadNo v p.addr = q.quad))).map (fun p => Arrival.store e.1 p.home) else [])

/-- The posted stores on their way to a quad that its port does not hold. -/
def State.onWay (s : State) (q : QuadId) : List Arrival :=
  (s.quad q).held.foldl (fun l a => dropFirst (fun b => decide (b = a)) l) (s.toPort q)

/-- QUAD_SLEEP (R440): what its port holds stays held, and what is still on its way to the quad will be held behind it (R441). -/
def execQuadSleep (q : QuadId) (s : State) : Step :=
  let x := s.quad q
  .next (if x.power = .awake ∧ 6000 ≤ x.idle ∧ s.restful q then
      s.modQuad q (fun x => { x with power := .asleep, held := x.held ++ s.onWay q }) else s)

/-- Whether something has reached a sleeping quad (R441). -/
def State.wakeDue (s : State) (q : QuadId) : Bool :=
  decide ((s.quad q).power = .asleep) && (!s.restful q || !(s.quad q).held.isEmpty || (match (s.tile q.tile).vtile with
    | none => false
    | some v => s.postedAt v q.quad ||
        s.ctxs.any (fun e => decide (e.1.vt = v) && decide (e.2.prog.need = .quad q.quad))))

/-- QUAD_WAKE (R441). -/
def execQuadWake (q : QuadId) (s : State) : Step := .next (if s.wakeDue q then s.wakeQuad q else s)

/-- QUAD_WAKE_COMPLETE (R441): the quad runs again, and what was held at its port goes on. -/
def execQuadWakeComplete (q : QuadId) (s : State) : Step :=
  let x := s.quad q
  .next (if x.power = .waking ∧ x.wake = 0 then s.modQuad q (fun x => { x with power := .awake, idle := 0 }) else s)

/-- The accesses outstanding at the port of a quad (R442), each once: held there, a waiting step of an engine among them, or on
their way to it; packets for the tile and what its router has diverted count at each of its quads. -/
def State.outstanding (s : State) (q : QuadId) : Nat :=
  (s.quad q).held.length + (s.onWay q).length + (s.tile q.tile).saveBuf.length +
  (s.net.filter (fun k => decide (k.tile = q.tile) && !k.waits)).length

/-- QUAD_POWER_OFF (R442, R443): its tile holds no vtile and no access is outstanding. -/
def execQuadPowerOff (q : QuadId) (s : State) : Step :=
  .next (if (s.tile q.tile).vtile = none ∧ s.outstanding q = 0 ∧ q.quad < 12 ∧ q.tile < s.form.tiles then
      s.modQuad q (fun x => { x with power := .off, idle := 0, wake := 0 })
    else s)

end Sys2Proof.Machine
end

