-- ==== Sys2Proof/Machine/Host.lean ====
section
/-! DEFINITION. The host's registers and rings, windows, host queues and the dispatcher (R297 to R300, R444 to R449, R459,
R460). -/

namespace Sys2Proof.Machine

/-- A function of the endpoint. -/
def State.func (s : State) (f : Nat) : Func := AMap.get {} s.funcs f
/-- Change a function. -/
def State.modFunc (s : State) (f : Nat) (g : Func → Func) : State := { s with funcs := AMap.put s.funcs f (g (s.func f)) }

/-! ### Doorbells (R446, R449) -/

/-- How far a 32-bit count is ahead of another. -/
def ahead (a b : Nat) : Nat := (a + 2 ^ 32 - b % 2 ^ 32) % 2 ^ 32

/-- DOORBELL (R446): the host writes its running count; `es` are the entries that it has filled since. -/
def execDoorbell (f count : Nat) (es : List (List Word)) (s : State) : Step :=
  let x := s.func f
  let n := ahead count x.taken
  .next (if 16 < f ∨ n = 0 then s
    else if 256 < n ∨ n < x.ring.length then s.modFunc f (fun x => { x with reqErr := true })
    else if es.length ≠ n - x.ring.length ∨ !es.all (fun e => decide (e.length = 8)) then s
    else s.modFunc f (fun x => { x with ring := x.ring ++ es, reqMem := (es.zipIdx).foldl (fun m (e, i) =>
      NMap.set [] m ((x.taken + x.ring.length + i) % 256) e) x.reqMem }))

/-- Held events enter the ring as far as it has room (R449). -/
def Func.refill (x : Func) : Func :=
  let n := 256 - x.evRing.length
  let l := x.events.take n
  { x with
    evRing := x.evRing ++ l, events := x.events.drop n, evWritten := (x.evWritten + l.length) % 2 ^ 32
    evMem := (l.zipIdx).foldl (fun m (e, i) => NMap.set [] m ((x.evWritten + i) % 256) e) x.evMem
    irqs := NMap.set 0 x.irqs 1 (NMap.get 0 x.irqs 1 + l.length) }

/-- EVENT_DOORBELL (R446, R449): the host writes its count of entries consumed. -/
def execEventDoorbell (f count : Nat) (s : State) : Step :=
  let x := s.func f
  let n := ahead count x.evTaken
  .next (if 16 < f ∨ n = 0 then s
    else if x.evRing.length < n then s.modFunc f (fun x => { x with evErr := true })
    else s.modFunc f (fun x => { x with evRing := x.evRing.drop n, evTaken := count % 2 ^ 32 }.refill))

/-- ERROR_BITS_CLEAR (R446, R449): a 1 clears REQERR (bit 0) or EVERR (bit 1). -/
def execErrorBitsClear (f : Nat) (w : Word) (s : State) : Step :=
  .next (s.modFunc f (fun x => { x with
    reqErr := x.reqErr && !w.getLsbD 0, evErr := x.evErr && !w.getLsbD 1 }))

/-! ### Taking requests (R446, R447) -/

/-- Who may issue a request. -/
inductive From where
  | pfOnly | vfOnly | both
  deriving DecidableEq, Repr

/-- The opcode of a request. -/
def reqOp (ws : List Word) : Nat := fld (ws.getD 0 0).toNat 0 8
/-- Its TAG. -/
def reqTag (ws : List Word) : Nat := fld (ws.getD 0 0).toNat 8 16
/-- An argument word as a number. -/
def argW (ws : List Word) (i : Nat) : Nat := (ws.getD i 0).toNat

/-- The request at the head of a function's ring that can be taken now. -/
def State.headReq (s : State) (f : Nat) : Option (List Word) :=
  if (s.func f).busy.isSome then none else (s.func f).ring.head?

/-- The head of a ring is taken. -/
def State.popReq (s : State) (f : Nat) : State :=
  s.modFunc f (fun x => { x with ring := x.ring.drop 1, taken := (x.taken + 1) % 2 ^ 32 })

/-- The status of a request before its own checks: reserved bits of word 0, the function, and for a virtual one its
partition. -/
def State.reqStatus (s : State) (f : Nat) (who : From) (ws : List Word) : Nat :=
  if (ws.getD 0 0).toNat / 2 ^ 24 ≠ 0 then 9
  else if (who = .pfOnly ∧ f ≠ pf) ∨ (who = .vfOnly ∧ f = pf) then 6
  else if f ≠ pf ∧ !(s.part f).valid then (if (s.part f).freed then 7 else 5)
  else 0

/-- A request with an opcode is taken (R446): refused, or performed by `g` with its TAG and words. -/
def State.request (s : State) (f : Nat) (who : From) (mine : List Word → Bool)
    (g : Nat → List Word → State → State) : Step :=
  match s.headReq f with
  | none => .next s
  | some ws =>
    .next (if !mine ws then s
      else
        let st := s.reqStatus f who ws
        let s := s.popReq f
        if st ≠ 0 then s.respond f (reqTag ws) st [] else g (reqTag ws) ws s)

/-- A request is under way: its function takes no other. -/
def State.holdReq (s : State) (f tag : Nat) : State := s.modFunc f (fun x => { x with busy := some tag })

/-- Whether the words of a request from i on are zero. -/
def zeroFrom (ws : List Word) (i : Nat) : Bool := (ws.drop i).all (fun w => decide (w = 0))

/-- UNKNOWN_REQUEST (R446, R448): an opcode, or a parameter code of request 0x04, that is not assigned; request 0x04 is the
physical function's (R447). -/
def execUnknownRequest (f : Nat) (s : State) : Step :=
  s.request f (match s.headReq f with
    | some ws => if reqOp ws = 4 then .pfOnly else .both
    | none => .both) (fun ws =>
    decide (reqOp ws = 0) || decide (0x13 < reqOp ws) ||
    (decide (reqOp ws = 4) && (decide (fld (argW ws 1) 0 8 = 0) || decide (10 < fld (argW ws 1) 0 8))))
    (fun tag _ s => s.respond f tag 9 [])

/-! ### Windows (R445, R447) -/

/-- The window of a function that maps an offset of BAR4: the one mapped last (R447). -/
def Func.windowAt (x : Func) (off : Nat) : Option Window :=
  x.windows.find? (fun w => decide (w.off ≤ off) && decide (off < w.off + w.n * 65536))

/-- Whether a window of a function maps a granule at an offset where no later one hides it. -/
def Func.maps (x : Func) (w : Window) (g : Nat) : Bool :=
  decide (w.first ≤ g) && decide (g < w.first + w.n) && decide (x.windowAt (w.off + (g - w.first) * 65536) = some w)

/-- The physical address that an offset of BAR4 names, and whether it may be written: nothing where no window maps it, or
the granule is no longer the partition's (R245, R445). -/
def State.bar4 (s : State) (f off : Nat) : Option (Nat × Bool) :=
  match (s.func f).windowAt off with
  | none => none
  | some w =>
    let pa := w.first * 65536 + (off - w.off)
    if (s.part f).valid ∧ s.granOk f (granuleOf pa) then some (pa, w.wr) else none

/-- Whether a window of a partition maps a granule (R459). -/
def State.mapped (s : State) (p g : Nat) : Bool :=
  s.granOk p g && (s.func p).windows.any (fun w => (s.func p).maps w g)

/-- Whether one window of a partition maps some granules, which are the partition's (R297, R459). -/
def State.oneWindow (s : State) (p : Nat) (gs : List Nat) : Bool :=
  gs.all (fun g => s.granOk p g) &&
  (s.func p).windows.any (fun w => gs.all (fun g => (s.func p).maps w g))

/-- MAP_WINDOW (R447): granules of the partition onto an offset of BAR4; a new window takes the place of an old one at
the offsets they share. -/
def execMapWindow (f off first n : Nat) (wr : Bool) (s : State) : Step :=
  s.request f .vfOnly (fun ws => decide (reqOp ws = 5)) (fun tag _ s =>
    let gs := (List.range n).map (fun i => first + i)
    if off % 65536 ≠ 0 ∨ n = 0 ∨ 2 ^ 40 < off + n * 65536 then s.respond f tag 9 []
    else if !gs.all (fun g => s.holdsGranule f g) then s.respond f tag 5 []
    else if gs.any (fun g => (NMap.get 0 s.granules g).getLsbD 7) then s.respond f tag 6 []
    else (s.modFunc f (fun x => { x with windows := ⟨off, first, n, wr⟩ :: x.windows })).respond f tag 0 [])

/-- Bytes of a host write, by lines (R242). -/
def State.hostBytes (s : State) (f : Nat) : Nat → Nat → List Byte → State
  | 0, _, _ => s
  | n + 1, off, bs =>
    let k := min bs.length (64 - off % 64)
    let s := match s.bar4 f off with
      | some (pa, true) => s.homeWriteNow pa k (leAt bs 0 k)
      | _ => s
    if bs.length ≤ k then s else State.hostBytes s f n (off + k) (bs.drop k)

/-- The lines at home that n bytes written at an offset of BAR4 reach. -/
def State.hostLines (s : State) (f off n : Nat) : List Nat :=
  ((linesOf off n).filterMap (fun l => match s.bar4 f (l * 64) with
    | some (pa, true) => some (pa / 64)
    | _ => none)).dedup

/-- Whether a write of a function of the host is performed now, at home as any other (R245, R438, R439). -/
def State.hostGate (s : State) (f off n : Nat) : State × Bool :=
  let ls := s.hostLines f off n
  s.gate f (.host f 0) [] ls (((ls.map (· / 1024)).dedup).filter s.cleared)

/-- A write of the host is performed at home. -/
def State.hostWrite (s : State) (f off : Nat) (bs : List Byte) : State := s.hostBytes f (bs.length / 64 + 2) off bs

/-- LINK_PORT_FAILURE (R444): the traffic of the port passes to the others. -/
def execLinkPortFailure (i : Nat) (s : State) : Step :=
  .next (if i < 4 then { s with links := NSet.ins s.links i } else s)

/-! ### Host queues (R297, R448) -/

/-- A host queue. -/
def State.hq (s : State) (q : Nat) : Option HostQ := (s.hqs.find? (fun e => decide (e.1 = q))).map (·.2)
/-- Put a host queue. -/
def State.putHq (s : State) (q : Nat) (h : HostQ) : State := { s with hqs := AMap.put s.hqs q h }

/-- Whether a function reaches a queue (R445). -/
def HostQ.seenBy (h : HostQ) (f : Nat) : Bool := decide (f = pf) || decide (h.part = f)

/-- A write of NOTIFY is accepted (R297, R299): the count of packets written; one that the ring cannot hold sets ERR. -/
def State.notified (s : State) (f q : Nat) (w : Word) : State :=
  match s.hq q with
  | none => s
  | some h =>
    let n := w.toNat % 2 ^ 32
    if !h.seenBy f then s
    else if 2 ^ h.k < ahead n h.rd then s.putHq q { h with err := true }
    else s.putHq q { h with notify := n, stalled := false }

/-- The writes that a function's adapter holds are performed in their order, as far as home serves them (R445). -/
def State.drainHost (s : State) (f : Nat) : List HostWrite → State
  | [] => s.modFunc f (fun x => { x with held := [] })
  | .mem off bs :: r =>
    match s.hostGate f off bs.length with
    | (s, true) => State.drainHost (s.hostWrite f off bs) f r
    | (s, false) => s.modFunc f (fun x => { x with held := .mem off bs :: r })
  | .notify q w :: r => State.drainHost (s.notified f q w) f r

/-- BAR4_WRITE (R445): a write of the host, or of another PCIe endpoint, is performed at home, after those of its function
that the adapter has received before and that home does not serve yet. -/
def execBar4Write (f off : Nat) (bs : List Byte) (s : State) : Step :=
  .next (if bs = [] then s
    else if (s.func f).held = [] then s.drainHost f [.mem off bs]
    else s.modFunc f (fun x => { x with held := x.held ++ [.mem off bs] }))

/-- NOTIFY (R297, R445): accepted once every earlier BAR4 write of the function has been performed. -/
def execNotify (f q : Nat) (w : Word) (s : State) : Step :=
  .next (if (s.func f).held = [] then s.notified f q w
    else s.modFunc f (fun x => { x with held := x.held ++ [.notify q w] }))

/-! ### What the host reads (R445, R449) -/

/-- What an entry of a function's response ring holds: the latest response written there. -/
def Func.respAt (x : Func) (slot : Nat) : List Word :=
  let n := x.resps.length
  if slot < n then x.resps.getD (slot + (n - 1 - slot) / 256 * 256) [] else []

/-- A 64-bit word of BAR0 of a function: its rings of 256 entries of eight words, and its status block (R445, R446, R449). -/
def State.bar0Read (s : State) (f off : Nat) : Nat :=
  let x := s.func f
  let entry (base : Nat) (get : Nat → List Word) : Nat := argW (get ((off - base) / 64)) ((off - base) % 64 / 8)
  if 0x1000 ≤ off ∧ off < 0x5000 then entry 0x1000 (fun i => NMap.get [] x.reqMem i)
  else if 0x5000 ≤ off ∧ off < 0x9000 then entry 0x5000 x.respAt
  else if 0x9000 ≤ off ∧ off < 0xD000 then entry 0x9000 (fun i => NMap.get [] x.evMem i)
  else if off = 0xF000 then (s.part f).state
  else if off = 0xF008 then (s.part f).keyepoch.toNat
  else if off = 0xF010 then s.throttledQuads f
  else if off = 0xF018 then x.reqErr.toNat + 2 * x.evErr.toNat
  else 0

/-- A 64-bit word of BAR2 of a function: the registers of host queue off / 64 (R297, R445). -/
def State.bar2Read (s : State) (f off : Nat) : Nat :=
  match s.hq (off / 64) with
  | none => 0
  | some h =>
    if !h.seenBy f then 0
    else if off % 64 = 0 then h.notify
    else if off % 64 = 8 then h.rd
    else if off % 64 = 16 then h.err.toNat
    else 0

/-- n bytes of BAR4 of a function: all ones where no window maps them (R245, R445). -/
def State.bar4Read (s : State) (f off n : Nat) : List Byte :=
  (List.range n).map (fun i => match s.bar4 f (off + i) with
    | some (pa, _) => BitVec.ofNat 8 (s.homeBytes pa 1)
    | none => 0xFF)

/-- ERR_CLEAR (R297). -/
def execErrClear (f q : Nat) (w : Word) (s : State) : Step :=
  match s.hq q with
  | none => .next s
  | some h => .next (if h.seenBy f ∧ w.getLsbD 0 then s.putHq q { h with err := false } else s)

/-- CREATE_HOST_QUEUE (R297, R448, R459). -/
def execCreateHostQueue (f : Nat) (s : State) : Step :=
  s.request f .vfOnly (fun ws => decide (reqOp ws = 0x0B)) (fun tag ws s =>
    let w := argW ws 1
    let k := fld w 0 5
    let col := fld w 5 6
    let base := argW ws 2
    let gs := (List.range ((base % 65536 + 2 ^ k * 128 + 65535) / 65536)).map (fun i => granuleOf base + i)
    if k = 0 ∨ 16 < k ∨ w / 2 ^ 12 ≠ 0 ∨ base % 128 ≠ 0 ∨ !zeroFrom ws 3 then s.respond f tag 9 []
    else if !(s.colony f col).live ∨ !s.oneWindow f gs then s.respond f tag 5 []
    else match firstFrom (fun q => (s.hq q).isNone) 1024 0 with
      | none => s.respond f tag 8 []
      | some q => (s.putHq q { part := f, col := col, k := k, base := base, scaleout := decide (fld w 11 1 = 1) }).respond f
          tag 0 [BitVec.ofNat 64 q])

/-- DESTROY_HOST_QUEUE (R447, R448): the queue ends once it is drained. -/
def execDestroyHostQueue (f : Nat) (s : State) : Step :=
  s.request f .vfOnly (fun ws => decide (reqOp ws = 0x0C)) (fun tag ws s =>
    let q := argW ws 1
    if 1023 < q ∨ !zeroFrom ws 2 then s.respond f tag 9 []
    else match s.hq q with
      | none => s.respond f tag 5 []
      | some h =>
        if h.part ≠ f then s.respond f tag 5 []
        else (s.putHq q { h with ending := some (f, tag) }).holdReq f tag)

/-- HOST_QUEUE_DESTROYED (R447). -/
def execHostQueueDestroyed (q : Nat) (s : State) : Step :=
  match s.hq q with
  | none => .next s
  | some h =>
    match h.ending with
    | none => .next s
    | some (f, tag) =>
      .next (if h.rd ≠ h.notify then s else ({ s with hqs := AMap.del s.hqs q } : State).answer f tag 0 [])

/-! ### The dispatcher (R298, R299) -/

/-- The status of R446 with which a packet of a partition is refused; 0 where it is not (R298, R299, R459). -/
def State.packetStatus (s : State) (p : Nat) (ws : List Word) : Nat :=
  let w := argW ws 0
  let sig := argW ws 10
  let c := s.colony p (fld w 16 6)
  if fld w 8 8 ≠ 1 ∨ fld w 1 7 ≠ 0 ∨ fld w 22 10 ≠ 0 ∨ fld w 41 7 ≠ 0 ∨ fld w 57 3 ≠ 0 ∨ !zeroFrom ws 11 ∨ sig % 8 ≠ 0 then 9
  else if !c.live ∨ c.gridX ≤ fld w 32 9 ∨ c.gridY ≤ fld w 48 9 then 5
  else if sig ≠ 0 ∧ !s.mapped p (granuleOf sig) then 5
  else 0

/-- The forager of a packet goes to its vtile (R299): it parks where the vtile is absent. -/
def State.launchPacket (s : State) (p addr : Nat) (ws : List Word) : State :=
  let w := argW ws 0
  let v : VtId := ⟨p, fld w 16 6, fld w 32 9, fld w 48 9⟩
  let f : Forager := { entry := ws.getD 1 0, payload := (List.range 8).map (fun i => ws.getD (2 + i) 0), poison := false
                       origin := .packet addr (argW ws 10) w }
  s.send { src := ⟨v, 0⟩, dst := ⟨v, 0⟩, body := .forager f none }

/-- The dispatcher as one that reads the packets of a partition at home: it has the place of no context. -/
def dispatcher (p : Nat) : CtxId := ⟨⟨p, 64, 0, 0⟩, 0, 0⟩

/-- Where the next packet of a queue lies. -/
def HostQ.next (h : HostQ) : Nat := h.base + h.rd % 2 ^ h.k * 128

/-- Whether the dispatcher reads the packet at an address now (R245, R438, R439). -/
def State.packetGate (s : State) (p addr : Nat) : State × Bool :=
  s.gate p (.packet (dispatcher p) addr 0) [] (linesOf addr 128) []

/-- DISPATCH_PACKET (R299, R460): the dispatcher takes up the next packet of a queue of a running partition. -/
def execDispatchPacket (q : Nat) (s : State) : Step :=
  match s.hq q with
  | none => .next s
  | some h =>
    let addr := h.next
    let ws := (List.range 16).map (fun i => BitVec.ofNat 64 (s.homeBytes (addr + 8 * i) 8))
    let w := argW ws 0
    let on (s : State) : State := s.putHq q { h with rd := (h.rd + 1) % 2 ^ 32 }
    .next (if h.stalled ∨ h.rd = h.notify ∨ (s.part h.part).state ≠ 1 then s
      else if w % 2 = 1 ∧ s.packetStatus h.part ws = 0 ∧ s.mapped h.part (granuleOf addr) ∧
          (s.part h.part).fquota ≤ (s.part h.part).fcount then s
      else match s.packetGate h.part addr with
      | (s, false) => s
      | (s, true) =>
        let s := s.tallyRead addr 128
        if w % 2 = 0 then s.putHq q { h with stalled := true }
        else if s.packetStatus h.part ws ≠ 0 ∨ !s.mapped h.part (granuleOf addr) then
          on (if s.granOk h.part (granuleOf addr) then
            s.homeWriteNow addr 8 (w % 2 ^ 60 / 2 * 2 + 2 * 2 ^ 60) else s)
        else on (s.launchPacket h.part addr ws))

end Sys2Proof.Machine
end

