-- ==== Sys2Proof/Machine/Rtgo.lean ====
section
/-! DEFINITION. Remote table access: the operations that a store to RTGO begins (R376 to R386). -/

namespace Sys2Proof.Machine

/-! ### What RTSEL names (R385) -/

/-- The table code. -/
def rtCode (w : Word) : Nat := fld w.toNat 32 4
/-- The index. -/
def rtIndex (w : Word) : Nat := fld w.toNat 36 28
/-- The vtile that the selectors name, in a partition. -/
def rtVt (p : Nat) (w : Word) : VtId := ⟨p, fld w.toNat 25 6, fld w.toNat 0 9, fld w.toNat 16 9⟩

/-- RTD register i. -/
def Ctx.rtdW (x : Ctx) (i : Nat) : Nat := (NMap.get 0 x.rtd i).toNat

/-- Whether the selectors name a vtile of the grid of a live colony. -/
def State.rtTarget (s : State) (v : VtId) : Bool :=
  (s.colony v.part v.col).live && decide (v.x < (s.colony v.part v.col).gridX) &&
  decide (v.y < (s.colony v.part v.col).gridY)

/-! ### Reads -/

/-- The two words of a port entry (R381). -/
def Port.words (x : Port) : List Word :=
  if !x.decl then [0, 0]
  else
    let q := x.peer.vt
    [BitVec.ofNat 64 (q.part * 2 ^ 56 + q.col * 2 ^ 48 + q.y * 2 ^ 32 + q.x * 2 ^ 16 + x.peer.port * 256 +
      x.width * 8 + x.dir.code * 2 + 1), BitVec.ofNat 64 x.max]

/-- The system granules of a partition. -/
def State.sysGranules (s : State) (p : Nat) : Nat :=
  (s.granules.filter (fun e => e.2.getLsbD 4 && e.2.getLsbD 7 && decide (fld e.2.toNat 0 4 = p))).length

/-- The granules that the spill areas of a partition take, with another capacity at one vtile (R383). -/
def State.spillGranules (s : State) (v : VtId) (cap : Nat) : Nat :=
  s.vtiles.foldl (fun n e =>
    if e.1.part ≠ v.part ∨ !e.2.exist ∨ e.1 = v then n else n + (e.2.spcap * 128 + 65535) / 65536)
    ((cap * 128 + 65535) / 65536)

/-- The tile entry of the engine assignment table (R384). -/
def State.tileEntry (s : State) (v : VtId) : Nat :=
  if !s.present v then 0
  else match (s.tile (s.vtile v).ptile).engine with
    | some d => 64 + d
    | none => 0

/-- The die entry of the engine assignment table (R384). -/
def State.dieEntry (s : State) (d : Nat) : Nat :=
  match NMap.get none s.dies d with
  | some p => 16 + p
  | none => 0

/-- The granule entry as a partition reads it (R384). -/
def State.granuleEntry (s : State) (p g : Nat) : Nat :=
  let e := NMap.get 0 s.granules g
  if e.getLsbD 4 ∧ fld e.toNat 0 4 = p then e.toNat else 0

/-- What a read returns in RTD0 onwards; `none` for a refused one (R385). -/
def State.rtRead (s : State) (p : Nat) (w : Word) : Except Nat (List Word) :=
  let v := rtVt p w
  let i := rtIndex w
  let n := fun (k : Nat) => (BitVec.ofNat 64 k : Word)
  let x := s.vtile v
  let c := s.colony p v.col
  let q := s.part p
  let code := rtCode w
  if code = 6 then
    .ok [n (s.ptilesOf p + q.state * 2 ^ 16 + q.quantum * 2 ^ 32), n (q.fquota + q.fcount * 2 ^ 32), n q.saveto,
      n q.keyepoch.toNat]
  else if code = 5 then
    if !c.live then .error 4
    else .ok [n (c.live.toNat + c.cores.toNat * 2 + c.summon.toNat * 4 + c.gangs * 2 ^ 16 + c.gridX * 2 ^ 32 +
      c.gridY * 2 ^ 48), n (c.faultVt.1 + c.faultVt.2 * 2 ^ 16), c.reqmask]
  else if !s.rtTarget v then .error 4
  else if code = 1 then (if i < 256 then .ok (s.port ⟨v, i⟩).words else .error 2)
  else if code = 2 then (if i < 32 then .ok [NMap.get 0 x.perms i] else .error 2)
  else if code = 3 then .ok [n (x.gang + x.res.toNat * 2 ^ 16 + x.ptile * 2 ^ 32), n (x.root * 512), x.mask]
  else if code = 4 then .ok [n x.spcap]
  else if code = 7 then (if i < 48 then .ok [n (x.lpct.getD i i)] else .error 2)
  else if code = 8 then (if i < 36 then .ok [n (s.dieEntry i), n (s.tileEntry v)] else .error 2)
  else if code = 9 then (if i * 65536 < s.hbmEnd then .ok [n (s.granuleEntry p i)] else .error 2)
  else .error 2

/-! ### Writes -/

/-- A port entry from its two words, once they are well formed (R381): the ranges of WIDTH and MAX hold of every write, also
of one with DECL = 0. -/
def portEntry (w0 w1 : Nat) : Option Port :=
  let dir := dirOf (fld w0 1 2)
  let width := fld w0 3 4
  let free := decide (fld w0 60 4 = 0) && decide (fld w0 54 2 = 0) && decide (fld w0 41 7 = 0) &&
    decide (fld w0 25 7 = 0) && decide (fld w0 7 1 = 0) && decide (fld w1 32 32 = 0)
  let range := if fld w0 1 2 < 2 then decide (1 ≤ width) && decide (width ≤ 8) && decide (w1 = 0)
    else decide (width = 0) && (if fld w0 1 2 = 2 then decide (1 ≤ w1) else decide (w1 = 0))
  if !free ∨ fld w0 8 8 = 255 ∨ !range then none
  else if fld w0 0 1 = 0 then some {}
  else some
    { decl := true, dir := dir, width := width, max := w1
      peer := ⟨⟨fld w0 56 4, fld w0 48 6, fld w0 16 9, fld w0 32 9⟩, fld w0 8 8⟩ }

/-- A write of a port entry (R381). -/
def State.writePort (s : State) (v : VtId) (i w0 w1 : Nat) : Except Nat State :=
  if 256 ≤ i then .error 2
  else if (s.port ⟨v, i⟩).st ≠ .idle then .error 1
  else if i = 255 then .error 2
  else match portEntry w0 w1 with
    | none => .error 3
    | some x => .ok (s.modVt v (fun y => { y with
        ports := if x.decl then AMap.put y.ports i x else AMap.del y.ports i }))

/-- A write of a permission entry (R382): its reserved bits and XP are ignored (R11). -/
def State.writePerm (s : State) (v : VtId) (i w : Nat) : Except Nat State :=
  if 32 ≤ i then .error 2
  else if fld w 0 1 = 1 ∧ fld w 16 4 ≠ v.part then .error 2
  else .ok (s.modVt v (fun x => { x with
    perms := NMap.set 0 x.perms i (maskedWrite 0xF3F03 0 (BitVec.ofNat 64 w)) }))

/-- A write of ROOT (R378). -/
def State.writeRoot (s : State) (v : VtId) (w : Nat) : Except Nat State :=
  if w = 0 then .ok (s.modVt v (fun x => { x with root := 0 }))
  else if fld w 0 9 ≠ 0 ∨ fld w 41 23 ≠ 0 then .error 3
  else if !s.granOk v.part (granuleOf w) then .error 2
  else .ok (s.modVt v (fun x => { x with root := w / 512 }))

/-- A write of SPCAP (R383). -/
def State.writeSpill (s : State) (v : VtId) (w : Nat) : Except Nat State :=
  if 2 ^ 20 < w then .error 3
  else if (s.vtile v).spill ≠ [] then .error 1
  else if s.sysGranules v.part < s.spillGranules v w then .error 2
  else .ok (s.modVt v (fun x => { x with spcap := w }))

/-- A write of a colony entry (R376, R385). -/
def State.writeColony (s : State) (p k w0 w1 : Nat) : Except Nat State :=
  let f : VtId := ⟨p, (s.part p).curcol, fld w1 0 9, fld w1 16 9⟩
  if !(s.colony p k).live then .error 4
  else if fld w1 9 7 ≠ 0 ∨ fld w1 25 39 ≠ 0 ∨ !s.rtTarget f then .error 3
  else .ok (s.modColony p k (fun c => { c with summon := decide (fld w0 2 1 = 1), faultVt := (f.x, f.y) }))

/-- What a write does, or the status with which it is refused (R385). -/
def State.rtWrite (s : State) (p : Nat) (x : Ctx) : Except Nat State :=
  let w := x.rtsel
  let v := rtVt p w
  let code := rtCode w
  if code = 5 then s.writeColony p v.col (x.rtdW 0) (x.rtdW 1)
  else if code = 6 then .error 2
  else if !s.rtTarget v then .error 4
  else if code = 1 then s.writePort v (rtIndex w) (x.rtdW 0) (x.rtdW 1)
  else if code = 2 then s.writePerm v (rtIndex w) (x.rtdW 0)
  else if code = 3 then s.writeRoot v (x.rtdW 1)
  else if code = 4 then s.writeSpill v (x.rtdW 0)
  else .error 2

/-! ### The operation (R386) -/

/-- Whether the target's gang stands between T and absence, so that the operation waits (R386): every tile's part is done at
absence (R98). -/
def State.rtWaits (s : State) (p : Nat) (w : Word) : Bool :=
  let v := rtVt p w
  decide (rtCode w ≠ 5) && decide (rtCode w ≠ 6) && (match s.stopOf v with
    | some h => h.halted
    | none => false)

/-- The operation is performed: RTSTAT and what it read, and the store completes. -/
def State.rtDone (s : State) (c : CtxId) (stat : Nat) (ws : List Word) : State :=
  (s.modCtx c (fun x => { x with
    rtstat := BitVec.ofNat 64 stat
    rtd := (ws.zipIdx).foldl (fun m (w, i) => NMap.set 0 m i w) x.rtd })).complete c

/-- Whether a context waits for its remote table operation, and it may be performed. -/
def State.rtReady (s : State) (c : CtxId) : Bool :=
  decide ((s.ctx c).prog.need = .remote) && !s.rtWaits c.vt.part (s.ctx c).rtsel

/-- A read of a table code. -/
def rtReadEvent (code : Nat) (c : CtxId) (s : State) : Step :=
  let x := s.ctx c
  .next (if !s.rtReady c ∨ x.rtgo ≠ 1 ∨ rtCode x.rtsel ≠ code then s
    else match s.rtRead c.vt.part x.rtsel with
      | .ok ws => s.rtDone c 0 ws
      | .error _ => s)

/-- A write of a table code. -/
def rtWriteEvent (code : Nat) (c : CtxId) (s : State) : Step :=
  let x := s.ctx c
  .next (if !s.rtReady c ∨ x.rtgo ≠ 2 ∨ rtCode x.rtsel ≠ code then s
    else match s.rtWrite c.vt.part x with
      | .ok s => s.rtDone c 0 []
      | .error _ => s)

/-- RTGO_PORT_READ (R381, R385). -/
def execRtgoPortRead (c : CtxId) (s : State) : Step := rtReadEvent 1 c s
/-- RTGO_PORT_WRITE (R381). -/
def execRtgoPortWrite (c : CtxId) (s : State) : Step := rtWriteEvent 1 c s
/-- RTGO_PERMISSION_READ (R382, R385). -/
def execRtgoPermissionRead (c : CtxId) (s : State) : Step := rtReadEvent 2 c s
/-- RTGO_PERMISSION_WRITE (R382). -/
def execRtgoPermissionWrite (c : CtxId) (s : State) : Step := rtWriteEvent 2 c s
/-- RTGO_VTILE_MAP_READ (R377, R385). -/
def execRtgoVtileMapRead (c : CtxId) (s : State) : Step := rtReadEvent 3 c s
/-- RTGO_ROOT_WRITE (R378). -/
def execRtgoRootWrite (c : CtxId) (s : State) : Step := rtWriteEvent 3 c s
/-- RTGO_SPILL_READ (R383, R385). -/
def execRtgoSpillRead (c : CtxId) (s : State) : Step := rtReadEvent 4 c s
/-- RTGO_SPILL_WRITE (R383). -/
def execRtgoSpillWrite (c : CtxId) (s : State) : Step := rtWriteEvent 4 c s
/-- RTGO_COLONY_READ (R376, R385). -/
def execRtgoColonyRead (c : CtxId) (s : State) : Step := rtReadEvent 5 c s
/-- RTGO_COLONY_WRITE (R376, R385). -/
def execRtgoColonyWrite (c : CtxId) (s : State) : Step := rtWriteEvent 5 c s
/-- RTGO_PARTITION_READ (R375, R385). -/
def execRtgoPartitionRead (c : CtxId) (s : State) : Step := rtReadEvent 6 c s
/-- RTGO_LPCT_READ (R380, R385). -/
def execRtgoLpctRead (c : CtxId) (s : State) : Step := rtReadEvent 7 c s
/-- RTGO_ENGINE_READ (R384, R385). -/
def execRtgoEngineRead (c : CtxId) (s : State) : Step := rtReadEvent 8 c s
/-- RTGO_GRANULE_READ (R384, R385). -/
def execRtgoGranuleRead (c : CtxId) (s : State) : Step := rtReadEvent 9 c s

/-- RTGO_REFUSED (R385, R386): a refused operation changes nothing but RTSTAT. -/
def execRtgoRefused (c : CtxId) (s : State) : Step :=
  let x := s.ctx c
  let p := c.vt.part
  .next (if !s.rtReady c then s
    else if x.rtgo = 1 then
      match s.rtRead p x.rtsel with
      | .ok _ => s
      | .error n => s.rtDone c n []
    else if x.rtgo = 2 then
      match s.rtWrite p x with
      | .ok _ => s
      | .error n => s.rtDone c n []
    else s.rtDone c 3 [])

end Sys2Proof.Machine
end

