-- ==== Sys2Proof/Machine/Tenant.lean ====
section
/-! DEFINITION. Requests about partitions and their colonies (R3, R13 to R18, R27, R239, R246, R382, R429, R447 to R450,
R452 to R454). -/

namespace Sys2Proof.Machine

/-! ### Creating a partition (R447) -/

/-- Whether a tile can be given to a new partition. -/
def State.tileFree (s : State) (t : Nat) : Bool := decide ((s.tile t).owner = none) && decide ((s.tile t).vtile = none)

/-- A tile changes hands (R14): what its router buffered and its NI translated is gone, its quads are powered, its engine is
named. -/
def State.giveTile (s : State) (t : Nat) (p : Option Nat) (die : Option Nat) : State :=
  s.modTile t (fun x => { x with
    owner := p, engine := die, saveBuf := [], ni := []
    quads := x.quads.map (fun e => (e.1, { e.2 with power := .awake, idle := 0, wake := 0 })) })

/-- A granule is given to a partition, in grade S (R384). -/
def State.giveGranule (s : State) (p g : Nat) (sys : Bool) : State :=
  { s with granules := NMap.set 0 s.granules g (BitVec.ofNat 8 (p + 16 + sys.toNat * 128)) }

/-- The status of a request to create a partition. -/
def State.newStatus (s : State) (a : NewPart) : Nat :=
  let ts := a.tiles ++ a.curTiles
  let gs := a.granules ++ a.sys
  if !ts.all (fun t => decide (t < s.form.tiles) && (s.tile t).working && !(s.tile t).retired) ∨
     !gs.all (fun g => decide (g * 65536 < s.hbmEnd)) ∨ !a.dies.all (fun d => decide (d * 64 < s.form.tiles)) ∨
     !a.engines.all (fun (t, d) => decide (t ∈ ts) && decide (d ∈ a.dies)) ∨ 63 < a.curcol ∨ a.parkcap < 2 ^ 20 ∨
     a.imgKey.length ≠ 96 then 9
  else if !ts.all s.tileFree ∨ !gs.all (fun g => !(NMap.get 0 s.granules g).getLsbD 4) ∨
     !a.dies.all (fun d => decide (NMap.get none s.dies d = none)) then 1
  else 0

/-- CREATE_PARTITION (R375, R447): the tiles, granules, engines and key of the request, the granules counted in GRANULES; the
partition runs. -/
def execCreatePartition (f : Nat) (a : NewPart) (s : State) : Step :=
  s.request f .pfOnly (fun ws => decide (reqOp ws = 1)) (fun tag _ s =>
    if s.newStatus a ≠ 0 then s.respond f tag (s.newStatus a) []
    else match firstFrom (fun p => !(s.part p).valid) 16 0 with
      | none => s.respond f tag 8 []
      | some p =>
        let die (t : Nat) : Option Nat := (a.engines.find? (fun e => decide (e.1 = t))).map (·.2)
        let s := (a.tiles ++ a.curTiles).foldl (fun (s : State) t => s.giveTile t (some p) (die t)) s
        let s := a.granules.foldl (fun (s : State) g => s.giveGranule p g false) s
        let s := a.sys.foldl (fun (s : State) g => s.giveGranule p g true) s
        let s := a.dies.foldl (fun (s : State) d => { s with dies := NMap.set none s.dies d (some p) }) s
        let q : Part := { valid := true, state := 1, curcol := a.curcol, curTiles := a.curTiles, parkcap := a.parkcap
                          imgKey := a.imgKey, key := some (Config.randomKey p s.time), logLast := s.time
                          granules := min (2 ^ 26 - 1) (s.granulesOf p).length }
        (s.modPart p (fun _ => q)).respond f tag 0 [BitVec.ofNat 64 p])

/-! ### Freeing and repartitioning (R14, R27, R245, R295) -/

/-- A request that ends with a stop is under way. -/
def State.addTransfer (s : State) (x : Transfer) : State := ({ s with transfers := s.transfers ++ [x] } : State).holdReq x.func x.tag

/-- FREE_PARTITION (R447): the stop begins; the rest follows it. -/
def execFreePartition (f p : Nat) (s : State) : Step :=
  s.request f .pfOnly (fun ws => decide (reqOp ws = 2)) (fun tag _ s =>
    if !(s.part p).valid then s.respond f tag 5 []
    else if s.transfers.any (fun x => decide (x.part = p) || decide (x.what = .move p)) then s.respond f tag 1 []
    else
      let s := (s.modPart p (fun q => { q with state := 0 })).stopAll p .free
      s.addTransfer ⟨f, tag, p, .free, [], [], []⟩)

/-- The gangs that stand on some tiles, or are being placed there, stop or are abandoned. -/
def State.clearTiles (s : State) (p : Nat) (ts : List Nat) (why : StopWhy) : State :=
  ((ts.filterMap (fun t => (s.tile t).vtile)).map s.gangOf).foldl (fun (s : State) g =>
    let u := s.unitOf g
    if (s.gang g).placing then s.abandonPlacing u else s.requestStop p u why) s

/-- The tiles whose gangs a repartitioning stops (R27, R295): those that move, and those that stay and change their engine. -/
def State.concerned (s : State) (tiles dies : List Nat) (engines : List (Nat × Nat)) : List Nat :=
  tiles ++ ((s.tiles.map (·.1)).filter (fun t => !decide (t ∈ tiles) &&
    (engines.any (fun e => decide (e.1 = t) && decide ((s.tile t).engine ≠ some e.2)) ||
      ((s.tile t).engine.map (fun d => decide (d ∈ dies))).getD false)))

/-- Whom a repartitioning takes tiles and dies from: a partition, or with a number above the partitions' the pool of what
belongs to none (the model's reading, log entry 51). -/
def giver (p : Nat) : Option Nat := if p < 16 then some p else none

/-- Whether the tiles of a repartitioning can be given: the giver's, or working ones that belong to no partition. -/
def State.tilesFit (s : State) (p : Nat) (tiles : List Nat) : Bool :=
  tiles.all (fun t => decide ((s.tile t).owner = giver p) && ((giver p).isSome || (decide (t < s.form.tiles) &&
    s.tileFree t && (s.tile t).working && !(s.tile t).retired)))

/-- Whether the dies and engines of a repartitioning fit: the dies are the giver's, and each engine named lies in a die that
the tile's partition then owns (R295, R384). -/
def State.enginesFit (s : State) (p q : Nat) (tiles dies : List Nat) (engines : List (Nat × Nat)) : Bool :=
  dies.all (fun d => decide (NMap.get none s.dies d = giver p) && decide (d * 64 < s.form.tiles)) &&
  engines.all (fun (t, d) =>
    let own := if t ∈ tiles then some q else (s.tile t).owner
    decide (own = (if d ∈ dies then some q else NMap.get none s.dies d)) && own.isSome)

/-- REPARTITION (R27, R295): the gangs on the tiles that move, or that change their engine, are stopped; tiles, dies and
engines change after the stop. -/
def execRepartition (f p q : Nat) (h : Handover) (s : State) : Step :=
  s.request f .pfOnly (fun ws => decide (reqOp ws = 3)) (fun tag _ s =>
    if (p < 16 ∧ !(s.part p).valid) ∨ !(s.part q).valid ∨ p = q ∨ !s.tilesFit p h.tiles ∨
       !s.enginesFit p q h.tiles h.dies h.engines then
      s.respond f tag 5 []
    else if s.transfers.any (fun x => (decide (x.what = .free) && (decide (x.part = p) || decide (x.part = q))) ||
        x.tiles.any (fun t => decide (t ∈ h.tiles))) then s.respond f tag 1 []
    else
      let ts := s.concerned h.tiles h.dies h.engines
      let of (r : Nat) : List Nat := ts.filter (fun t => decide ((s.tile t).owner = some r))
      let s := (List.range 16).foldl (fun (s : State) r => s.clearTiles r (of r) .repartition) s
      s.addTransfer ⟨f, tag, p, .move q, h.tiles, h.dies, h.engines⟩)

/-- Tiles have changed hands: gangs that no longer fit leave the queue and are told of (R104, R352), held summonses of the
other side act. -/
def State.endMove (s : State) (x : Transfer) (q : Nat) : State :=
  let before := s.shortGangs x.part
  let s := { s with dies := x.dies.foldl (fun m d => NMap.set none m d (some q)) s.dies }
  let die (t : Nat) : Option Nat := (x.engines.find? (fun e => decide (e.1 = t))).map (·.2)
  let stay := (s.concerned x.tiles x.dies x.engines).filter (fun t => !decide (t ∈ x.tiles))
  let s := stay.foldl (fun (s : State) t => s.modTile t (fun y => { y with engine := die t })) s
  let s := x.tiles.foldl (fun (s : State) t => s.giveTile t (some q) (die t)) s
  let s := if 16 ≤ x.part then s
    else s.modPart x.part (fun r => { r with curTiles := r.curTiles.filter (fun t => !decide (t ∈ x.tiles)) })
  (s.tellShort x.part (x.tiles.headD 0) before).retrySummons q

/-- The granules of a partition are cleared and free (R245). -/
def State.freeGranules (s : State) (p : Nat) : State :=
  let gs := s.granulesOf p
  { s with
    written := s.written.filter (fun g => !decide (g ∈ gs)), zeroing := s.zeroing.filter (fun g => !decide (g ∈ gs))
    granules := s.granules.filter (fun e => !decide (e.1 ∈ gs))
    regrades := s.regrades.filter (fun r => !decide (r.gran ∈ gs)) }

/-- The end of a freed partition (R14, R245, R430): the final record, the handover, its key. -/
def State.endFree (s : State) (p : Nat) : State :=
  let s := s.closeRecord p 3
  let ks := (s.colonies.filter (fun e => decide (e.1.1 = p))).map (·.1.2)
  let s := ks.foldl (fun (s : State) k => s.dropColony p k) s
  let s := (s.ownedTiles p).foldl (fun (s : State) t => s.giveTile t none none) s
  let s := s.freeGranules p
  let lost := s.grants.filter (fun g => decide (g.part = p))
  let s := { s with
    dies := s.dies.filter (fun e => decide (e.2 ≠ some p)), hqs := s.hqs.filter (fun e => decide (e.2.part ≠ p))
    grants := s.grants.filter (fun g => decide (g.part ≠ p)), net := s.net.filter (fun k => decide (k.src.vt.part ≠ p)) }
  let s := lost.foldl (fun (s : State) g => s.respond p g.tag 7 []) s
  let s := s.modFunc p (fun x => { x with windows := [] })
  let s := match (s.func p).busy with
    | some t => s.answer p t 7 []
    | none => s
  s.modPart p (fun q => { freed := true, records := q.records, recSeq := q.recSeq, lastHash := q.lastHash })

/-- A request that waits for a stop ends with it; the freeing of a partition also waits for the completions of host packets that
home has not performed yet (R300). -/
def State.settleTransfer (s : State) (x : Transfer) : State :=
  let done : Bool := match x.what with
    | .free => !s.stops.any (fun h => decide (h.part = x.part)) && !s.ends.any (fun e => decide (e.ctx.vt.part = x.part))
    | .move _ => (s.concerned x.tiles x.dies x.engines).all (fun t => decide ((s.tile t).vtile = none))
    | .retire => x.tiles.all (fun t => decide ((s.tile t).vtile = none))
  if !done then s
  else
    let s := { s with transfers := s.transfers.filter (fun y => decide (y ≠ x)) }
    let s := match x.what with
      | .free => s.endFree x.part
      | .move q => s.endMove x q
      | .retire => s
    s.answer x.func x.tag 0 []

/-! ### Parameters (R448) -/

/-- A request 0x04 with a parameter code: its layout and its range are checked, then its partition. -/
def setParam (f code : Nat) (ok : State → Nat → Nat → Bool) (g : Nat → Nat → State → State) (s : State) : Step :=
  s.request f .pfOnly (fun ws => decide (reqOp ws = 4) && decide (fld (argW ws 1) 0 8 = code)) (fun tag ws s =>
    let w := argW ws 1
    let p := fld w 8 4
    let v := argW ws 2
    if w / 2 ^ 12 ≠ 0 ∨ !zeroFrom ws 3 ∨ !ok s p v then s.respond f tag 9 []
    else if !(s.part p).valid then s.respond f tag 5 []
    else (g p v s).respond f tag 0 [])

/-- SET_SAVETO (R448). -/
def execSetSaveto (f : Nat) (s : State) : Step :=
  setParam f 1 (fun _ _ v => decide (100 ≤ v) && decide (v ≤ 100000)) (fun p v s => s.modPart p (fun q => { q with saveto := v })) s

/-- Under a new quantum each gang of a partition reaches its quantum anew (R351, R352). -/
def State.newQuantum (s : State) (p : Nat) : State :=
  { s with gangs := s.gangs.map (fun e => if e.1.part = p then (e.1, { e.2 with expired := false }) else e) }

/-- SET_QUANTUM (R351, R448). -/
def execSetQuantum (f : Nat) (s : State) : Step :=
  setParam f 2 (fun _ _ v => decide (1 ≤ v) && decide (v ≤ 1000)) (fun p v s => (s.modPart p (fun q => { q with quantum := v })).newQuantum p) s

/-- SET_FQUOTA (R320, R448): spawns that wait for the quota are admitted as the count falls. -/
def execSetFquota (f : Nat) (s : State) : Step :=
  setParam f 3 (fun _ _ v => decide (1 ≤ v) && decide (v ≤ 2 ^ 24)) (fun p v s => s.modPart p (fun q => { q with fquota := v })) s

/-- SET_RATE (R424, R448). -/
def execSetRate (f : Nat) (s : State) : Step :=
  setParam f 4 (fun s p v => decide (v < 2 ^ 24) && (decide (v = 0) || decide (v ≤ (s.part p).depth)))
    (fun p v s => s.modPart p (fun q => { q with rate := v })) s

/-- SET_DEPTH (R424, R448): at least RATE when RATE is not 0. -/
def execSetDepth (f : Nat) (s : State) : Step :=
  setParam f 5 (fun s p v => decide (v < 2 ^ 32) && decide ((s.part p).rate ≤ v))
    (fun p v s => s.modPart p (fun q => { q with depth := v })) s

/-- SET_LEND (R426, R448). -/
def execSetLend (f : Nat) (s : State) : Step :=
  setParam f 6 (fun _ _ v => decide (v < 2)) (fun p v s => s.modPart p (fun q => { q with lend := decide (v = 1) })) s

/-- SET_POWER_CAP (R435, R448): the sum of the caps stays within the module's limit. -/
def execSetPowerCap (f : Nat) (s : State) : Step :=
  setParam f 7 (fun s p v =>
      let others := (s.parts.filter (fun e => decide (e.1 ≠ p))).map (fun e => e.2.cap.getD 0)
      decide (others.foldl (· + ·) v ≤ s.powerLimit))
    (fun p v s => s.modPart p (fun q => { q with cap := some v })) s

/-- SET_LOG_INTERVAL (R430, R448). -/
def execSetLogInterval (f : Nat) (s : State) : Step :=
  setParam f 8 (fun _ _ v => decide (10 ≤ v) && decide (v ≤ 60000)) (fun p v s => s.modPart p (fun q => { q with logInt := v })) s

/-- SET_SUMMON_POLICY (R376, R448): of a live colony. -/
def execSetSummonPolicy (f : Nat) (s : State) : Step :=
  s.request f .pfOnly (fun ws => decide (reqOp ws = 4) && decide (fld (argW ws 1) 0 8 = 9)) (fun tag ws s =>
    let w := argW ws 1
    let p := fld w 8 4
    let k := fld w 12 6
    let v := argW ws 2
    if w / 2 ^ 18 ≠ 0 ∨ !zeroFrom ws 3 ∨ 1 < v then s.respond f tag 9 []
    else if !(s.part p).valid ∨ !(s.colony p k).live then s.respond f tag 5 []
    else (s.modColony p k (fun c => { c with summon := decide (v = 1) })).respond f tag 0 [])

/-- SET_SCALE_OUT_PORT_MODE (R448, R455): the mode waits until the port carries no message. -/
def execSetScaleOutPortMode (f : Nat) (s : State) : Step :=
  s.request f .pfOnly (fun ws => decide (reqOp ws = 4) && decide (fld (argW ws 1) 0 8 = 10)) (fun tag ws s =>
    let w := argW ws 1
    let i := fld w 18 5
    let v := argW ws 2
    if w / 2 ^ 23 ≠ 0 ∨ fld w 8 10 ≠ 0 ∨ !zeroFrom ws 3 ∨ 1 < v ∨ 23 < i then s.respond f tag 9 []
    else
      let x := NMap.get {} s.ports24 i
      ({ s with ports24 := NMap.set {} s.ports24 i { x with want := some (v, tag) } } : State).holdReq f tag)

/-- SCALE_OUT_MODE_APPLIED (R448): the port carries no message, and no launch packet waits that came by it; the mode is applied
and the request answered. -/
def execScaleOutModeApplied (i : Nat) (s : State) : Step :=
  match (NMap.get {} s.ports24 i).want with
  | none => .next s
  | some (v, tag) => .next (if (NMap.get {} s.ports24 i).pkts ≠ [] then s else ({ s with ports24 := NMap.set {} s.ports24 i { mode := v } } : State).answer pf tag 0 [])

/-! ### Memory (R239, R242, R246) -/

/-- GRADE_CHANGE (R242): answered when the granule has been encoded again. -/
def execGradeChange (f g grade : Nat) (s : State) : Step :=
  s.request f .vfOnly (fun ws => decide (reqOp ws = 6)) (fun tag _ s =>
    if 2 < grade then s.respond f tag 9 []
    else if !s.holdsGranule f g then s.respond f tag 5 []
    else if (NMap.get 0 s.granules g).getLsbD 7 then s.respond f tag 6 []
    else if s.regrades.any (fun r => decide (r.gran = g)) then s.respond f tag 1 []
    else ({ s with regrades := s.regrades ++ [⟨g, grade, f, tag⟩] } : State).holdReq f tag)

/-- KEY_CHANGE (R246, R447): answered at its start. -/
def execKeyChange (f : Nat) (s : State) : Step :=
  s.request f .vfOnly (fun ws => decide (reqOp ws = 7)) (fun tag _ s =>
    if (s.part f).newkey.isSome then s.respond f tag 1 []
    else
      let s := s.modPart f (fun q => { q with newkey := some (Config.randomKey f s.time), rekeyed := [] })
      (s.respond f tag 0 []).settleKey f)

/-- The vtile number that stands for a colony's galleries at the loader. -/
def galleryVt (p k : Nat) : VtId := ⟨p, k, 512, 512⟩

/-- The physical page of a gallery page. -/
def galleryPage (p k vpn : Nat) : Nat := Config.loaderPage p k 512 512 vpn

/-- Whether a page table of a colony maps a page (R239). -/
def State.pageMapped (s : State) (p k va : Nat) : Bool :=
  (s.colonyVts p k).any (fun v =>
    let root := (s.vtile v).root
    decide (root ≠ 0) && (match s.walkFrom p va 6 (root * 512) 0 with
      | .leaf _ _ _ => true
      | .fault _ _ => false))

/-- The lines of some gallery pages leave the data caches of a colony's tiles (R239). -/
def State.dropGallery (s : State) (p k : Nat) (pages : List Nat) : State :=
  let hit (l : Line) : Bool := pages.any (fun n => decide (l.tag / 64 = galleryPage p k n))
  { s with cores := s.cores.map (fun e =>
      if e.1.vt.part = p ∧ e.1.vt.col = k then (e.1, { e.2 with cache := e.2.cache.filter (fun l => !hit l) }) else e) }

/-- Whether the request that a function comes to has an opcode and passes the checks before its own. -/
def State.comesTo (s : State) (f : Nat) (who : From) (op : Nat) : Bool :=
  match s.headReq f with
  | some ws => decide (reqOp ws = op) && decide (s.reqStatus f who ws = 0)
  | none => false

/-- GALLERY_WRITE (R239): busy while a page table of the colony maps a page of the region; taken once home serves the write
(R245). -/
def execGalleryWrite (f col addr : Nat) (bs : List Byte) (s : State) : Step :=
  if s.comesTo f .vfOnly 9 && !s.loadFree (galleryVt f col) addr bs.length then .next s
  else s.request f .vfOnly (fun ws => decide (reqOp ws = 9)) (fun tag _ s =>
    let n := bs.length
    let pages := (List.range ((addr % 4096 + n + 4095) / 4096)).map (fun i => addr / 4096 + i)
    if addr < 0x800000000000 ∨ 0x1000000000000 < addr + n then s.respond f tag 9 []
    else if !(s.colony f col).live then s.respond f tag 5 []
    else if pages.any (fun v => s.pageMapped f col (v * 4096)) then s.respond f tag 1 []
    else ((s.dropGallery f col pages).loadHeap (galleryVt f col) addr bs).respond f tag 0 [])

/-! ### Launching a colony (R3, R15, R450) -/

/-- The colony entry of an image (R376). -/
def colonyOf (i : Img) (img : List Byte) : Colony :=
  { live := true, cores := decide (i.flags % 2 = 1), reqmask := BitVec.ofNat 64 i.mask, gridX := i.gx, gridY := i.gy
    gangs := i.gangs, digest := sha384 img, image := img }

/-- The gangs of an image that contain an entry vtile, in ascending number (R15). -/
def Img.entryGangs (i : Img) : List Nat :=
  (List.range i.gangs).filter (fun g => (gridOf i.gx i.gy).any (fun (x, y) =>
    decide (i.gangOf x y = g) && (i.entryOf x y).isSome))

/-- A colony is set up and queued; the curator colony takes its tree channel now (R18, R418). -/
def State.launch (s : State) (p k : Nat) (img : List Byte) : State :=
  let i := imgOf img
  let s := { s with
    colonies := AMap.put s.colonies (p, k) (colonyOf i img)
    gangs := (List.range i.gangs).foldl (fun (m : AMap GangId Gang) g => AMap.put m ⟨p, k, g⟩ {}) s.gangs }
  let s := (gridOf i.gx i.gy).foldl (fun (s : State) (x, y) => s.setupVt i ⟨p, k, x, y⟩) s
  let s := (i.secs.filter (fun c => decide (c.kind = 4))).foldl (fun (s : State) c =>
    s.loadHeap (galleryVt p k) c.addr c.bytes) s
  let s := s.modPart p (fun q => { q with launched := q.launched ++ [k] })
  if (s.part p).curcol = k then
    match (if s.treeWait = [] then s.freeTree else none) with
    | some n => s.modColony p k (fun c => { c with tree := some n })
    | none => s.waitTree p k
  else i.entryGangs.foldl (fun (s : State) g =>
    if (s.gang ⟨p, k, g⟩).st = .absent then s.enqueue p (s.entryOf ⟨p, k, g⟩) false else s) s

/-- Whether home serves the loading of every heap and gallery section of an image that becomes colony k (R245). -/
def State.imageFree (s : State) (p k : Nat) (i : Img) : Bool :=
  i.secs.all (fun c =>
    if c.kind = 4 then s.loadFree (galleryVt p k) c.addr c.bytes.length
    else decide (c.kind ≠ 3) || (gridOf i.gx i.gy).all (fun (x, y) => match i.vts[c.vt]? with
      | some r => !r.covers x y || s.loadFree ⟨p, k, x, y⟩ c.addr c.bytes.length
      | none => true))

/-- Whether a launch that no check refuses has to wait for home (R245). -/
def State.launchWaits (s : State) (f : Nat) (img : List Byte) : Bool :=
  s.comesTo f .vfOnly 8 && (match firstFrom (fun k => !(s.colony f k).live) 64 0 with
    | none => false
    | some k => !s.imageFree f k (imgOf img) && decide (imgStatus (s.part f).imgKey img = 0) && s.imgFits f k (imgOf img))

/-- LAUNCH_IMAGE (R450): the image is checked by R77 under the tenant's key and by R3, and launched as the lowest colony
index that is free, once home serves what it loads. -/
def execLaunchImage (f : Nat) (img : List Byte) (s : State) : Step :=
  if s.launchWaits f img then .next s
  else s.request f .vfOnly (fun ws => decide (reqOp ws = 8)) (fun tag _ s =>
    let st := imgStatus (s.part f).imgKey img
    if st ≠ 0 then s.respond f tag st []
    else match firstFrom (fun k => !(s.colony f k).live) 64 0 with
      | none => s.respond f tag 8 []
      | some k =>
        if !s.imgFits f k (imgOf img) then s.respond f tag 4 []
        else (s.launch f k img).respond f tag 0 [BitVec.ofNat 64 k])

/-! ### The curator colony's held contexts (R93, R448) -/

/-- The context that a request 0x0A names, where it is held under the HSEQ quoted. -/
def State.heldCtx (s : State) (p : Nat) (ws : List Word) : Option CtxId :=
  match s.namedCtx p (s.part p).curcol (argW ws 2) 0 with
  | none => none
  | some c => if (s.ctx c).st = .parked ∧ (s.ctx c).parked.hseq = some (fld (argW ws 1) 32 32) then some c else none

/-- Whether request 0x0A, with opcode op, keeps to its layout (R89, R448). -/
def curClean (op : Nat) (ws : List Word) : Bool :=
  decide (fld (argW ws 1) 0 8 = op) && decide (fld (argW ws 1) 8 24 = 0) && word1Ok (argW ws 2) && zeroFrom ws 3

/-- A request 0x0A. -/
def curatorCommand (f : Nat) (mine : Nat → Bool) (op : Nat) (g : CtxId → State → State) (s : State) : Step :=
  s.request f .vfOnly (fun ws => decide (reqOp ws = 0x0A) && mine (fld (argW ws 1) 0 8)) (fun tag ws s =>
    if !curClean op ws then s.respond f tag 9 []
    else match s.heldCtx f ws with
      | none => s.respond f tag 5 []
      | some c => (g c s).respond f tag 0 [])

/-- CURATOR_COLONY_RESUME (R448); any opcode but resume and remove is refused here. -/
def execCuratorColonyResume (f : Nat) (s : State) : Step :=
  curatorCommand f (fun n => decide (n ≠ 3)) 1 (fun c s => s.unpark c (fun x => x)) s

/-- Whether the request 0x0A at the head of a function's ring removes a context whose release H has no room for (R413), or
which ends a bulk transfer with a context that is being moved (R380). -/
def State.removalWaits (s : State) (f : Nat) : Bool :=
  match s.headReq f with
  | none => false
  | some ws => decide (reqOp ws = 0x0A) && decide (s.reqStatus f .vfOnly ws = 0) && curClean 3 ws && (match s.heldCtx f ws with
    | some c => !s.acquireRoom c || s.cutMoves c
    | none => false)

/-- CURATOR_COLONY_REMOVE (R448): taken once H has room for the release with which the process ends (R413). -/
def execCuratorColonyRemove (f : Nat) (s : State) : Step :=
  if s.removalWaits f then .next s
  else curatorCommand f (fun n => decide (n = 3)) 3 (fun c s => s.removeProcess c) s

/-! ### Channel grants (R382, R453) -/

/-- Whether two sides of a grant are mirrors. -/
def mirrors (p : Nat) (a : Grant) (q : Nat) (b : Grant) : Bool :=
  decide (a.other = q) && decide (b.other = p) &&
  (decide (a.otherCol = none) || decide (a.otherCol = some b.col)) &&
  (decide (b.otherCol = none) || decide (b.otherCol = some a.col))

/-- The entry that a side of a grant gets at its vtile (R382). -/
def grantEntry (a : Grant) : Word :=
  BitVec.ofNat 64 (1 + a.otherCol.isNone.toNat * 2 + 4 + (a.otherCol.getD 0) * 2 ^ 8 + a.other * 2 ^ 16)

/-- The vtile of a side. -/
def grantVt (p : Nat) (a : Grant) : VtId := ⟨p, a.col, a.x, a.y⟩

/-- The lowest free entry of a vtile's permission table. -/
def State.freePerm (s : State) (v : VtId) : Option Nat :=
  firstFrom (fun i => !(NMap.get 0 (s.vtile v).perms i).getLsbD 0) 32 0

/-- Write a side's entry. -/
def State.grantPerm (s : State) (v : VtId) (i : Nat) (w : Word) : State :=
  s.modVt v (fun x => { x with perms := NMap.set 0 x.perms i w })

/-- CHANNEL_GRANT (R453): the first side waits 10 s for its mirror; the second writes both entries. -/
def execChannelGrant (f : Nat) (a : Grant) (s : State) : Step :=
  s.request f .vfOnly (fun ws => decide (reqOp ws = 0x0D)) (fun tag _ s =>
    if !(s.part a.other).valid ∨ a.other = f ∨ 15 < a.other ∨ !(s.colony f a.col).live ∨ !(s.vtile (grantVt f a)).exist ∨
       !(match a.otherCol with
         | some k => (s.colony a.other k).live
         | none => true) then s.respond f tag 5 []
    else match s.grants.find? (fun g => mirrors f a g.part g.g && (s.vtile (grantVt g.part g.g)).exist) with
      | none => ({ s with grants := s.grants ++ [⟨tag, f, a, s.time + 6000000000⟩] } : State).respond f tag 10 []
      | some g =>
        let s := { s with grants := s.grants.filter (fun x => decide (x ≠ g)) }
        let (st, s) := match s.freePerm (grantVt f a), s.freePerm (grantVt g.part g.g) with
          | some i, some j => (0, (s.grantPerm (grantVt f a) i (grantEntry a)).grantPerm (grantVt g.part g.g) j (grantEntry g.g))
          | _, _ => (8, s)
        (s.respond g.part g.tag st []).respond f tag st [])

/-- CHANNEL_GRANT_LAPSE (R449, R453): no mirror came within 10 s. -/
def execChannelGrantLapse (f : Nat) (s : State) : Step :=
  match s.grants.find? (fun g => decide (g.part = f) && decide (g.until_ ≤ s.time)) with
  | none => .next s
  | some g => .next (({ s with grants := s.grants.filter (fun x => decide (x ≠ g)) } : State).hostEvent f
      [8, BitVec.ofNat 64 g.g.other, BitVec.ofNat 64 g.g.col, BitVec.ofNat 64 (g.g.x + g.g.y * 2 ^ 16)])

/-! ### Reports, quotes and the log (R452, R454, R455) -/

/-- The device writes bytes to host memory. -/
def State.dmaOut (s : State) (f a : Nat) (bs : List Byte) : State := s.modFunc f (fun x => { x with dma := x.dma ++ [(a, bs)] })

/-- The first 0xB0 bytes of a quote (R452). -/
def State.quoteBody (s : State) (f : Nat) (nonce : List Byte) : List Byte :=
  let vf := decide (f ≠ pf)
  let digests := (s.part f).launched.flatMap (fun k => (s.colony f k).digest)
  leBytes 4 0x41545351 ++ leBytes 2 1 ++ leBytes 1 (if vf then f else 0xFF) ++ leBytes 1 (s.form.code + s.bin.code * 16) ++
  leBytes 8 s.time ++ leBytes 8 (if vf then (s.part f).keyepoch.toNat else 0) ++ leBytes 2 s.dtiles ++
  leBytes 2 (if vf then s.ptilesOf f else Config.quoteTiles) ++ leBytes 4 0 ++ nonce ++ beBytes 48 s.fw.digest ++
  (if vf then sha384 digests else leBytes 48 0)

/-- ATTESTATION_QUOTE (R451, R452): the quote and the certificate chain go to the buffer; during an activation it
waits. -/
def execAttestationQuote (f : Nat) (nonce : List Byte) (buf : Nat) (s : State) : Step :=
  if s.upkeep.activating then .next s
  else s.request f .both (fun ws => decide (reqOp ws = 0x0E)) (fun tag _ s =>
    if nonce.length ≠ 48 then s.respond f tag 9 []
    else
      let b := s.quoteBody f nonce
      ((s.dmaOut f buf (b ++ signature (beNat (sha384 b)))).dmaOut f (buf + 272) Config.certificate).respond f tag 0 [])

/-- Whether a function may read the log of a partition, as a status of R446. -/
def State.logStatus (s : State) (f p : Nat) : Nat :=
  if f ≠ pf ∧ f ≠ p then 6 else if !(s.part p).valid ∧ !(s.part p).freed then 5 else 0

/-- READ_LOG (R454): entries from a RECSEQ on; with the release flag they leave the ring. -/
def execReadLog (f p seq n : Nat) (release : Bool) (buf : Nat) (s : State) : Step :=
  s.request f .both (fun ws => decide (reqOp ws = 0x0F)) (fun tag _ s =>
    let st := s.logStatus f p
    if st ≠ 0 then s.respond f tag st []
    else
      let rs := ((s.part p).records.filter (fun r => decide (seq ≤ r.seq))).take n
      let s := s.dmaOut f buf (rs.flatMap (fun r => r.entry p))
      let s := if release then s.modPart p (fun q => { q with records := q.records.filter (fun r => !decide (r ∈ rs)) }) else s
      s.respond f tag 0 [BitVec.ofNat 64 rs.length])

/-- CLOSE_RECORD (R430): a record of kind 1, where the ring has room. -/
def execCloseRecord (f : Nat) (r : RecordRef) (s : State) : Step :=
  s.request f .both (fun ws => decide (reqOp ws = 0x0F)) (fun tag _ s =>
    let p := r.part
    let st := s.logStatus f p
    if st ≠ 0 then s.respond f tag st []
    else if !(s.part p).valid then s.respond f tag 7 []
    else if r.named.isSome then
      let n := r.named.getD 0
      if (s.part p).records.any (fun r => decide (r.seq = n)) then (s.signRecord p n).respond f tag 0 []
      else s.respond f tag 5 []
    else if s.logFull p then s.respond f tag 8 []
    else (s.closeRecord p 1).respond f tag 0 [])

/-- The entry of a gang in a report (R455). -/
def State.gangEntry (s : State) (g : GangId) : List Byte :=
  let x := s.gang g
  let st := match x.st with
    | .absent => 0
    | .queued => 1
    | .resident => 2
    | .lost => if x.stopping then 2 else 3
  leBytes 8 (g.part * 2 ^ 60 + g.col * 2 ^ 54 + g.gang * 2 ^ 42 + st * 2 ^ 40 + (s.vtilesOf [g]).length * 2 ^ 24)

/-- A report (R455): to a virtual function its own partition's gangs, to the physical one all. -/
def State.report24 (s : State) (f seq status : Nat) (list : Bool) : List Byte :=
  let gs := if list then (s.gangs.map (·.1)).filter (fun g => decide (f = pf) || decide (g.part = f)) else []
  leBytes 8 s.modno ++ leBytes 8 s.time ++ leBytes 4 seq ++ leBytes 4 (status + gs.length * 256) ++ gs.flatMap s.gangEntry

/-- RESIDENCY_REPORT (R455). -/
def execResidencyReport (f buf : Nat) (s : State) : Step :=
  s.request f .both (fun ws => decide (reqOp ws = 0x10)) (fun tag _ s =>
    (s.dmaOut f buf (s.report24 f 0 0 true)).respond f tag 0 [])

/-! ### Peers (R455) -/

/-- A report leaves by a scale-out port. -/
def State.sendReport (s : State) (i : Nat) (bs : List Byte) : State := { s with sent := s.sent ++ [(i, bs)] }

/-- SCALE_OUT_REPORT_REQUEST (R455). -/
def execScaleOutReportRequest (i f : Nat) (s : State) : Step :=
  .next (if 23 < i ∨ pf < f then s else s.sendReport i (s.report24 f 0 0 true))

/-- What becomes of a launch packet that has come by a port (R299, R455): it is refused or dispatched, and answered by a report
with the gangs of its queue's partition; `none` where it waits, for its partition to run or for the quota. -/
def State.peerPacket (s : State) (i : Nat) (k : PeerPacket) : Option State :=
  match s.hq k.q with
  | none => some (s.sendReport i (s.report24 pf k.seq 6 false))
  | some h =>
    let p := h.part
    let done (s : State) (st : Nat) : Option State := some (s.sendReport i (s.report24 p k.seq st true))
    let st := if argW k.ws 0 % 2 = 0 then 9 else s.packetStatus p k.ws
    if !h.scaleout then done s 6
    else if (s.part p).state ≠ 1 then none
    else if st ≠ 0 then done s st
    else if (s.part p).fquota ≤ (s.part p).fcount then none
    else done (s.launchPacket p s.hbmEnd k.ws) 0

/-- The launch packets that wait at a port. -/
def State.putPkts (s : State) (i : Nat) (l : List PeerPacket) : State :=
  { s with ports24 := NMap.set {} s.ports24 i { NMap.get {} s.ports24 i with pkts := l } }

/-- The launch packets that have come by a port go on in the order in which they came, as far as none has to wait. -/
def State.servePeers (s : State) (i : Nat) : List PeerPacket → State
  | [] => s.putPkts i []
  | k :: r =>
    match s.peerPacket i k with
    | some s => State.servePeers s i r
    | none => s.putPkts i (k :: r)

/-- SCALE_OUT_LAUNCH_PACKET (R299, R455): a launch packet for a queue that accepts them; it waits behind those that have come
before by its port. -/
def execScaleOutLaunchPacket (i q seq : Nat) (ws : List Word) (s : State) : Step :=
  .next (if 23 < i ∨ ws.length ≠ 16 then s
    else s.servePeers i ((NMap.get {} s.ports24 i).pkts ++ [⟨q, seq, ws⟩]))

/-! ### Upkeep (R456, R457) -/

/-- A firmware image as bytes give it (R451, R456); its threshold lies between 85 °C and 105 °C (R436). -/
def imageOf (b : List Byte) : Image :=
  { version := Config.firmwareVersion b, digest := beNat (sha384 b)
    threshold := 85 + Config.firmwareThreshold b % 21, model := Config.firmwareModel b }

/-- STAGE_FIRMWARE (R456). -/
def execStageFirmware (f : Nat) (img : List Byte) (s : State) : Step :=
  s.request f .pfOnly (fun ws => decide (reqOp ws = 0x11)) (fun tag _ s =>
    if s.upkeep.activating then s.respond f tag 1 []
    else if !Config.firmwareVerifies img then s.respond f tag 2 []
    else if Config.firmwareVersion img < s.rollback then s.respond f tag 3 []
    else ({ s with staged := some (imageOf img) } : State).respond f tag 0 [])

/-- The rim controllers at work, in ascending number (R1). -/
def State.workingRims (s : State) : List Nat :=
  (List.range (if s.form = .sw2304 then 8 else 1)).filter (fun r => !NSet.mem s.rims r)

/-- Whether the rim controllers are about something that another request waits for. -/
def Upkeep.busy (u : Upkeep) : Bool := u.activating || u.restarting.isSome || u.waiting.isSome

/-- A rim controller restarts (R456, R457): at once where there are others; where it is the only one, once every partition that
runs has stopped. -/
def State.restartRim (s : State) (u : Upkeep) (r : Option Nat) : State :=
  if s.form = .sw2304 then { s with upkeep := { u with restarting := r } }
  else
    let ps := (s.parts.filter (fun e => e.2.valid && decide (e.2.state = 1))).map (·.1)
    ps.foldl State.preempt { s with upkeep := { u with waiting := r, ran := ps } }

/-- The only rim controller restarts when every stop has ended (R456). -/
def State.settleUpkeep (s : State) : State :=
  if s.upkeep.waiting.isSome ∧ s.stops = [] then
    { s with upkeep := { s.upkeep with restarting := s.upkeep.waiting, waiting := none } }
  else s

/-- ACTIVATE_FIRMWARE (R456): the first controller restarts on the staged image; a device with one controller stops every
partition first. -/
def execActivateFirmware (f : Nat) (s : State) : Step :=
  s.request f .pfOnly (fun ws => decide (reqOp ws = 0x12)) (fun tag _ s =>
    if s.upkeep.busy then s.respond f tag 1 []
    else if s.staged.isNone then s.respond f tag 5 []
    else (s.restartRim { activating := true } s.workingRims.head?).respond f tag 0 [])

/-- The six words of a digest. -/
def digestWords (d : Nat) : List Word := (List.range 6).map (fun i => BitVec.ofNat 64 (leAt (beBytes 48 d) (8 * i) 8))

/-- The rim controllers have done what they were about: the partitions that ran before run again (R456). -/
def State.endUpkeep (s : State) : State := s.upkeep.ran.foldl State.resumePart { s with upkeep := {} }

/-- An activation ends (R449, R456). -/
def State.endActivation (s : State) (status : Nat) : State :=
  s.endUpkeep.hostEvent pf ([6, BitVec.ofNat 64 status] ++ digestWords s.fw.digest)

/-- The next controller restarts, or the activation ends: with the staged image, or back on the old one. -/
def State.nextRim (s : State) (u : Upkeep) : State :=
  let rest := if u.back then u.changed else s.workingRims.filter (fun r => !NSet.mem u.changed r)
  match rest with
  | r :: _ => { s with upkeep := { u with restarting := some r } }
  | [] =>
    if u.back then s.endActivation 3
    else match s.staged with
      | some i => ({ s with fw := i, staged := none, rollback := i.version } : State).endActivation 0
      | none => s.endActivation 3

/-- RIM_CONTROLLER_RESTART_DONE (R456, R457). -/
def execRimControllerRestartDone (r : Nat) (s : State) : Step :=
  let u := s.upkeep
  .next (if u.restarting ≠ some r then s
    else if u.activating then
      s.nextRim { u with changed := if u.back then NSet.erase u.changed r else NSet.ins u.changed r, restarting := none }
    else
      match u.asker with
      | some (f, tag) => s.endUpkeep.answer f tag 0 []
      | none => s.endUpkeep)

/-- RIM_CONTROLLER_RESTART_FAILURE (R456): the controller returns to the old image, and those changed follow in turn. -/
def execRimControllerRestartFailure (r : Nat) (s : State) : Step :=
  let u := s.upkeep
  .next (if u.restarting ≠ some r ∨ !u.activating ∨ u.back then s
    else s.nextRim { u with back := true, restarting := none })

/-- RETIRE_TILE (R28, R104, R457): answered when the gang on the tile has been stopped. -/
def execRetireTile (f t : Nat) (s : State) : Step :=
  s.request f .pfOnly (fun ws => decide (reqOp ws = 0x13)) (fun tag _ s =>
    if s.form.tiles ≤ t then s.respond f tag 9 []
    else (s.retireTile t).addTransfer ⟨f, tag, (s.tile t).owner.getD 0, .retire, [t], [], []⟩)

/-- REMAP_HBM_CHANNEL (R241, R457): answered when the last line has been copied. -/
def execRemapHbmChannel (f stack channel : Nat) (s : State) : Step :=
  s.request f .pfOnly (fun ws => decide (reqOp ws = 0x13)) (fun tag _ s =>
    if s.form.stacks ≤ stack ∨ 15 < channel then s.respond f tag 9 []
    else if s.remaps.any (fun r => decide (r.stack = stack)) then s.respond f tag 1 []
    else if NMap.get 0 s.spare stack ≠ 0 then s.respond f tag 8 []
    else (s.startRemap stack channel (some tag)).holdReq f tag)

/-- RESTART_RIM_CONTROLLER (R457): on the active image; the only controller of a device as R456 has it. -/
def execRestartRimController (f r : Nat) (s : State) : Step :=
  s.request f .pfOnly (fun ws => decide (reqOp ws = 0x13)) (fun tag _ s =>
    if r ∉ s.workingRims then s.respond f tag 9 []
    else if s.upkeep.busy then s.respond f tag 1 []
    else (s.restartRim { asker := some (f, tag) } (some r)).holdReq f tag)

/-- RETIRE_RIM_CONTROLLER (R457): busy while a granule on its stacks is given away, or it is the only one. -/
def execRetireRimController (f r : Nat) (s : State) : Step :=
  s.request f .pfOnly (fun ws => decide (reqOp ws = 0x13)) (fun tag _ s =>
    if r ∉ s.workingRims then s.respond f tag 9 []
    else if s.workingRims.length < 2 ∨ s.upkeep.busy ∨
        s.granules.any (fun e => e.2.getLsbD 4 && decide (s.rimOf (e.1 * 65536) = r)) then s.respond f tag 1 []
    else ({ s with rims := NSet.ins s.rims r } : State).respond f tag 0 [])

/-! ### Device reset (R245, R423) -/

/-- DEVICE_RESET: everything but what is fused or repaired for good: the form, faults and retirements of tiles, spares,
failed link ports, retired rim controllers, the firmware in force and its counter, the module's number, the modes of the
scale-out ports (R455). -/
def execDeviceReset (s : State) : Step :=
  .next { State.initial s.form s.bin with
    agenda := s.agenda, tiles := (s.tiles.map (fun e => (e.1,
      ({ working := e.2.working, retired := e.2.retired, wide := e.2.wide, spares := e.2.spares } : Tile)))).filter
        (fun e => decide (e.2 ≠ {}))
    fw := s.fw, rollback := s.rollback, rims := s.rims, spare := s.spare, links := s.links, modno := s.modno
    ports24 := s.ports24.foldl (fun m e => NMap.set {} m e.1 { mode := e.2.mode }) [] }

end Sys2Proof.Machine
end

