-- ==== Sys2Proof/Machine/Vector.lean ====
section
/-! DEFINITION. Registers III: the lane instructions 0x66 to 0x7D (R156 to R177). -/

namespace Sys2Proof.Machine

/-- A lane instruction with a v destination that does not round. -/
def vecInstr (d : VReg) (om : GReg) (f : Ctx → Word → Vec → Vec) (s : State) : Step :=
  .next (s.finish (fun x => x.wv d.toNat (f x (x.mask om) (x.rv d.toNat))))

/-- A lane instruction with a v destination that may draw random numbers. -/
def vecRound (d : VReg) (om : GReg) (f : Ctx → Word → Vec → Vec × Word) (s : State) : Step :=
  .next (s.finish (fun x =>
    let r := f x (x.mask om) (x.rv d.toNat)
    { x.wv d.toNat r.1 with csrng := r.2 }))

/-- R164. -/
def vecArith (op : VOp) (o : VArith) (s : State) : Step :=
  vecRound o.d o.om (fun x m old => laneArith op o.vt o.rm o.sat m old (x.rv o.a.toNat) (x.rv o.b.toNat) 0 x.csrng) s

/-- `vadd` (R164). -/
def execVadd (o : VArith) (s : State) : Step := vecArith .add o s
/-- `vsub` (R164). -/
def execVsub (o : VArith) (s : State) : Step := vecArith .sub o s
/-- `vmul` (R164). -/
def execVmul (o : VArith) (s : State) : Step := vecArith .mul o s
/-- `vfma` (R164). -/
def execVfma (o : VFma) (s : State) : Step :=
  vecRound o.d o.om (fun x m old =>
    laneArith .fma o.vt o.rm o.sat m old (x.rv o.a.toNat) (x.rv o.b.toNat) (x.rv o.c.toNat) x.csrng) s

/-- R164 `vmin`, `vmax`. -/
def vecMinMax (op : VOp) (o : VBin) (s : State) : Step :=
  vecInstr o.d o.om (fun x m old => (laneArith op o.vt .rne false m old (x.rv o.a.toNat) (x.rv o.b.toNat) 0 x.csrng).1) s

/-- `vmin` (R164). -/
def execVmin (o : VBin) (s : State) : Step := vecMinMax .min o s
/-- `vmax` (R164). -/
def execVmax (o : VBin) (s : State) : Step := vecMinMax .max o s
/-- `vabs` (R164). -/
def execVabs (o : VAbs) (s : State) : Step :=
  vecInstr o.d o.om (fun x m old => laneAbs o.vt o.sat m old (x.rv o.a.toNat)) s

/-- R165. -/
def vecBits (f : Nat → Nat → Nat) (o : VBin) (s : State) : Step :=
  vecInstr o.d o.om (fun x m old => laneBits f o.vt m old (x.rv o.a.toNat) (x.rv o.b.toNat)) s

/-- `vand` (R165). -/
def execVand (o : VBin) (s : State) : Step := vecBits (fun a b => a &&& b) o s
/-- `vor` (R165). -/
def execVor (o : VBin) (s : State) : Step := vecBits (fun a b => a ||| b) o s
/-- `vxor` (R165). -/
def execVxor (o : VBin) (s : State) : Step := vecBits (fun a b => a ^^^ b) o s

/-- The shift count of lane i (R166): the lane's own, or one for all from a g register. -/
def Ctx.shiftCount (x : Ctx) (b : VG) (w i : Nat) : Nat :=
  match b with
  | .v r => lane (x.rv r.toNat) w i
  | .g r => (x.rg r.toNat).toNat

/-- `vshl` (R166). -/
def execVshl (o : VShl) (s : State) : Step :=
  vecInstr o.d o.om (fun x m old => laneShift true o.vt o.sat m old (x.rv o.a.toNat) (x.shiftCount o.b o.vt.width)) s
/-- `vshr` (R166). -/
def execVshr (o : VShr) (s : State) : Step :=
  vecInstr o.d o.om (fun x m old => laneShift false o.vt false m old (x.rv o.a.toNat) (x.shiftCount o.b o.vt.width)) s

/-- `vcmp` (R167). -/
def execVcmp (o : VCmp) (s : State) : Step :=
  .next (s.finish (fun x =>
    x.wg o.d.toNat (laneCompare o.cc o.vt (x.mask o.om) (x.rv o.a.toNat) (x.rv o.b.toNat))))

/-- `vsel` (R168). -/
def execVsel (o : VSel) (s : State) : Step :=
  vecInstr o.d o.om (fun x m old => laneSel o.vt m old (x.rv o.a.toNat) (x.rv o.b.toNat) (x.rg o.c.toNat)) s

/-- `vcvt` (R169). -/
def execVcvt (o : VCvt) (s : State) : Step :=
  vecRound o.d o.om (fun x m old => laneCvt o.vt o.dst o.part.toNat o.rm o.sat m old (x.rv o.a.toNat) x.csrng) s

/-- `vred` (R171). -/
def execVred (o : VRed) (s : State) : Step :=
  .next (s.finish (fun x =>
    let r := laneReduce o.op o.vt o.rm o.sat (x.mask o.om) (x.rv o.a.toNat) x.csrng
    { x.wg o.d.toNat r.1 with csrng := r.2 }))

/-- `vscan` (R172). -/
def execVscan (o : VScan) (s : State) : Step :=
  vecRound o.d o.om (fun x m old => laneScan o.op o.vt o.rm o.sat o.ex m old (x.rv o.a.toNat) x.csrng) s

/-- `vbcast` (R173). -/
def execVbcast (o : VBcast) (s : State) : Step :=
  vecInstr o.d o.om (fun x m old => laneBcast o.vt m old (match o.src with
    | .g r => (x.rg r.toNat).toNat
    | .v r k => lane (x.rv r.toNat) o.vt.width k.toNat)) s

/-- `vperm` (R174). -/
def execVperm (o : VBin) (s : State) : Step :=
  vecInstr o.d o.om (fun x m old => lanePerm o.vt m old (x.rv o.a.toNat) (x.rv o.b.toNat)) s

/-- `vslide` (R175). -/
def execVslide (o : VSlide) (s : State) : Step :=
  vecInstr o.d o.om (fun x m old => laneSlide o.vt o.up m old (x.rv o.a.toNat) (x.rv o.b.toNat) (x.rg o.c.toNat)) s

/-- `vfn` (R177). -/
def execVfn (o : VFn) (s : State) : Step :=
  vecRound o.d o.om (fun x m old => laneFn o.fn o.vt o.rm o.sat m old (x.rv o.a.toNat) x.csrng) s

/-- `vmov` (R168). -/
def execVmov (o : VMov) (s : State) : Step :=
  vecInstr o.d o.om (fun x m old => laneMov o.vt m old (x.rv o.a.toNat)) s

/-- The lane index of R176. -/
def Ctx.laneIdx (x : Ctx) (i : LaneIdx) (n : Nat) : Nat :=
  match i with
  | .imm k => k.toNat
  | .g r => (x.rg r.toNat).toNat % n

/-- `vext` (R176). -/
def execVext (o : VExt) (s : State) : Step :=
  .next (s.finish (fun x =>
    x.wg o.d.toNat (laneToReg o.vt (lane (x.rv o.a.toNat) o.vt.width (x.laneIdx o.idx o.vt.lanes)))))

/-- `vins` (R176). -/
def execVins (o : VIns) (s : State) : Step :=
  .next (s.finish (fun x =>
    x.wv o.d.toNat (laneIns o.vt (x.rv o.d.toNat) (x.laneIdx o.idx o.vt.lanes) (x.rg o.a.toNat).toNat)))

end Sys2Proof.Machine
end

