-- ==== Sys2Proof/Machine/Dispatch.lean ====
section
/-! DEFINITION. One arm for every row of the opcode table: the meaning it calls. -/

namespace Sys2Proof.Machine

/-- What an instruction, micro-operation or event does. -/
def exec (i : Instr) (s : State) : Host.Outcome State Fault Refusal :=
  match i with
  | .addReg o => Sys2Proof.Machine.execAddReg o s
  | .addImm16 o => Sys2Proof.Machine.execAddImm16 o s
  | .addImm32 o => Sys2Proof.Machine.execAddImm32 o s
  | .subReg o => Sys2Proof.Machine.execSubReg o s
  | .subImm16 o => Sys2Proof.Machine.execSubImm16 o s
  | .subImm32 o => Sys2Proof.Machine.execSubImm32 o s
  | .mulReg o => Sys2Proof.Machine.execMulReg o s
  | .mulImm16 o => Sys2Proof.Machine.execMulImm16 o s
  | .mulImm32 o => Sys2Proof.Machine.execMulImm32 o s
  | .mulhReg o => Sys2Proof.Machine.execMulhReg o s
  | .mulhImm16 o => Sys2Proof.Machine.execMulhImm16 o s
  | .mulhImm32 o => Sys2Proof.Machine.execMulhImm32 o s
  | .divReg o => Sys2Proof.Machine.execDivReg o s
  | .divImm16 o => Sys2Proof.Machine.execDivImm16 o s
  | .divImm32 o => Sys2Proof.Machine.execDivImm32 o s
  | .remReg o => Sys2Proof.Machine.execRemReg o s
  | .remImm16 o => Sys2Proof.Machine.execRemImm16 o s
  | .remImm32 o => Sys2Proof.Machine.execRemImm32 o s
  | .andReg o => Sys2Proof.Machine.execAndReg o s
  | .andImm16 o => Sys2Proof.Machine.execAndImm16 o s
  | .andImm32 o => Sys2Proof.Machine.execAndImm32 o s
  | .orReg o => Sys2Proof.Machine.execOrReg o s
  | .orImm16 o => Sys2Proof.Machine.execOrImm16 o s
  | .orImm32 o => Sys2Proof.Machine.execOrImm32 o s
  | .xorReg o => Sys2Proof.Machine.execXorReg o s
  | .xorImm16 o => Sys2Proof.Machine.execXorImm16 o s
  | .xorImm32 o => Sys2Proof.Machine.execXorImm32 o s
  | .andnReg o => Sys2Proof.Machine.execAndnReg o s
  | .andnImm16 o => Sys2Proof.Machine.execAndnImm16 o s
  | .andnImm32 o => Sys2Proof.Machine.execAndnImm32 o s
  | .shlReg o => Sys2Proof.Machine.execShlReg o s
  | .shlImm16 o => Sys2Proof.Machine.execShlImm16 o s
  | .shlImm32 o => Sys2Proof.Machine.execShlImm32 o s
  | .shrReg o => Sys2Proof.Machine.execShrReg o s
  | .shrImm16 o => Sys2Proof.Machine.execShrImm16 o s
  | .shrImm32 o => Sys2Proof.Machine.execShrImm32 o s
  | .sarReg o => Sys2Proof.Machine.execSarReg o s
  | .sarImm16 o => Sys2Proof.Machine.execSarImm16 o s
  | .sarImm32 o => Sys2Proof.Machine.execSarImm32 o s
  | .rotReg o => Sys2Proof.Machine.execRotReg o s
  | .rotImm16 o => Sys2Proof.Machine.execRotImm16 o s
  | .rotImm32 o => Sys2Proof.Machine.execRotImm32 o s
  | .minReg o => Sys2Proof.Machine.execMinReg o s
  | .minImm16 o => Sys2Proof.Machine.execMinImm16 o s
  | .minImm32 o => Sys2Proof.Machine.execMinImm32 o s
  | .maxReg o => Sys2Proof.Machine.execMaxReg o s
  | .maxImm16 o => Sys2Proof.Machine.execMaxImm16 o s
  | .maxImm32 o => Sys2Proof.Machine.execMaxImm32 o s
  | .clz o => Sys2Proof.Machine.execClz o s
  | .ctz o => Sys2Proof.Machine.execCtz o s
  | .popc o => Sys2Proof.Machine.execPopc o s
  | .bfx o => Sys2Proof.Machine.execBfx o s
  | .bfi o => Sys2Proof.Machine.execBfi o s
  | .sel o => Sys2Proof.Machine.execSel o s
  | .mov o => Sys2Proof.Machine.execMov o s
  | .liImm16 o => Sys2Proof.Machine.execLiImm16 o s
  | .liImm32 o => Sys2Proof.Machine.execLiImm32 o s
  | .leaOff16 o => Sys2Proof.Machine.execLeaOff16 o s
  | .leaOff32 o => Sys2Proof.Machine.execLeaOff32 o s
  | .ptag o => Sys2Proof.Machine.execPtag o s
  | .pget o => Sys2Proof.Machine.execPget o s
  | .ext o => Sys2Proof.Machine.execExt o s
  | .cmpReg o => Sys2Proof.Machine.execCmpReg o s
  | .cmpImm16 o => Sys2Proof.Machine.execCmpImm16 o s
  | .cmpImm32 o => Sys2Proof.Machine.execCmpImm32 o s
  | .pand o => Sys2Proof.Machine.execPand o s
  | .por o => Sys2Proof.Machine.execPor o s
  | .pxor o => Sys2Proof.Machine.execPxor o s
  | .pnot o => Sys2Proof.Machine.execPnot o s
  | .brNear o => Sys2Proof.Machine.execBrNear o s
  | .brFar o => Sys2Proof.Machine.execBrFar o s
  | .jmpNear o => Sys2Proof.Machine.execJmpNear o s
  | .jmpFar o => Sys2Proof.Machine.execJmpFar o s
  | .jalNear o => Sys2Proof.Machine.execJalNear o s
  | .jalFar o => Sys2Proof.Machine.execJalFar o s
  | .jr o => Sys2Proof.Machine.execJr o s
  | .loop o => Sys2Proof.Machine.execLoop o s
  | .nop => Sys2Proof.Machine.execNop s
  | .fadd o => Sys2Proof.Machine.execFadd o s
  | .fsub o => Sys2Proof.Machine.execFsub o s
  | .fmul o => Sys2Proof.Machine.execFmul o s
  | .fma o => Sys2Proof.Machine.execFma o s
  | .fdiv o => Sys2Proof.Machine.execFdiv o s
  | .fsqrt o => Sys2Proof.Machine.execFsqrt o s
  | .fmin o => Sys2Proof.Machine.execFmin o s
  | .fmax o => Sys2Proof.Machine.execFmax o s
  | .fcmp o => Sys2Proof.Machine.execFcmp o s
  | .fcvt o => Sys2Proof.Machine.execFcvt o s
  | .fclass o => Sys2Proof.Machine.execFclass o s
  | .fsgn o => Sys2Proof.Machine.execFsgn o s
  | .ldOff16 o => Sys2Proof.Machine.execLdOff16 o s
  | .ldOff32 o => Sys2Proof.Machine.execLdOff32 o s
  | .stOff16 o => Sys2Proof.Machine.execStOff16 o s
  | .stOff32 o => Sys2Proof.Machine.execStOff32 o s
  | .ldpOff16 o => Sys2Proof.Machine.execLdpOff16 o s
  | .ldpOff32 o => Sys2Proof.Machine.execLdpOff32 o s
  | .stpOff16 o => Sys2Proof.Machine.execStpOff16 o s
  | .stpOff32 o => Sys2Proof.Machine.execStpOff32 o s
  | .acq o => Sys2Proof.Machine.execAcq o s
  | .rel o => Sys2Proof.Machine.execRel o s
  | .fence o => Sys2Proof.Machine.execFence o s
  | .pwait o => Sys2Proof.Machine.execPwait o s
  | .tlook o => Sys2Proof.Machine.execTlook o s
  | .tset o => Sys2Proof.Machine.execTset o s
  | .tclr o => Sys2Proof.Machine.execTclr o s
  | .mon o => Sys2Proof.Machine.execMon o s
  | .mwait o => Sys2Proof.Machine.execMwait o s
  | .sbr o => Sys2Proof.Machine.execSbr o s
  | .sbw o => Sys2Proof.Machine.execSbw o s
  | .aadd o => Sys2Proof.Machine.execAadd o s
  | .amin o => Sys2Proof.Machine.execAmin o s
  | .amax o => Sys2Proof.Machine.execAmax o s
  | .aand o => Sys2Proof.Machine.execAand o s
  | .aor o => Sys2Proof.Machine.execAor o s
  | .axor o => Sys2Proof.Machine.execAxor o s
  | .aswp o => Sys2Proof.Machine.execAswp o s
  | .acas o => Sys2Proof.Machine.execAcas o s
  | .afadd o => Sys2Proof.Machine.execAfadd o s
  | .vldNoOffset o => Sys2Proof.Machine.execVldNoOffset o s
  | .vldOff32 o => Sys2Proof.Machine.execVldOff32 o s
  | .vstNoOffset o => Sys2Proof.Machine.execVstNoOffset o s
  | .vstOff32 o => Sys2Proof.Machine.execVstOff32 o s
  | .vldxNoOffset o => Sys2Proof.Machine.execVldxNoOffset o s
  | .vldxOff32 o => Sys2Proof.Machine.execVldxOff32 o s
  | .vstxNoOffset o => Sys2Proof.Machine.execVstxNoOffset o s
  | .vstxOff32 o => Sys2Proof.Machine.execVstxOff32 o s
  | .vldfNoOffset o => Sys2Proof.Machine.execVldfNoOffset o s
  | .vldfOff32 o => Sys2Proof.Machine.execVldfOff32 o s
  | .vstfNoOffset o => Sys2Proof.Machine.execVstfNoOffset o s
  | .vstfOff32 o => Sys2Proof.Machine.execVstfOff32 o s
  | .vadd o => Sys2Proof.Machine.execVadd o s
  | .vsub o => Sys2Proof.Machine.execVsub o s
  | .vmul o => Sys2Proof.Machine.execVmul o s
  | .vfma o => Sys2Proof.Machine.execVfma o s
  | .vmin o => Sys2Proof.Machine.execVmin o s
  | .vmax o => Sys2Proof.Machine.execVmax o s
  | .vabs o => Sys2Proof.Machine.execVabs o s
  | .vand o => Sys2Proof.Machine.execVand o s
  | .vor o => Sys2Proof.Machine.execVor o s
  | .vxor o => Sys2Proof.Machine.execVxor o s
  | .vshl o => Sys2Proof.Machine.execVshl o s
  | .vshr o => Sys2Proof.Machine.execVshr o s
  | .vcmp o => Sys2Proof.Machine.execVcmp o s
  | .vsel o => Sys2Proof.Machine.execVsel o s
  | .vcvt o => Sys2Proof.Machine.execVcvt o s
  | .vred o => Sys2Proof.Machine.execVred o s
  | .vscan o => Sys2Proof.Machine.execVscan o s
  | .vbcast o => Sys2Proof.Machine.execVbcast o s
  | .vperm o => Sys2Proof.Machine.execVperm o s
  | .vslide o => Sys2Proof.Machine.execVslide o s
  | .vfn o => Sys2Proof.Machine.execVfn o s
  | .vmov o => Sys2Proof.Machine.execVmov o s
  | .vext o => Sys2Proof.Machine.execVext o s
  | .vins o => Sys2Proof.Machine.execVins o s
  | .mmq o => Sys2Proof.Machine.execMmq o s
  | .mmqg o => Sys2Proof.Machine.execMmqg o s
  | .mzero o => Sys2Proof.Machine.execMzero o s
  | .mld o => Sys2Proof.Machine.execMld o s
  | .mst o => Sys2Proof.Machine.execMst o s
  | .mqz o => Sys2Proof.Machine.execMqz o s
  | .mdq o => Sys2Proof.Machine.execMdq o s
  | .mgeoReg o => Sys2Proof.Machine.execMgeoReg o s
  | .mgeoImm o => Sys2Proof.Machine.execMgeoImm o s
  | .msub o => Sys2Proof.Machine.execMsub o s
  | .mdrain => Sys2Proof.Machine.execMdrain s
  | .mstat d => Sys2Proof.Machine.execMstat d s
  | .cpq o => Sys2Proof.Machine.execCpq o s
  | .cpqt o => Sys2Proof.Machine.execCpqt o s
  | .semw o => Sys2Proof.Machine.execSemw o s
  | .semt o => Sys2Proof.Machine.execSemt o s
  | .semadd o => Sys2Proof.Machine.execSemadd o s
  | .semset o => Sys2Proof.Machine.execSemset o s
  | .semget o => Sys2Proof.Machine.execSemget o s
  | .chs o => Sys2Proof.Machine.execChs o s
  | .chr o => Sys2Proof.Machine.execChr o s
  | .alt o => Sys2Proof.Machine.execAlt o s
  | .chbs o => Sys2Proof.Machine.execChbs o s
  | .chbr o => Sys2Proof.Machine.execChbr o s
  | .chq o => Sys2Proof.Machine.execChq o s
  | .spawn o => Sys2Proof.Machine.execSpawn o s
  | .spawnt o => Sys2Proof.Machine.execSpawnt o s
  | .pend => Sys2Proof.Machine.execPend s
  | .yield => Sys2Proof.Machine.execYield s
  | .vsift o => Sys2Proof.Machine.execVsift o s
  | .swl o => Sys2Proof.Machine.execSwl o s
  | .swj o => Sys2Proof.Machine.execSwj o s
  | .split => Sys2Proof.Machine.execSplit s
  | .rejoin => Sys2Proof.Machine.execRejoin s
  | .bar o => Sys2Proof.Machine.execBar o s
  | .bara o => Sys2Proof.Machine.execBara o s
  | .barw o => Sys2Proof.Machine.execBarw o s
  | .whoami d => Sys2Proof.Machine.execWhoami d s
  | .trap imm => Sys2Proof.Machine.execTrap imm s
  | .tret => Sys2Proof.Machine.execTret s
  | .crd o => Sys2Proof.Machine.execCrd o s
  | .cwr o => Sys2Proof.Machine.execCwr o s
  | .brk imm => Sys2Proof.Machine.execBrk imm s
  | .rdtime d => Sys2Proof.Machine.execRdtime d s
  | .wdog imm => Sys2Proof.Machine.execWdog imm s
  | .idle => Sys2Proof.Machine.execIdle s
  | .tlbi o => Sys2Proof.Machine.execTlbi o s
  | .cload o => Sys2Proof.Machine.execCload o s
  | .cbind o => Sys2Proof.Machine.execCbind o s
  | .cunbind a => Sys2Proof.Machine.execCunbind a s
  | .dadd o => Sys2Proof.Machine.execDadd o s
  | .dsub o => Sys2Proof.Machine.execDsub o s
  | .dmul o => Sys2Proof.Machine.execDmul o s
  | .dfma o => Sys2Proof.Machine.execDfma o s
  | .ddiv o => Sys2Proof.Machine.execDdiv o s
  | .dsqrt o => Sys2Proof.Machine.execDsqrt o s
  | .dcvt o => Sys2Proof.Machine.execDcvt o s
  | .vdfma o => Sys2Proof.Machine.execVdfma o s
  | .combTail0 o => Sys2Proof.Machine.execCombTail0 o s
  | .combTail1 o => Sys2Proof.Machine.execCombTail1 o s
  | .combTail2 o => Sys2Proof.Machine.execCombTail2 o s
  | .combTail3 o => Sys2Proof.Machine.execCombTail3 o s
  | .combMicroOp => Sys2Proof.Machine.execCombMicroOp s
  | .extensionMoveComplete c => Sys2Proof.Machine.execExtensionMoveComplete c s
  | .migratingContextMove v => Sys2Proof.Machine.execMigratingContextMove v s
  | .asyncCauseTaken c => Sys2Proof.Machine.execAsyncCauseTaken c s
  | .faultMessageAccepted p => Sys2Proof.Machine.execFaultMessageAccepted p s
  | .resume p => Sys2Proof.Machine.execResume p s
  | .resumeAt p => Sys2Proof.Machine.execResumeAt p s
  | .remove p => Sys2Proof.Machine.execRemove p s
  | .toHandler p => Sys2Proof.Machine.execToHandler p s
  | .restartGang p => Sys2Proof.Machine.execRestartGang p s
  | .summon p => Sys2Proof.Machine.execSummon p s
  | .offerArrival p => Sys2Proof.Machine.execOfferArrival p s
  | .readyNoticeArrival p => Sys2Proof.Machine.execReadyNoticeArrival p s
  | .acknowledgementArrival p => Sys2Proof.Machine.execAcknowledgementArrival p s
  | .startArrival p => Sys2Proof.Machine.execStartArrival p s
  | .commitNoticeArrival p => Sys2Proof.Machine.execCommitNoticeArrival p s
  | .releaseNoticeArrival p => Sys2Proof.Machine.execReleaseNoticeArrival p s
  | .withdrawalArrival p => Sys2Proof.Machine.execWithdrawalArrival p s
  | .bulkDataStep p => Sys2Proof.Machine.execBulkDataStep p s
  | .foragerArrival v => Sys2Proof.Machine.execForagerArrival v s
  | .spawnRetry c => Sys2Proof.Machine.execSpawnRetry c s
  | .foragerStart v => Sys2Proof.Machine.execForagerStart v s
  | .probeLaunch c => Sys2Proof.Machine.execProbeLaunch c s
  | .deadlockReport c => Sys2Proof.Machine.execDeadlockReport c s
  | .colonyTreeRelease p k => Sys2Proof.Machine.execColonyTreeRelease p k s
  | .treeChannelAssigned => Sys2Proof.Machine.execTreeChannelAssigned s
  | .copyStep k => Sys2Proof.Machine.execCopyStep k s
  | .packStep k => Sys2Proof.Machine.execPackStep k s
  | .unpackStep k => Sys2Proof.Machine.execUnpackStep k s
  | .reduceStep k => Sys2Proof.Machine.execReduceStep k s
  | .matrixFetch k => Sys2Proof.Machine.execMatrixFetch k s
  | .matrixEffect k => Sys2Proof.Machine.execMatrixEffect k s
  | .matrixCompletion k => Sys2Proof.Machine.execMatrixCompletion k s
  | .postedStorePerformed c j => Sys2Proof.Machine.execPostedStorePerformed c j s
  | .writeThroughPerformed k line => Sys2Proof.Machine.execWriteThroughPerformed k line s
  | .cacheFill k line err => Sys2Proof.Machine.execCacheFill k line err s
  | .atomicResultReturn c => Sys2Proof.Machine.execAtomicResultReturn c s
  | .pageWalk v vpn => Sys2Proof.Machine.execPageWalk v vpn s
  | .scrubRead v a err => Sys2Proof.Machine.execScrubRead v a err s
  | .selfTestComplete t u lasting => Sys2Proof.Machine.execSelfTestComplete t u lasting s
  | .thermalMigration q => Sys2Proof.Machine.execThermalMigration q s
  | .thermalMigrationComplete t => Sys2Proof.Machine.execThermalMigrationComplete t s
  | .stopNotice g t => Sys2Proof.Machine.execStopNotice g t s
  | .stopAckDeadline g tile => Sys2Proof.Machine.execStopAckDeadline g tile s
  | .stopCount g => Sys2Proof.Machine.execStopCount g s
  | .flushTokenArrival g r => Sys2Proof.Machine.execFlushTokenArrival g r s
  | .saveBufferDrain g d => Sys2Proof.Machine.execSaveBufferDrain g d s
  | .tileContextSave v => Sys2Proof.Machine.execTileContextSave v s
  | .tileSaveDone v => Sys2Proof.Machine.execTileSaveDone v s
  | .saveTimeout g => Sys2Proof.Machine.execSaveTimeout g s
  | .gangPlacement p start => Sys2Proof.Machine.execGangPlacement p start s
  | .gangStartCount g => Sys2Proof.Machine.execGangStartCount g s
  | .quantumExpiry g => Sys2Proof.Machine.execQuantumExpiry g s
  | .watchdogExpiry c => Sys2Proof.Machine.execWatchdogExpiry c s
  | .mwaitLimitExpiry c => Sys2Proof.Machine.execMwaitLimitExpiry c s
  | .altTimeout c => Sys2Proof.Machine.execAltTimeout c s
  | .swarmFormationTimeout c => Sys2Proof.Machine.execSwarmFormationTimeout c s
  | .idleTimeout c => Sys2Proof.Machine.execIdleTimeout c s
  | .tokenRefill => Sys2Proof.Machine.execTokenRefill s
  | .logIntervalClose p => Sys2Proof.Machine.execLogIntervalClose p s
  | .thermalSample q reading => Sys2Proof.Machine.execThermalSample q reading s
  | .holdTimerExpiry q => Sys2Proof.Machine.execHoldTimerExpiry q s
  | .transitionTimerExpiry q => Sys2Proof.Machine.execTransitionTimerExpiry q s
  | .operatingPointGrant q op => Sys2Proof.Machine.execOperatingPointGrant q op s
  | .activationWindowAdjust bank longer => Sys2Proof.Machine.execActivationWindowAdjust bank longer s
  | .quadSleep q => Sys2Proof.Machine.execQuadSleep q s
  | .quadWake q => Sys2Proof.Machine.execQuadWake q s
  | .quadWakeComplete q => Sys2Proof.Machine.execQuadWakeComplete q s
  | .quadPowerOff q => Sys2Proof.Machine.execQuadPowerOff q s
  | .granuleZeroingComplete g => Sys2Proof.Machine.execGranuleZeroingComplete g s
  | .keyReencryptLine line => Sys2Proof.Machine.execKeyReencryptLine line s
  | .gradeReencode g => Sys2Proof.Machine.execGradeReencode g s
  | .hbmRemapLineCopy stack => Sys2Proof.Machine.execHbmRemapLineCopy stack s
  | .rtgoPortRead c => Sys2Proof.Machine.execRtgoPortRead c s
  | .rtgoPortWrite c => Sys2Proof.Machine.execRtgoPortWrite c s
  | .rtgoPermissionRead c => Sys2Proof.Machine.execRtgoPermissionRead c s
  | .rtgoPermissionWrite c => Sys2Proof.Machine.execRtgoPermissionWrite c s
  | .rtgoVtileMapRead c => Sys2Proof.Machine.execRtgoVtileMapRead c s
  | .rtgoRootWrite c => Sys2Proof.Machine.execRtgoRootWrite c s
  | .rtgoSpillRead c => Sys2Proof.Machine.execRtgoSpillRead c s
  | .rtgoSpillWrite c => Sys2Proof.Machine.execRtgoSpillWrite c s
  | .rtgoColonyRead c => Sys2Proof.Machine.execRtgoColonyRead c s
  | .rtgoColonyWrite c => Sys2Proof.Machine.execRtgoColonyWrite c s
  | .rtgoPartitionRead c => Sys2Proof.Machine.execRtgoPartitionRead c s
  | .rtgoLpctRead c => Sys2Proof.Machine.execRtgoLpctRead c s
  | .rtgoEngineRead c => Sys2Proof.Machine.execRtgoEngineRead c s
  | .rtgoGranuleRead c => Sys2Proof.Machine.execRtgoGranuleRead c s
  | .rtgoRefused c => Sys2Proof.Machine.execRtgoRefused c s
  | .plainRegisterWrite c off w => Sys2Proof.Machine.execPlainRegisterWrite c off w s
  | .doorbell f count es => Sys2Proof.Machine.execDoorbell f count es s
  | .eventDoorbell f count => Sys2Proof.Machine.execEventDoorbell f count s
  | .errorBitsClear f w => Sys2Proof.Machine.execErrorBitsClear f w s
  | .notify f q w => Sys2Proof.Machine.execNotify f q w s
  | .errClear f q w => Sys2Proof.Machine.execErrClear f q w s
  | .bar4Write f off bs => Sys2Proof.Machine.execBar4Write f off bs s
  | .dispatchPacket q => Sys2Proof.Machine.execDispatchPacket q s
  | .createPartition f a => Sys2Proof.Machine.execCreatePartition f a s
  | .freePartition f p => Sys2Proof.Machine.execFreePartition f p s
  | .repartition f p q h => Sys2Proof.Machine.execRepartition f p q h s
  | .setSaveto f => Sys2Proof.Machine.execSetSaveto f s
  | .setQuantum f => Sys2Proof.Machine.execSetQuantum f s
  | .setFquota f => Sys2Proof.Machine.execSetFquota f s
  | .setRate f => Sys2Proof.Machine.execSetRate f s
  | .setDepth f => Sys2Proof.Machine.execSetDepth f s
  | .setLend f => Sys2Proof.Machine.execSetLend f s
  | .setPowerCap f => Sys2Proof.Machine.execSetPowerCap f s
  | .setLogInterval f => Sys2Proof.Machine.execSetLogInterval f s
  | .setSummonPolicy f => Sys2Proof.Machine.execSetSummonPolicy f s
  | .setScaleOutPortMode f => Sys2Proof.Machine.execSetScaleOutPortMode f s
  | .scaleOutModeApplied j => Sys2Proof.Machine.execScaleOutModeApplied j s
  | .mapWindow f off first n wr => Sys2Proof.Machine.execMapWindow f off first n wr s
  | .gradeChange f g grade => Sys2Proof.Machine.execGradeChange f g grade s
  | .keyChange f => Sys2Proof.Machine.execKeyChange f s
  | .launchImage f img => Sys2Proof.Machine.execLaunchImage f img s
  | .galleryWrite f col addr bs => Sys2Proof.Machine.execGalleryWrite f col addr bs s
  | .curatorColonyResume f => Sys2Proof.Machine.execCuratorColonyResume f s
  | .curatorColonyRemove f => Sys2Proof.Machine.execCuratorColonyRemove f s
  | .createHostQueue f => Sys2Proof.Machine.execCreateHostQueue f s
  | .destroyHostQueue f => Sys2Proof.Machine.execDestroyHostQueue f s
  | .hostQueueDestroyed q => Sys2Proof.Machine.execHostQueueDestroyed q s
  | .channelGrant f a => Sys2Proof.Machine.execChannelGrant f a s
  | .channelGrantLapse f => Sys2Proof.Machine.execChannelGrantLapse f s
  | .attestationQuote f nonce buf => Sys2Proof.Machine.execAttestationQuote f nonce buf s
  | .readLog f p seq n release buf => Sys2Proof.Machine.execReadLog f p seq n release buf s
  | .closeRecord f r => Sys2Proof.Machine.execCloseRecord f r s
  | .residencyReport f buf => Sys2Proof.Machine.execResidencyReport f buf s
  | .stageFirmware f img => Sys2Proof.Machine.execStageFirmware f img s
  | .activateFirmware f => Sys2Proof.Machine.execActivateFirmware f s
  | .rimControllerRestartDone r => Sys2Proof.Machine.execRimControllerRestartDone r s
  | .retireTile f t => Sys2Proof.Machine.execRetireTile f t s
  | .remapHbmChannel f stack channel => Sys2Proof.Machine.execRemapHbmChannel f stack channel s
  | .restartRimController f r => Sys2Proof.Machine.execRestartRimController f r s
  | .retireRimController f r => Sys2Proof.Machine.execRetireRimController f r s
  | .unknownRequest f => Sys2Proof.Machine.execUnknownRequest f s
  | .scaleOutLaunchPacket j q seq ws => Sys2Proof.Machine.execScaleOutLaunchPacket j q seq ws s
  | .scaleOutReportRequest j f => Sys2Proof.Machine.execScaleOutReportRequest j f s
  | .linkPortFailure j => Sys2Proof.Machine.execLinkPortFailure j s
  | .deviceReset => Sys2Proof.Machine.execDeviceReset s
  | .errorInAUnit t u => Sys2Proof.Machine.execErrorInAUnit t u s
  | .refusalArrival p => Sys2Proof.Machine.execRefusalArrival p s
  | .probeAbandoned c => Sys2Proof.Machine.execProbeAbandoned c s
  | .tlbiAcknowledgement c => Sys2Proof.Machine.execTlbiAcknowledgement c s
  | .operatingPointChangeEnd q => Sys2Proof.Machine.execOperatingPointChangeEnd q s
  | .partitionPreEmption p => Sys2Proof.Machine.execPartitionPreEmption p s
  | .partitionResumption p => Sys2Proof.Machine.execPartitionResumption p s
  | .rimControllerRestartFailure r => Sys2Proof.Machine.execRimControllerRestartFailure r s

end Sys2Proof.Machine
end

