-- ==== Sys2Proof/Machine/Issue.lean ====
section
/-! DEFINITION. Issue: which slot of a core may issue, the line its instruction stands in, and decoding (R56 to R62, R67,
R336 to R338). -/

namespace Sys2Proof

/-- Whether an instruction takes up a frame that `tret` has reloaded (R399). -/
def Instr.isComb : Instr → Bool
  | .combTail0 _ => true
  | .combTail1 _ => true
  | .combTail2 _ => true
  | .combTail3 _ => true
  | _ => false

end Sys2Proof

namespace Sys2Proof.Machine

/-! ### Eligibility (R336) -/

/-- Whether what an issued instruction waits for has come about. -/
def State.needMet (s : State) (c : CtxId) (n : Need) : Bool :=
  let k := s.core c.coreId
  match n with
  | .none => true
  | .walk _ => !(s.vtile c.vt).misses.any (fun m => m.ofCtx c)
  | .fill _ _ => false
  | .word _ _ => false
  | .result => false
  | .offered => false
  | .remote => false
  | .acquire => false
  | .posted w => !(s.ctx c).postedTo (8 * w)
  | .port _ => true
  | .quad q => s.portFree ⟨(s.vtile c.vt).ptile, q⟩ (.ctx c)
  | .home line => s.homeOpen (line * 64) c.vt.part (.ctx c)
  | .through line => !k.through.any (fun t => decide (t.line = line))
  | .release tile => s.released c tile
  | .room n => decide ((s.ctx c).q + n ≤ 1023)
  | .roomH => decide (k.h = 0) || k.roomFor k.dirtyLines.length
  | .move l => !(s.core ⟨c.vt, l⟩).moving
  | .matrix => (s.matOf c).isEmpty

/-- Whether a quad issues in a cycle (R434): at its operating point, outside a change of point (R435), awake. -/
def Quad.issues (q : Quad) (t : Nat) : Bool :=
  decide (q.power = .awake) && decide (q.stall = 0) &&
  (if q.op = 0 then true else if q.op = 1 then decide (t % 4 ≠ 3) else if q.op = 2 then decide (t % 2 = 0)
   else decide (t % 4 = 0))

/-- Whether a stopped vtile still finishes what its contexts had issued before T (R96). -/
def State.finishing (s : State) (v : VtId) : Bool :=
  match s.stopOf v with
  | some h => h.halted && decide (v ∉ h.saving)
  | none => false

/-- Whether a slot is eligible (R335 to R337, R346): ready, with what its instruction waits for, or with a cause that it takes
instead of the next one (R80); a joined member that has issued waits for the others, and a wait field holds its instruction
(R252). -/
def State.eligible (s : State) (c : CtxId) : Bool :=
  let x := s.ctx c
  (s.running c.vt || (x.going && s.finishing c.vt)) && s.slotOpen c &&
  decide ((x.yielded.map (·.2)).getD [] = []) && (s.needMet c x.prog.need || (!x.going && decide (x.pend ≠ [])))

/-- The PC whose line a detached member needs through the fetch port of its quad (R338): its own, or the target of a transfer
that it has issued. -/
def State.wantedLine (s : State) (c : CtxId) : Option Nat :=
  let x := s.ctx c
  if !x.detached then none
  else match x.prog.need with
    | .port t => some t
    | _ => if !x.going && x.live.isNone && decide (x.pend = []) && decide ((x.line.map (·.1)) ≠ some (lineOf x.pc)) then
        some x.pc.toNat else none

/-- Whether a detached member needs a line through the fetch port of its quad (R338). -/
def State.needsLine (s : State) (c : CtxId) : Bool := (s.wantedLine c).isSome

/-- The rank of a request at a fetch port (R338): those that have waited 64 cycles first, then by PC and core. -/
def State.lineRank (s : State) (c : CtxId) : Nat × Nat × Nat :=
  (if 64 ≤ (s.ctx c).lineWait then 0 else 1, (s.wantedLine c).getD 0, c.core)

/-- Whether one rank comes no later than another. -/
def rankLe (a b : Nat × Nat × Nat) : Bool :=
  decide (a.1 < b.1) || (decide (a.1 = b.1) && (decide (a.2.1 < b.2.1) || (decide (a.2.1 = b.2.1) && decide (a.2.2 ≤ b.2.2))))

/-- Whether the core of a member that needs a line may move it in this cycle. -/
def State.claims (s : State) (d : CtxId) : Bool :=
  let k := s.core d.coreId
  s.needsLine d && s.eligible d && (s.quad (s.quadOf d.coreId)).issues s.time && !k.moving &&
  ((s.ctx d).going || decide (k.lastIssue ≠ some s.time))

/-- Whether the fetch port of its quad serves a detached member now, if it needs a line: one line a cycle (R338). -/
def State.portServes (s : State) (c : CtxId) : Bool :=
  !s.needsLine c ||
  (decide (NMap.get 0 (s.vtile c.vt).linePorts (s.quadOf c.coreId).quad ≠ s.time + 1) &&
   (s.ctxsOf c.vt).all (fun d => decide (s.quadOf d.coreId ≠ s.quadOf c.coreId) || !s.claims d ||
     rankLe (s.lineRank c) (s.lineRank d)))

/-- The slot for which a core issues in this cycle (R336): one whose line the fetch port does not serve now has not been
granted its unit. -/
def State.nextSlot (s : State) (k : CoreId) : Option Nat :=
  let r := (s.core k).rot
  ((List.range 4).map (fun i => (r + 1 + i) % 4)).find? (fun j =>
    let c : CtxId := ⟨k.vt, k.core, j⟩
    s.eligible c && !(s.ctx c).going && s.portServes c)

/-- Whether a context's core may move it now: going on with its instruction, or issuing the next one. -/
def State.coreIssues (s : State) (c : CtxId) : Bool :=
  let k := s.core c.coreId
  s.eligible c && (s.quad (s.quadOf c.coreId)).issues s.time && !k.moving && s.portServes c &&
  ((s.ctx c).going || (decide (k.lastIssue ≠ some s.time) && decide (s.nextSlot c.coreId = some c.slot)))

/-- Whether it is a joined member's turn: of those that may issue in a cycle, the one on the lowest core goes first (R331). -/
def State.memberTurn (s : State) (c : CtxId) : Bool :=
  match (s.ctx c).member with
  | none => true
  | some m => m.det || (s.swarm c.vt m.entry).all (fun d =>
      decide (c.core ≤ d.core) || !(s.ctx d).joined || (s.ctx d).going || !s.coreIssues d)

/-- Whether a context may move now. -/
def State.mayIssue (s : State) (c : CtxId) : Bool :=
  s.coreIssues c && ((s.ctx c).going || s.memberTurn c)

/-- The fetch port of a member's quad has read its line in this cycle (R338). -/
def State.usePort (s : State) (c : CtxId) : State :=
  if s.needsLine c then s.modVt c.vt (fun v => { v with
    linePorts := NMap.set 0 v.linePorts (s.quadOf c.coreId).quad (s.time + 1) })
  else s

/-- A core issues for a context: the pointer, the cycle, the fetch port (R338), the block stamp (R466) and the turns that others have yielded
(R346). One that goes on with its instruction has issued before; the port may now read the line of its target. -/
def State.started (s : State) (c : CtxId) : State :=
  let s := ({ s with cur := c } : State).usePort c
  if (s.ctx c).going then
    match (s.ctx c).prog.need with
    | .port _ => s.modCtx c (fun x => { x with prog := { x.prog with need := .none, served := true } })
    | _ => s
  else
    let s := s.modCore c.coreId (fun k => { k with lastIssue := some s.time, rot := c.slot })
    let s := s.modCtx c (fun x => { x with issuedAt := s.time, yielded := none, prog := {} })
    c.coreId.slots.foldl (fun (s : State) d => s.modCtx d (fun x => { x with
      yielded := x.yielded.map (fun (n, l) => (n, l.filter (fun j => decide (j ≠ c.slot)))) })) s

/-! ### The line held (R338) -/

/-- A context holds the line it has entered; joined members share what one of them fetched (R338). -/
def State.holdLine (s : State) (c : CtxId) (l : Nat × Vec) : State :=
  let keep (s : State) (d : CtxId) : State := s.modCtx d (fun x => { x with line := some l })
  match (s.ctx c).member with
  | some m =>
    if m.det then keep s c
    else ((s.joinedOf c.vt m.entry).filter (fun d => decide ((s.ctx d).member.bind (·.next) = none))).foldl keep s
  | none => keep s c

/-! ### Performing -/

/-- A frame that no comb instruction takes up is discarded (R399). -/
def State.dropResume (s : State) (c : CtxId) : State := s.modCtx c (fun x => { x with resume := none })

/-- The fetched line decodes and its instruction is performed. -/
def State.run (s : State) (c : CtxId) (l : Nat × Vec) : Step :=
  let s := s.holdLine c l
  match s.decodeAt c l.2 with
  | .error e => .next ((s.dropResume c).stopped c e)
  | .ok i => if i.isComb then exec i s else exec i (s.dropResume c)

/-- The checks of a line that a context enters fail (R67): a fault there strikes every joined member of a swarm at once, and
the swarm ends (R83). -/
def State.lineStops (s : State) (c : CtxId) (e : Stop) : State :=
  match (s.ctx c).member with
  | some m =>
    if m.det || e.waits then s.stopped c e
    else
      let js := s.joinedOf c.vt m.entry
      js.foldl (fun s d => s.stopped d e) (s.endSwarm c.vt m.entry)
  | none => s.stopped c e

/-- A context's turn: a pending cause at an instruction boundary (R80), where its gang runs (R99), the next micro-operation of
its sequence, or its instruction. -/
def State.turn (s : State) (c : CtxId) : Step :=
  let x := s.ctx c
  if x.fresh? ∧ x.pend ≠ [] ∧ s.running c.vt then .next (s.takeFirst c)
  else if x.live.isSome then exec .combMicroOp s
  else match s.fetch c with
    | .error e => .next (s.lineStops c e)
    | .ok l => s.run c l

/-- What a context that comes to an instruction waits for before it can read the line it stands in (R235, R441). -/
def State.lineWaits (s : State) (c : CtxId) : Option Need :=
  let x := s.ctx c
  if x.going ∨ x.live.isSome ∨ x.pend ≠ [] then none
  else match s.fetch c with
    | .error (.need n) => some n
    | _ => none

/-- A core issues for a context, if it may. Where the line it stands in cannot be read yet, nothing has issued. -/
def State.issueStep (s : State) (c : CtxId) : Step :=
  if !s.mayIssue c then .next s
  else match s.lineWaits c with
    | some n => .next ((({ s with cur := c } : State).await c (.need n)).modCtx c (fun x => { x with prog := { x.prog with entry := true } }))
    | none => (s.started c).turn c

end Sys2Proof.Machine
end

