-- ==== Sys2Proof/Machine/Settle.lean ====
section
/-! DEFINITION. What follows from a step at once: waits that are over, pending causes at blocked contexts (R80), pushes
that a queue admits (R192, R291), swarms (R337 to R343), messages of port 255 (R310), what the wafer manager does at
once (R16, R18, R93, R324, R352). -/

namespace Sys2Proof.Machine

/-- A blocked context whose wait has ended on its own. -/
def State.wakeCtx (s : State) (c : CtxId) : State :=
  match (s.ctx c).wait with
  | some .mdrain => if (s.matOf c).isEmpty then s.complete c else s
  | some .pend =>
    if s.commandsLeft c then s else s.modCtx c (fun x => { x with st := .ready, wait := none, prog := {} })
  | some (.mwait _) => s.monitorWake c
  | some .idle => s.monitorWake c
  | _ => s

/-- One context at the end of a step: an acquire that has found room (R261), a wait that is over, a cause that
abandons what blocks it (R80), where its gang runs (R99). -/
def State.settleCtx (s : State) (c : CtxId) : State :=
  let x := s.ctx c
  let s := if x.prog.need ≠ .acquire ∨ !s.acquireRoom c then s
    else match x.prog.res with
      | some r => s.endAtomic c r
      | none => (s.acquire c).complete c
  let s := s.wakeCtx c
  if (s.ctx c).st = .blocked ∧ s.running c.vt then s.takeAsync c else s

/-- One core: the pushes its queues have room for, and a transform that may go to its engine. -/
def State.settleCore (s : State) (k : CoreId) : State := (State.admitMat k 9 (State.admitCopy k 9 s)).enterDie k

/-- One vtile: messages of the fault port, swarms. -/
def State.settleVt (s : State) (v : VtId) : State :=
  let s := if s.curatorVt v then s.serve255 v else s
  s.settleSwarms v

/-- Messages held for the host become events (R93, R449). -/
def State.tellHost (s : State) (p : Nat) : State :=
  let l := (s.part p).hostMsgs
  if l = [] then s
  else l.foldl (fun (s : State) m => s.hostEvent p (BitVec.ofNat 64 (2 + m.seq % 2 ^ 32 * 2 ^ 32) :: m.words.drop 1))
    (s.modPart p (fun q => { q with hostMsgs := [] }))

/-- One partition: events for the host, gangs that swap or are placed, parked foragers. -/
def State.settleTenant (s : State) (p : Nat) : State := ((s.tellHost p).settlePart p).settleParked p

/-- Whether an access that is held where it has arrived has still to be performed. -/
def State.pendingAt (s : State) (here : Need → Bool) : Arrival → Bool
  | .ctx c => here (s.ctx c).prog.need
  | .store c h => (s.ctx c).posted.any (fun p => decide (p.home = h))
  | .through k l => (s.core k).through.any (fun t => decide (t.line = l))
  | .fill k l => k.slots.any (fun d => (s.ctx d).prog.need.ofLine l)
  | .copy k _ =>
    let x := s.core k
    s.runs k && decide (x.copyPhase = .fetch) && !x.copyHeld && !x.copyQ.isEmpty
  | .mat k _ =>
    let x := s.core k
    !x.matHeld && !x.matQ.isEmpty && (decide (x.matPhase = .effect) || (s.runs k && decide (x.matPhase = .fetch)))
  | .bulk p _ =>
    let x := s.port p
    decide (x.st = .move) && (x.bulk.map (fun b => !b.halted)).getD false && s.running p.vt && s.running x.peer.vt
  | .walk v n _ => (s.vtile v).misses.any (fun m => !m.failed && decide (m.va / 4096 = n))
  | .host f _ => !(s.func f).held.isEmpty
  | .packet c a _ =>
    if c = dispatcher c.vt.part then s.hqs.any (fun e => decide (e.2.part = c.vt.part) && decide (e.2.next = a) &&
      !e.2.stalled && decide (e.2.rd ≠ e.2.notify) && decide ((s.part e.2.part).state = 1))
    else s.ends.any (fun e => decide (e.ctx = c) && decide (e.addr = a))

/-- What is held at the ports of quads (R441) and at granules (R245), and the rows that a step has had activated, without
accesses that have gone. -/
def State.settleHeld (s : State) : State :=
  let s := s.tiles.foldl (fun (s : State) e => e.2.quads.foldl (fun (s : State) q =>
    if q.2.held = [] then s
    else s.modQuad ⟨e.1, q.1⟩ (fun x => { x with held := x.held.filter (fun a =>
      (match a with
        | .ctx c => s.stands c.vt && decide ((s.vtile c.vt).ptile = e.1)
        | _ => true) && s.pendingAt (fun n => decide (n = .quad q.1)) a) })) s) s
  { s with rows := s.rows.filter (s.pendingAt (fun _ => false)), homeQ := s.homeQ.foldl (fun m e => NMap.set [] m e.1 (e.2.filter (s.pendingAt (fun n => match n with
    | .home l => decide (l / 1024 = e.1)
    | _ => false)))) [] }

/-- Packets that wait at their source NI are sent once their vtile is there, or parked once there is room (R323). -/
def State.settleWaits (s : State) : State :=
  (s.net.filter (fun k => k.waits)).foldl (fun (s : State) k =>
    match s.translateVt (s.vtile k.src.vt).ptile k.dst.vt with
    | (s, some t) => { s with net := s.net.map (fun x => if x = k then { k with waits := false, tile := t } else x) }
    | (s', none) => if s.parkRoom k.dst.vt.part then (s'.dropPacket k).parkPacket k else s) s

/-- The launch packets that wait at scale-out ports go on once their partition runs and has room in its quota (R455). -/
def State.settlePeers (s : State) : State :=
  s.ports24.foldl (fun (s : State) e => if e.2.pkts = [] then s else s.servePeers e.1 e.2.pkts) s

/-- Everything that follows from a step. -/
def State.settle (s : State) : State :=
  let s := (s.ctxs.map (·.1)).foldl State.settleCtx s
  let s := (s.cores.map (·.1)).foldl State.settleCore s
  let s := (s.vtiles.map (·.1)).foldl State.settleVt s
  let s := s.finishPackets.settleColonies
  let s := s.transfers.foldl State.settleTransfer s
  let s := (s.parts.map (·.1)).foldl State.settleTenant s
  let s := (s.funcs.filter (fun e => decide (e.2.held ≠ []))).foldl (fun (s : State) e => s.drainHost e.1 e.2.held) s
  (s.tiles.map (·.1)).foldl State.settleLatch s.settlePeers.settleUpkeep.settleWaits.settleHeld

end Sys2Proof.Machine
end

