-- ==== Sys2Proof/Machine/Time.lean ====
section
/-! DEFINITION. The time base: what counts in a cycle, and which events are then due (R222, R278, R315, R319, R326, R341,
R346, R421, R423, R425 to R428, R434 to R441). -/

namespace Sys2Proof.Machine

/-! ### One cycle -/

/-- The counts of a context in a cycle: its limit, watchdog and yielded turn where its gang runs, its probe count, and how long
it has waited for the fetch port of its quad (R338). -/
def Ctx.tick (running counts fetches : Bool) (x : Ctx) : Ctx :=
  let x := if counts then { x with probeLeft := x.probeLeft - 1 } else x
  let x := { x with lineWait := if running && fetches then min 64 (x.lineWait + 1) else 0 }
  if !running then x
  else
    let x := { x with
      lim := x.lim.map (· - 1)
      yielded := match x.yielded with
        | some (n + 2, l) => some (n + 1, l)
        | _ => none }
    if x.st = .empty ∨ x.st = .parked ∨ x.reload = 0 ∨ x.count = 1 then x
    else x.setCount (if x.count = 0 then x.reload else x.count - 1)

/-- The timers of a quad in a cycle. -/
def Quad.tick (restful : Bool) (threshold : Nat) (x : Quad) : Quad :=
  { x with
    idle := if x.power = .awake ∧ restful then min 6000 (x.idle + 1) else 0
    wake := x.wake - 1, trans := x.trans - 1, stall := if 1 < x.stall then x.stall - 1 else x.stall
    hold := if x.throttled ∧ x.reading + 3 ≤ threshold then min ms (x.hold + 1) else 0 }

/-- The quads of the tiles that the device lists. -/
def State.quadIds (s : State) : List QuadId := s.tiles.flatMap (fun e => (List.range 12).map (fun q => ⟨e.1, q⟩))

/-- The partition whose vtile stands on a tile. -/
def Tile.user (t : Tile) : Option Nat := t.vtile.map (·.part)

/-- What counts in a cycle, before the events that are due. -/
def State.count (s : State) : State :=
  let old := s
  let s := { s with
    time := s.time + 1
    ctxs := s.ctxs.map (fun (e : CtxId × Ctx) => (e.1, e.2.tick (old.running e.1.vt) (old.counts e.1) (old.needsLine e.1 && decide (e.2.st = SlotSt.ready)))) }
  let s := s.quadIds.foldl (fun (s : State) q => s.modQuad q (Quad.tick (old.restful q) s.fw.threshold)) s
  let s := s.tiles.foldl (fun (s : State) (e : Nat × Tile) => match e.2.user with
    | some p => s.tally p 0 1
    | none => s) s
  s.quadIds.foldl State.settlePoint s

/-! ### What is due -/

/-- The events that a context's counts make due. -/
def State.dueCtx (s : State) (c : CtxId) : List Auto :=
  let x := s.ctx c
  let lim : List Auto := if x.lim ≠ some 0 then []
    else match x.wait with
      | some (.mwait _) => [.mwaitLimit c]
      | some .idle => [.idleTimeout c]
      | some (.spawnFull _ _) => [.spawnRetry c]
      | _ => []
  let probe : List Auto := if s.counts c ∧ x.probeLeft = 0 then [.probe c] else []
  lim ++ probe

/-- The watchdogs whose COUNT falls from 1 to 0 in the cycle that begins (R421). -/
def State.dueDogs (s : State) : List Auto :=
  ((s.ctxs.filter (fun e => decide (e.2.reload ≠ 0) && decide (e.2.count = 1) && decide (e.2.st ≠ .empty) &&
    decide (e.2.st ≠ .parked) && s.running e.1.vt)).map (fun e => .watchdog e.1))

/-- The swarms whose formation has reached its limit in the cycle that ends (R341): what issued in it has formed them
otherwise (R354). -/
def State.lateSwarms (s : State) : List Auto :=
  (s.ctxs.filter (fun e => decide (e.2.lim = some 0) && s.running e.1.vt && (match e.2.wait with
    | some (.swl _ _) => true
    | some (.swj _ _) => true
    | _ => false))).map (fun e => .swarmTimeout e.1)

/-- The blocked contexts at `alt` that are examined at the end of a cycle (R315): their gang runs, and their core is not being
moved. -/
def State.altWaits (s : State) : List CtxId :=
  (s.ctxs.filter (fun e => s.running e.1.vt && !(s.core e.1.coreId).moving && (match e.2.wait with
    | some (.alt _ _ _) => true
    | _ => false))).map (·.1)

/-- Those of them whose timeout has become ready in the cycle that ends: it is examined in the rotation with their ports. -/
def State.lateAlts (s : State) : List Auto :=
  (s.altWaits.filter (fun c => decide ((s.ctx c).lim = some 0))).map .altTimeout

/-- The events that a quad's timers make due. -/
def State.dueQuad (s : State) (q : QuadId) : List Auto :=
  let x := s.quad q
  (if x.power = .awake ∧ 6000 ≤ x.idle then [.quadSleep q] else []) ++
  (if s.wakeDue q then [.quadWake q] else []) ++
  (if x.power = .waking ∧ x.wake = 0 then [.quadWakeComplete q] else []) ++
  (if x.stall = 1 then [.pointChangeEnd q] else []) ++
  (if x.trans = 0 ∧ x.pendOp.isSome then [.transitionTimer q] else []) ++
  (if x.throttled ∧ ms ≤ x.hold then [.holdTimer q] else [])

/-- The events that a stop's counts make due. -/
def State.dueStop (s : State) (h : Halt) : List Auto :=
  match h.gangs, h.t with
  | g :: _, some t =>
    (if !h.halted ∧ t ≤ s.time then [.stopCount g] else []) ++
    (if h.halted ∧ t + (s.part h.part).saveto * 600 ≤ s.time then [.saveTimeout g] else [])
  | _, _ => []

/-- The events that a gang's counts make due. -/
def State.dueGang (s : State) (g : GangId) : List Auto :=
  let x := s.gang g
  (if x.placing ∧ (x.start.getD 0 ≤ s.time ∨ (x.start.getD 0 ≤ s.time + 1 ∧
      (s.vtilesOf [g]).any (fun v => !(s.vtile v).res))) then [.startCount g] else []) ++
  (if x.st = .resident ∧ !x.expired ∧ x.since + (s.part g.part).quantum * ms ≤ s.time then [.quantum g] else [])

/-- Everything that is due. -/
def State.due (s : State) : List Auto :=
  (if s.refills < s.time / 600 then [.refill] else []) ++
  (s.ctxs.map (·.1)).flatMap s.dueCtx ++ s.quadIds.flatMap s.dueQuad ++ s.stops.flatMap s.dueStop ++
  (s.gangs.map (·.1)).flatMap s.dueGang ++
  ((s.parts.filter (fun e => e.2.valid && decide (e.2.logLast + e.2.logInt * ms ≤ s.time))).map
    (fun e => .logInterval e.1)) ++
  ((s.grants.filter (fun g => decide (g.until_ ≤ s.time))).map (fun g => .grantLapse g.part))

/-- A cycle of the time base: what counts, and then what is due happens before anything else. Swarms that have not formed in
the cycle that ends and timeouts of `alt` come first, and every blocked `alt` is examined. -/
def State.tick (s : State) : State :=
  match s.lateSwarms ++ s.lateAlts with
  | a :: r => { s with agenda := (a :: r).map .own ++ .cycle :: s.agenda }
  | [] =>
    let s := s.altWaits.foldl State.altAgain s
    let dogs := s.dueDogs
    let s := s.count
    { s with agenda := (dogs ++ s.due).map .own ++ s.agenda }

end Sys2Proof.Machine
end

