-- ==== Sys2Proof/Machine/Schedule.lean ====
section
/-! DEFINITION. One move of the machine, and which move comes next where the agenda names none. -/

namespace Sys2Proof

/-- Whether a row of the opcode table is an instruction form or the micro-operation of a sequence: a context issues
those. -/
def Instr.isForm (i : Instr) : Bool :=
  (encode i).isSome || (match i with
    | .combMicroOp => true
    | _ => false)

end Sys2Proof

namespace Sys2Proof.Machine

/-- What a step leaves is settled. -/
def settled (r : Step) : Step :=
  match r with
  | .next s => .next s.settle
  | .fault e => .fault e
  | .refused e => .refused e

/-- What an event of the machine's own does: the meaning of the row it stands for. -/
def State.happen (s : State) (a : Auto) : Step :=
  match a with
  | .mwaitLimit c => execMwaitLimitExpiry c s
  | .idleTimeout c => execIdleTimeout c s
  | .altTimeout c => execAltTimeout c s
  | .swarmTimeout c => execSwarmFormationTimeout c s
  | .spawnRetry c => execSpawnRetry c s
  | .watchdog c => execWatchdogExpiry c s
  | .probe c => execProbeLaunch c s
  | .quadSleep q => execQuadSleep q s
  | .quadWake q => execQuadWake q s
  | .quadWakeComplete q => execQuadWakeComplete q s
  | .pointChangeEnd q => execOperatingPointChangeEnd q s
  | .transitionTimer q => execTransitionTimerExpiry q s
  | .holdTimer q => execHoldTimerExpiry q s
  | .stopCount g => execStopCount g s
  | .saveTimeout g => execSaveTimeout g s
  | .startCount g => execGangStartCount g s
  | .quantum g => execQuantumExpiry g s
  | .refill => execTokenRefill s
  | .logInterval p => execLogIntervalClose p s
  | .grantLapse f => execChannelGrantLapse f s
  | .posted c => execPostedStorePerformed c 0 s
  | .atomicResult c => execAtomicResultReturn c s
  | .pageWalk v n => execPageWalk v n s
  | .cacheFill k l => execCacheFill k l 0 s
  | .extensionMove c => execExtensionMoveComplete c s
  | .tlbiAck c => execTlbiAcknowledgement c s
  | .writeThrough k l => execWriteThroughPerformed k l s
  | .copyStep k => execCopyStep k s
  | .packStep k => execPackStep k s
  | .unpackStep k => execUnpackStep k s
  | .reduceStep k => execReduceStep k s
  | .matrixFetch k => execMatrixFetch k s
  | .matrixEffect k => execMatrixEffect k s
  | .matrixCompletion k => execMatrixCompletion k s
  | .offer p => execOfferArrival p s
  | .readyNotice p => execReadyNoticeArrival p s
  | .ack p => execAcknowledgementArrival p s
  | .start p => execStartArrival p s
  | .commitNotice p => execCommitNoticeArrival p s
  | .releaseNotice p => execReleaseNoticeArrival p s
  | .withdrawal p => execWithdrawalArrival p s
  | .refusal p => execRefusalArrival p s
  | .forager v => execForagerArrival v s
  | .foragerStart v => execForagerStart v s
  | .zeroing g => execGranuleZeroingComplete g s
  | .faultMessage p => execFaultMessageAccepted p s
  | .bulkStep p => execBulkDataStep p s
  | .migratingMove v => execMigratingContextMove v s

/-- A move: a core issues for a context, an event happens, a cycle passes. -/
def State.perform (s : State) (m : Move) : Step :=
  match m with
  | .issue c => settled (s.issueStep c)
  | .event i => if i.isForm then .fault .notAnEvent else settled (exec i s)
  | .own a => settled (s.happen a)
  | .cycle => .next s.tick.settle

/-! ### The move that comes next where none is named -/

/-- What may happen on its own at a context. -/
def State.openCtx (s : State) (c : CtxId) : List Auto :=
  let x := s.ctx c
  (if x.posted = [] then [] else [.posted c]) ++ (if x.prog.res.isSome then [.atomicResult c] else []) ++
  (match x.prog.need with
   | .fill l _ => [.cacheFill c.coreId l]
   | .word l _ => [.cacheFill c.coreId l]
   | _ => []) ++
  (if x.moveTo.isSome then [.extensionMove c] else []) ++
  (match x.wait with
   | some (.tlbi _ _ _) => [.tlbiAck c]
   | _ => [])

/-- What may happen on its own at a core. -/
def State.openCore (s : State) (k : CoreId) : List Auto :=
  let x := s.core k
  x.through.map (fun t => .writeThrough k t.line) ++
  (match x.copyQ with
   | [] => []
   | _ :: _ => [.copyStep k, .packStep k, .unpackStep k, .reduceStep k]) ++
  (match x.matQ with
   | [] => []
   | _ :: _ => [.matrixFetch k, .matrixEffect k, .matrixCompletion k])

/-- What may happen on its own in the network. -/
def State.openNet (s : State) : List Auto :=
  s.net.flatMap (fun k => match k.body with
    | .offer _ => [.offer k.dst]
    | .ready _ => [.readyNotice k.dst]
    | .ack => [.ack k.dst]
    | .start _ => [.start k.dst]
    | .commit _ => [.commitNotice k.dst]
    | .release => [.releaseNotice k.dst]
    | .withdraw => [.withdrawal k.dst]
    | .refuse => [.refusal k.dst]
    | .forager _ _ => [.forager k.dst.vt])

/-- Whether an event would change the state. -/
def State.acts (s : State) (a : Auto) : Bool :=
  match s.happen a with
  | .next t => decide (t ≠ s)
  | .fault _ => false
  | .refused _ => false

/-- The next move where the agenda is empty: an issue, then what may happen on its own, then a cycle. -/
def State.defaultMove (s : State) : Move :=
  match (s.ctxs.map (·.1)).find? s.mayIssue with
  | some c => .issue c
  | none =>
    let l := (s.ctxs.map (·.1)).flatMap s.openCtx ++ (s.cores.map (·.1)).flatMap s.openCore ++ s.openNet ++
      s.vtiles.flatMap (fun e => (e.2.ports.filter (fun q => decide (q.2.st = .move) && decide (q.2.dir = .bout))).map
        (fun q => .bulkStep ⟨e.1, q.1⟩)) ++ (s.vtiles.map (fun e => .migratingMove e.1)) ++
      (s.vtiles.flatMap (fun e => e.2.walking.map (fun n => .pageWalk e.1 n))) ++
      (s.vtiles.map (fun e => .foragerStart e.1)) ++ (s.zeroing.map (fun g => .zeroing g)) ++
      (s.parts.map (fun e => .faultMessage e.1))
    match l.find? s.acts with
    | some a => .own a
    | none => .cycle

/-- The step: the first move of the agenda, or the one that comes next. -/
def State.advance (s : State) : Step :=
  match s.agenda with
  | [] => s.perform s.defaultMove
  | m :: r => { s with agenda := r }.perform m

end Sys2Proof.Machine
end

