-- ==== Sys2Proof/Machine/Fetch.lean ====
section
/-! DEFINITION. A machine that is about to issue one instruction, given as the opcode table numbers its bits: what the
host's probe of single instructions starts from. -/

namespace Sys2Proof.Machine

/-- The line of one instruction (R56 to R58): the descriptor, its head and its tail. -/
def lineOne (head tail : Nat) : Vec :=
  BitVec.ofNat 512 (1 + head * 2 ^ 16 + tail * 2 ^ (512 - 16 * tailLen head))

/-- The vtile, the context and the tile of the probe. -/
def probeVt : VtId := ⟨0, 0, 0, 0⟩
@[inherit_doc probeVt]
def probeCtx : CtxId := ⟨probeVt, 0, 0⟩

/-- Its entry PC: the first instruction of the instruction store of core 0. -/
def probePc : Word := 0x01000002

/-- One process, at rest before the instruction of the line at its entry PC, on a tile of a running partition, and the
agenda says that its core issues for it. A comb head finds its binding valid (R67). -/
def State.withWord (s : State) (head tail : Nat) : State :=
  let s := (s.modPart 0 (fun q => { q with valid := true, state := 1, curcol := 63 })).modTile 0 (fun t => { t with
    owner := some 0, vtile := some probeVt
    quads := NMap.set {} t.quads 0 {} })
  let s := (s.modColony 0 0 (fun c => { c with live := true, gridX := 1, gridY := 1, gangs := 1 })).modGang ⟨0, 0, 0⟩
    (fun g => { g with st := .resident, placing := false, stopping := false })
  let s := (s.putVt probeVt { exist := true, res := true, issue := true }).putCore probeCtx.coreId { rot := 3 }
  let x := Ctx.fresh {} probePc false .launch
  let b : NMap Binding := if 0xE0 ≤ fld head 8 8 then NMap.set {} [] (fld head 8 8 - 0xE0) { valid := true, len := 1 } else []
  let s := s.putCtx probeCtx { x with binds := b }
  { s with
    stops := [], thermals := []
    pois := s.pois.filter (fun w => decide (w / 8 ≠ sramKey probeVt (lineOf probePc) / 64))
    mem := wrBytes s.mem (sramKey probeVt (lineOf probePc)) (lineOne head tail).toNat 64
    agenda := [.issue probeCtx] }

end Sys2Proof.Machine
end

