-- ==== Sys2Proof/Machine/Step.lean ====
section
/-! DEFINITION. One step of the machine, and the state whose next step runs a given instruction. -/

namespace Sys2Proof.Machine

/-- One step: one instruction issued or gone on with, one micro-operation, one event, or one cycle. -/
def step (s : State) : Host.Outcome State Fault Refusal := s.advance

/-- The state whose next step fetches and runs the instruction with bits w, numbered as the opcode table numbers them. -/
def State.withFetchWord (s : State) (nbits w : Nat) : State := s.withWord (tableHead nbits w) (tableTail nbits w)

end Sys2Proof.Machine
end

