-- ==== Sys2Proof/Safety.lean ====
section
/-! DEFINITION. What a state must look like for the claims about it: memory in its canonical form, sets in order, and a
run that never stops on its own. -/

namespace Sys2Proof.Machine

/-- The canonical form of a memory: addresses strictly rising, no entry equal to what an unlisted address reads as. -/
def Memory.wf (m : NMap Byte) : Bool := NMap.wf 0 m

/-- A set in order: its members rise strictly. -/
def NSet.wf : NSet → Bool
  | [] => true
  | [_] => true
  | a :: b :: r => decide (a < b) && NSet.wf (b :: r)

/-- The memories of a state are in canonical form: bytes, side bits, poison, cleared granules. -/
def State.wf (s : State) : Bool :=
  Memory.wf s.mem && NMap.wf 0 s.side && NSet.wf s.pois && NSet.wf s.poisLine && NSet.wf s.badLine && NSet.wf s.written &&
  NMap.wf 0 s.granules

/-! ### What an instruction leaves unchanged -/

/-- t is s but for the record of the context s acts for: memory, cores, tiles, tables and every other context stand as
before. -/
def onlyActing (s t : State) : Prop := (∀ c, c ≠ s.cur → t.ctx c = s.ctx c) ∧ { t with ctxs := s.ctxs } = s

/-- A context in record x has completed its instruction in y (R59, R335, R337): it is ready, waits for nothing and stands
at np; a joined member of a swarm notes np and stays until the others have issued. -/
def wentOn (x y : Ctx) (np : Word) : Prop :=
  y.st = .ready ∧ y.wait = none ∧ y.lim = none ∧ y.prog = {} ∧
  (match x.member with
   | none => y.member = none ∧ y.pc = np
   | some m =>
     if m.det then y.member = some m ∧ y.pc = np else y.member = some { m with next := some np } ∧ y.pc = x.pc)

/-- x at the place of y: its PC, its slot state and how far its instruction has come. -/
def Ctx.placedAs (x y : Ctx) : Ctx :=
  { x with st := y.st, wait := y.wait, lim := y.lim, prog := y.prog, member := y.member, pc := y.pc }

/-- An instruction completes: a next state in which its context has gone on to NextPC, everything else that it holds is
what f makes of its record, and nothing outside its record has changed. -/
def completes (s : State) (r : Step) (f : Ctx → Ctx) : Prop :=
  ∃ t, r = .next t ∧ onlyActing s t ∧ wentOn (s.ctx s.cur) (t.ctx s.cur) (s.nextPc s.cur) ∧
    t.ctx s.cur = (f (s.ctx s.cur)).placedAs (t.ctx s.cur)

/-- A control transfer completes: a next state in which its context stands at the target t and holds its line l, everything
else that it holds is what f makes of its record, and nothing outside its record has changed. -/
def jumps (s : State) (r : Step) (f : Ctx → Ctx) (t : Word) (l : Nat × Vec) : Prop :=
  ∃ u, r = .next u ∧ onlyActing s u ∧ wentOn (s.ctx s.cur) (u.ctx s.cur) t ∧
    u.ctx s.cur = ({ f (s.ctx s.cur) with line := some l } : Ctx).placedAs (u.ctx s.cur)

/-- Whether a step answers a next state. -/
def goesOn (r : Step) : Bool :=
  match r with
  | .next _ => true
  | .fault _ => false
  | .refused _ => false

/-- A safe run of n steps: none of them faults or is refused. -/
def State.safe : Nat → State → Bool
  | 0, _ => true
  | n + 1, s =>
    match step s with
    | .next t => t.safe n
    | .fault _ => false
    | .refused _ => false

end Sys2Proof.Machine
end

