-- ==== Sys2Proof/Certificates/Slice0/Obligations.lean ====
section
/-! DEFINITION. The statements for the provers, and above them the few words they are written in. The titles and the rules
they formalise stand in OBLIGATIONS.json. -/

open Sys2Proof Sys2Proof.Machine

namespace Sys2Proof.Claims

/-! ### Words of the statements -/

/-- An operation of width 32 for `.w`, sign-extended or with `.n` zero-extended; else of width 64 (R111). -/
def byWidth (w n : Bool) (f : (k : Nat) → BitVec k → BitVec k → BitVec k) (a b : Word) : Word :=
  if w then
    let r := f 32 (a.setWidth 32) (b.setWidth 32)
    if n then r.setWidth 64 else r.signExtend 64
  else f 64 a b

/-- The three forms of an operation of R110 write the result of f, and change nothing else. -/
def intForms (reg : AluR → Instr) (i16 : AluI16 → Instr) (i32 : AluI32 → Instr)
    (f : Bool → (k : Nat) → BitVec k → BitVec k → BitVec k) : Prop :=
  ∀ s : State,
    (∀ o : AluR, completes s (exec (reg o) s) (fun x => x.wg o.d.toNat
      (byWidth o.w o.n (f o.n) (x.rg o.a.toNat) (x.rg o.b.toNat)))) ∧
    (∀ o : AluI16, (i16 o).wf = true → completes s (exec (i16 o) s) (fun x => x.wg o.d.toNat
      (byWidth o.w o.n (f o.n) (x.rg o.a.toNat) (o.imm.signExtend 64)))) ∧
    (∀ o : AluI32, (i32 o).wf = true → completes s (exec (i32 o) s) (fun x => x.wg o.d.toNat
      (byWidth o.w o.n (f o.n) (x.rg o.a.toNat) (o.imm.signExtend 64))))

/-- The upper half of a product (R111). -/
def upperHalf (n : Bool) (k : Nat) (a b : BitVec k) : BitVec k :=
  if n then ((a.setWidth (k + k) * b.setWidth (k + k)) >>> k).setWidth k
  else ((a.signExtend (k + k) * b.signExtend (k + k)) >>> k).setWidth k

/-- The quotient (R111): all ones for division by zero. -/
def quotient (n : Bool) (k : Nat) (a b : BitVec k) : BitVec k :=
  if b = 0 then BitVec.allOnes k else if n then a.udiv b else a.sdiv b

/-- The remainder (R111): the dividend for division by zero. -/
def remainder (n : Bool) (k : Nat) (a b : BitVec k) : BitVec k :=
  if b = 0 then a else if n then a.umod b else a.srem b

/-- Whether a is at most b, signed or unsigned. -/
def atMost (n : Bool) {k : Nat} (a b : BitVec k) : Bool := if n then a.ule b else a.sle b

/-- The conditions of `cmp` on operands of one width (R121). -/
def conditionHolds (cc : ICond) {k : Nat} (a b : BitVec k) : Bool :=
  match cc with
  | .eq => a == b
  | .ne => a != b
  | .lt => a.slt b
  | .ge => b.sle a
  | .ltn => a.ult b
  | .gen => b.ule a
  | .tst => a &&& b != 0
  | .ntst => a &&& b == 0

/-- A condition over the low 32 bits with `.w`, over 64 bits without (R121). -/
def condition (w : Bool) (cc : ICond) (a b : Word) : Bool :=
  if w then conditionHolds cc (a.setWidth 32) (b.setWidth 32) else conditionHolds cc a b

/-- n bits of a register from bit p on, read as a number (R114). -/
def slice (a : Word) (p n : Nat) : Word := (a >>> p) &&& (BitVec.allOnes 64 >>> (64 - n))

end Sys2Proof.Claims

open Sys2Proof.Claims

/-! ### Registers I: integer, address, predicate (R110 to R122, R128) -/

/-- R105, R107: reading a register after a write, g0 reading zero and p0 one whatever is written. -/
def Obligations.RegisterFile : Prop :=
  (∀ (x : Ctx) (d n : GReg) (w : Word),
    (x.wg d.toNat w).rg n.toNat = if n = 0 then 0 else if n = d then w else x.rg n.toNat) ∧
  (∀ (x : Ctx) (d n : PReg) (b : Bool),
    (x.wp d.toNat b).rp n.toNat = if n = 0 then true else if n = d then b else x.rp n.toNat) ∧
  (∀ (x : Ctx) (d n : VReg) (v : Vec), (x.wv d.toNat v).rv n.toNat = if n = d then v else x.rv n.toNat)

/-- R111: `add`, `sub` and `mul` in their three forms. -/
def Sys2Proof.Claims.AddSubMul : Prop :=
  intForms .addReg .addImm16 .addImm32 (fun _ _ a b => a + b) ∧
  intForms .subReg .subImm16 .subImm32 (fun _ _ a b => a - b) ∧
  intForms .mulReg .mulImm16 .mulImm32 (fun _ _ a b => a * b)

/-- R111: `and`, `or`, `xor` and `andn` in their three forms. -/
def Sys2Proof.Claims.BitwiseLogic : Prop :=
  intForms .andReg .andImm16 .andImm32 (fun _ _ a b => a &&& b) ∧
  intForms .orReg .orImm16 .orImm32 (fun _ _ a b => a ||| b) ∧
  intForms .xorReg .xorImm16 .xorImm32 (fun _ _ a b => a ^^^ b) ∧
  intForms .andnReg .andnImm16 .andnImm32 (fun _ _ a b => a &&& ~~~b)

/-- R111, R112: `shl`, `shr`, `sar` and `rot`; only the low bits of the count matter. -/
def Sys2Proof.Claims.Shifts : Prop :=
  intForms .shlReg .shlImm16 .shlImm32 (fun _ k a b => a <<< (b.toNat % k)) ∧
  intForms .shrReg .shrImm16 .shrImm32 (fun _ k a b => a >>> (b.toNat % k)) ∧
  intForms .sarReg .sarImm16 .sarImm32 (fun _ k a b => a.sshiftRight (b.toNat % k)) ∧
  intForms .rotReg .rotImm16 .rotImm32 (fun _ k a b => a.rotateRight (b.toNat % k))

/-- R111: `mulh`, `div` and `rem`, with their corners, and `min` and `max`. -/
def Sys2Proof.Claims.HighProductDivisionOrder : Prop :=
  intForms .mulhReg .mulhImm16 .mulhImm32 (fun n k a b => upperHalf n k a b) ∧
  intForms .divReg .divImm16 .divImm32 (fun n k a b => quotient n k a b) ∧
  intForms .remReg .remImm16 .remImm32 (fun n k a b => remainder n k a b) ∧
  intForms .minReg .minImm16 .minImm32 (fun n _ a b => if atMost n a b then a else b) ∧
  intForms .maxReg .maxImm16 .maxImm32 (fun n _ a b => if atMost n a b then b else a)

/-- R110 to R112: the arithmetic, logic, shift, division and ordering instructions of the integer unit. -/
def Obligations.IntegerArithmetic : Prop := AddSubMul ∧ BitwiseLogic ∧ Shifts ∧ HighProductDivisionOrder

/-- R113: each count completes with a number that the bits of its operand fix. -/
def Sys2Proof.Claims.BitCounts : Prop :=
  ∀ (s : State) (o : BitCnt),
    let a := (s.ctx s.cur).rg o.a.toNat
    let w := if o.w then 32 else 64
    (∃ n, n ≤ w ∧ (∀ i, i < n → a.getLsbD (w - 1 - i) = false) ∧ (n < w → a.getLsbD (w - 1 - n) = true) ∧
      completes s (exec (.clz o) s) (fun x => x.wg o.d.toNat (BitVec.ofNat 64 n))) ∧
    (∃ n, n ≤ w ∧ (∀ i, i < n → a.getLsbD i = false) ∧ (n < w → a.getLsbD n = true) ∧
      completes s (exec (.ctz o) s) (fun x => x.wg o.d.toNat (BitVec.ofNat 64 n))) ∧
    completes s (exec (.popc o) s) (fun x => x.wg o.d.toNat (BitVec.ofNat 64 ((List.range w).countP a.getLsbD)))

/-- R114: `bfx` reads and `bfi` replaces a field of len bits at pos. -/
def Sys2Proof.Claims.BitFields : Prop :=
  (∀ (s : State) (o : Bfx), (Instr.bfx o).wf = true →
    completes s (exec (.bfx o) s) (fun x =>
      let n := o.lenM1.toNat + 1
      let f := slice (x.rg o.a.toNat) o.pos.toNat n
      x.wg o.d.toNat (if o.n then f else (f <<< (64 - n)).sshiftRight (64 - n)))) ∧
  (∀ (s : State) (o : Bfi), (Instr.bfi o).wf = true →
    completes s (exec (.bfi o) s) (fun x =>
      let m := (BitVec.allOnes 64 >>> (64 - (o.lenM1.toNat + 1))) <<< o.pos.toNat
      x.wg o.d.toNat ((x.rg o.d.toNat &&& ~~~m) ||| ((x.rg o.a.toNat <<< o.pos.toNat) &&& m))))

/-- R113, R114: bit counts and bit fields. -/
def Obligations.BitOperations : Prop := BitCounts ∧ BitFields

/-- R115 to R117: `sel`, the four moves between g and p registers, `li` and `li.hi`. -/
def Sys2Proof.Claims.SelectMoveImmediate : Prop :=
  ∀ s : State,
    (∀ o : Sel, completes s (exec (.sel o) s) (fun x =>
      x.wg o.d.toNat (if x.rp o.c.toNat then x.rg o.a.toNat else x.rg o.b.toNat))) ∧
    (∀ d a : GReg, completes s (exec (.mov ⟨.g d, .g a⟩) s) (fun x => x.wg d.toNat (x.rg a.toNat))) ∧
    (∀ (d : GReg) (a : PReg), completes s (exec (.mov ⟨.g d, .p a⟩) s) (fun x =>
      x.wg d.toNat (if x.rp a.toNat then 1 else 0))) ∧
    (∀ (d : PReg) (a : GReg), completes s (exec (.mov ⟨.p d, .g a⟩) s) (fun x =>
      x.wp d.toNat (x.rg a.toNat != 0))) ∧
    (∀ d a : PReg, completes s (exec (.mov ⟨.p d, .p a⟩) s) (fun x => x.wp d.toNat (x.rp a.toNat))) ∧
    (∀ o : Li16, completes s (exec (.liImm16 o) s) (fun x => x.wg o.d.toNat
      (if o.hi then (o.imm.signExtend 32) ++ (x.rg o.d.toNat).setWidth 32 else o.imm.signExtend 64))) ∧
    (∀ o : Li32, completes s (exec (.liImm32 o) s) (fun x => x.wg o.d.toNat
      (if o.hi then o.imm ++ (x.rg o.d.toNat).setWidth 32 else o.imm.signExtend 64)))

/-- R118 to R120: `lea` adds within the low 48 bits, `ptag` and `pget` put and get the tag, `ext` extends. -/
def Sys2Proof.Claims.AddressesAndTags : Prop :=
  ∀ s : State,
    (∀ o : Lea16, completes s (exec (.leaOff16 o) s) (fun x => x.wg o.d.toNat
      (((x.rg o.b.toNat).extractLsb' 48 16) ++ ((x.rg o.b.toNat).setWidth 48 + o.imm.signExtend 48)))) ∧
    (∀ o : Lea32, completes s (exec (.leaOff32 o) s) (fun x => x.wg o.d.toNat
      (((x.rg o.b.toNat).extractLsb' 48 16) ++ ((x.rg o.b.toNat).setWidth 48 + o.imm.signExtend 48)))) ∧
    (∀ o : Ptag, completes s (exec (.ptag o) s) (fun x => x.wg o.d.toNat
      ((o.fmt ++ o.bl) ++ (x.rg o.a.toNat).setWidth 55))) ∧
    (∀ o : GG, completes s (exec (.pget o) s) (fun x => x.wg o.d.toNat (x.rg o.a.toNat >>> 55))) ∧
    (∀ o : Ext, (Instr.ext o).wf = true → completes s (exec (.ext o) s) (fun x =>
      let r := (x.rg o.a.toNat).setWidth (8 * 2 ^ o.s.toNat)
      x.wg o.d.toNat (if o.n then r.setWidth 64 else r.signExtend 64)))

/-- R121, R122, R128: `cmp` in its three forms, the predicate operations, `nop`. -/
def Sys2Proof.Claims.ComparesAndPredicates : Prop :=
  ∀ s : State,
    (∀ o : CmpR, completes s (exec (.cmpReg o) s) (fun x =>
      x.wp o.d.toNat (condition o.w o.cc (x.rg o.a.toNat) (x.rg o.b.toNat)))) ∧
    (∀ o : CmpI16, completes s (exec (.cmpImm16 o) s) (fun x =>
      x.wp o.d.toNat (condition o.w o.cc (x.rg o.a.toNat) (o.imm.signExtend 64)))) ∧
    (∀ o : CmpI32, completes s (exec (.cmpImm32 o) s) (fun x =>
      x.wp o.d.toNat (condition o.w o.cc (x.rg o.a.toNat) (o.imm.signExtend 64)))) ∧
    (∀ o : PPP, completes s (exec (.pand o) s) (fun x => x.wp o.d.toNat (x.rp o.a.toNat && x.rp o.b.toNat))) ∧
    (∀ o : PPP, completes s (exec (.por o) s) (fun x => x.wp o.d.toNat (x.rp o.a.toNat || x.rp o.b.toNat))) ∧
    (∀ o : PPP, completes s (exec (.pxor o) s) (fun x => x.wp o.d.toNat (x.rp o.a.toNat ^^ x.rp o.b.toNat))) ∧
    (∀ o : PP, completes s (exec (.pnot o) s) (fun x => x.wp o.d.toNat (!x.rp o.a.toNat))) ∧
    completes s (exec .nop s) id

/-- R115 to R122, R128: selects, moves and immediates, addresses and tags, compares and predicates. -/
def Obligations.MovesAddressesCompares : Prop := SelectMoveImmediate ∧ AddressesAndTags ∧ ComparesAndPredicates

/-! ### Fetch, decoding, control transfer (R56 to R62, R67, R123 to R127) -/

/-- The target of R61: the line d lines away, slot s, bit 0 zero. -/
def Sys2Proof.Claims.targetOf {k : Nat} (pc : Word) (d : BitVec k) (slot : BitVec 5) : Word :=
  (pc.extractLsb' 6 58 + d.signExtend 58) ++ slot ++ 0#1

/-- What a control transfer does for a context with the record x: whether it is taken, where to, and what it writes. -/
def Sys2Proof.Claims.transferOf (s : State) (i : Instr) : Option (Bool × Word × (Ctx → Ctx)) :=
  let x := s.ctx s.cur
  let np := s.nextPc s.cur
  match i with
  | .brNear o => some (x.rp o.p.toNat != o.f, targetOf x.pc o.disp o.slot, id)
  | .brFar o => some (x.rp o.p.toNat != o.f, targetOf x.pc o.disp o.slot, id)
  | .jmpNear o => some (true, targetOf x.pc o.disp o.slot, id)
  | .jmpFar o => some (true, targetOf x.pc o.disp o.slot, id)
  | .jalNear o => some (true, targetOf x.pc o.disp o.slot, fun x => x.wg o.d.toNat np)
  | .jalFar o => some (true, targetOf x.pc o.disp o.slot, fun x => x.wg o.d.toNat np)
  | .jr o => some (true, x.rg o.a.toNat, fun x => x.wg o.d.toNat np)
  | .loop o => some (x.rg o.d.toNat != 1, targetOf x.pc o.disp o.slot, fun x => x.wg o.d.toNat (x.rg o.d.toNat - 1))
  | _ => none

/-- R124 to R127: `br`, `jmp`, `jal`, `jr` and `loop` go to their target when it passes its checks, with the link or the
count written; `br` and `loop` that are not taken go on; a target that fails is a cause and nothing else. -/
def Sys2Proof.Claims.ControlTransfer : Prop :=
  ∀ (s : State) (i : Instr) (taken : Bool) (t : Word) (f : Ctx → Ctx),
    i.wf = true → transferOf s i = some (taken, t, f) →
    (taken = false → completes s (exec i s) f) ∧
    (∀ l, taken = true → s.checkTarget s.cur t = .ok l → jumps s (exec i s) f t l) ∧
    (∀ e, taken = true → s.checkTarget s.cur t = .error e → exec i s = .next (s.stopped s.cur e))

/-- R62, R338: the checks of a target whose line is not held, in their order, for a line whose bank answers now; a detached
member of a swarm first waits for the fetch port of its quad. -/
def Sys2Proof.Claims.TargetChecks : Prop :=
  ∀ (s : State) (c : CtxId) (t : Word),
    let a := t.toNat / 64 * 64
    let l := BitVec.ofNat 512 (s.sramBytes c.vt a 64)
    let port : Prop := (s.ctx c).member.map (·.det) = some true ∧ (s.ctx c).prog.served = false
    (∀ b m, (s.ctx c).line = some (b, m) → b ≠ a) →
    (¬ (0x01000000 ≤ a ∧ a ≤ 0x012FFFC0) → s.checkTarget c t = .error (.cause .addressForm t)) ∧
    (0x01000000 ≤ a ∧ a ≤ 0x012FFFC0 → port → s.checkTarget c t = .error (.need (.port t.toNat))) ∧
    (∀ n, 0x01000000 ≤ a ∧ a ≤ 0x012FFFC0 → ¬ port → s.bankWait c a = some n → s.checkTarget c t = .error (.need n)) ∧
    (0x01000000 ≤ a ∧ a ≤ 0x012FFFC0 → ¬ port → s.bankWait c a = none →
      (∀ k, k < 8 → (∀ j, j < k → s.sramPois c.vt (a + 8 * j) = false) → s.sramPois c.vt (a + 8 * k) = true →
        s.checkTarget c t = .error (.cause .poisonConsumed (BitVec.ofNat 64 (a + 8 * k)))) ∧
      ((∀ k, k < 8 → s.sramPois c.vt (a + 8 * k) = false) →
        (lineOk l = false → s.checkTarget c t = .error (.cause .operandReserved t)) ∧
        (lineOk l = true →
          ((t.extractLsb' 1 5 = 0 ∨ t.getLsbD 0 = true ∨ headCount l < (t.extractLsb' 1 5).toNat) →
            s.checkTarget c t = .error (.cause .targetEmpty t)) ∧
          (t.extractLsb' 1 5 ≠ 0 → t.getLsbD 0 = false → (t.extractLsb' 1 5).toNat ≤ headCount l →
            s.checkTarget c t = .ok (a, l)))))

/-- R62, R123 to R127: branches, jumps, calls and loops, and the checks of their targets. -/
def Obligations.ControlTransfers : Prop := ControlTransfer ∧ TargetChecks

/-- R59: sequential flow stays in the line while it has heads, then goes to slot 1 of the next line. -/
def Sys2Proof.Claims.NextPc : Prop :=
  ∀ (s : State) (c : CtxId),
    let pc := (s.ctx c).pc
    let n := headCount (s.lineOfPc c)
    s.nextPc c = if (pc.extractLsb' 1 5).toNat < n then pc + 2 else (pc.extractLsb' 6 58 + 1) ++ 1#5 ++ 0#1

/-- R60, R62, R231, R265: a context that enters the line of its PC fetches it from its instruction store. -/
def Sys2Proof.Claims.FetchReadsTheStore : Prop :=
  ∀ (s : State) (c : CtxId),
    let pc := (s.ctx c).pc
    let a := pc.toNat / 64 * 64
    let l := BitVec.ofNat 512 (s.sramBytes c.vt a 64)
    (s.ctx c).line = none → s.bankWait c a = none → 0x01000000 ≤ a → a ≤ 0x012FFFC0 →
    (∀ k, k < 8 → s.sramPois c.vt (a + 8 * k) = false) → lineOk l = true →
    pc.extractLsb' 1 5 ≠ 0 → pc.getLsbD 0 = false → (pc.extractLsb' 1 5).toNat ≤ headCount l →
    s.fetch c = .ok (a, l)

/-- A step for which the agenda names an issue, at a context that may issue, has no cause pending and runs no sequence,
fetches, decodes and runs the decoded instruction; what follows from it settles in the same step. -/
def Obligations.StepRunsDecoded : Prop :=
  ∀ (s : State) (c : CtxId) (m : List Move) (l : Nat × Vec) (i : Instr),
    let s0 : State := { s with agenda := m }
    let s1 := s0.started c
    let s2 := s1.holdLine c l
    s.agenda = .issue c :: m → s0.mayIssue c = true → (s1.ctx c).pend = [] → (s1.ctx c).live = none →
    s1.fetch c = .ok l → s2.decodeAt c l.2 = .ok i →
    step s = settled (exec i (if i.isComb then s2 else s2.dropResume c))

/-- R67: an undefined opcode or an unbound comb opcode raises opcode-undefined, a form or operand field that is not accepted
raises operand-reserved, both with the head as their value and before the instruction has any effect. -/
def Obligations.DecodingFaults : Prop :=
  ∀ (s : State) (c : CtxId) (m : List Move) (l : Nat × Vec),
    let s0 : State := { s with agenda := m }
    let s1 := s0.started c
    let s2 := s1.holdLine c l
    let h := halfword l.2 (slotOf (s2.ctx c).pc)
    let unbound : Prop := 0xE0 ≤ h / 256 % 256 ∧ ((s2.ctx c).bind (h / 256 % 256 - 0xE0)).valid = false
    let refusedFor (k : Cause) : Prop :=
      step s = .next ((s2.dropResume c).stopped c (.cause k (BitVec.ofNat 64 h))).settle
    s.agenda = .issue c :: m → s0.mayIssue c = true → (s1.ctx c).pend = [] → (s1.ctx c).live = none → s1.fetch c = .ok l →
    (unbound → refusedFor .opcodeUndefined) ∧
    (¬ unbound → decode h (tailAt l.2 (slotOf (s2.ctx c).pc)) = .undefined → refusedFor .opcodeUndefined) ∧
    (¬ unbound → decode h (tailAt l.2 (slotOf (s2.ctx c).pc)) = .reserved → refusedFor .operandReserved)

/-! ### Registers II: scalar floating point and the wide extension (R46, R132 to R148) -/

/-- The result and the conditions of an arithmetic operation on the low bits of three registers: the exact result of R137,
rounded once (R46). -/
def Sys2Proof.Claims.arithmetic (op : FOp) (f : FFmt) (rm : RMode) (a b c : Word) : Nat × FFlags :=
  let v (r : Word) : Fl := f.value (r.toNat % 2 ^ f.bits)
  f.finish (op.exact (v a) (v b) (v c) rm) rm false 0

/-- A code goes to a g register, zero above it, and its conditions to cstat, where they only ever set bits (R132, R134). -/
def Sys2Proof.Claims.writesCode (d : GReg) (r : Nat × FFlags) (x : Ctx) : Ctx :=
  { x.wg d.toNat (BitVec.ofNat 64 r.1) with cstat := x.cstat ||| r.2.bits.setWidth 64 }

/-- R132, R134, R137 to R141: the arithmetic, comparison and sign instructions of the scalar unit. -/
def Sys2Proof.Claims.ScalarFloatInstructions : Prop :=
  ∀ s : State,
    let g (r : GReg) (x : Ctx) : Word := x.rg r.toNat
    (∀ o : FArith, completes s (exec (.fadd o) s) (fun x =>
      writesCode o.d (arithmetic .add o.ft.fmt o.rm (g o.a x) (g o.b x) 0) x)) ∧
    (∀ o : FArith, completes s (exec (.fsub o) s) (fun x =>
      writesCode o.d (arithmetic .sub o.ft.fmt o.rm (g o.a x) (g o.b x) 0) x)) ∧
    (∀ o : FArith, completes s (exec (.fmul o) s) (fun x =>
      writesCode o.d (arithmetic .mul o.ft.fmt o.rm (g o.a x) (g o.b x) 0) x)) ∧
    (∀ o : FFma, completes s (exec (.fma o) s) (fun x =>
      writesCode o.d (arithmetic .fma o.ft.fmt o.rm (g o.a x) (g o.b x) (g o.c x)) x)) ∧
    (∀ o : FArith, completes s (exec (.fdiv o) s) (fun x =>
      writesCode o.d (arithmetic .div o.ft.fmt o.rm (g o.a x) (g o.b x) 0) x)) ∧
    (∀ o : FUn, completes s (exec (.fsqrt o) s) (fun x =>
      writesCode o.d (arithmetic .sqrt o.ft.fmt o.rm (g o.a x) 0 0) x)) ∧
    (∀ o : FMinMax, completes s (exec (.fmin o) s) (fun x => x.wg o.d.toNat (BitVec.ofNat 64
      (fminmax false o.ft.fmt ((g o.a x).toNat % 2 ^ o.ft.fmt.bits) ((g o.b x).toNat % 2 ^ o.ft.fmt.bits))))) ∧
    (∀ o : FMinMax, completes s (exec (.fmax o) s) (fun x => x.wg o.d.toNat (BitVec.ofNat 64
      (fminmax true o.ft.fmt ((g o.a x).toNat % 2 ^ o.ft.fmt.bits) ((g o.b x).toNat % 2 ^ o.ft.fmt.bits))))) ∧
    (∀ o : FCmp, completes s (exec (.fcmp o) s) (fun x =>
      let r := fcompare o.cc (o.ft.fmt.value ((g o.a x).toNat % 2 ^ o.ft.fmt.bits))
        (o.ft.fmt.value ((g o.b x).toNat % 2 ^ o.ft.fmt.bits))
      { x.wp o.d.toNat r.1 with cstat := if r.2 then x.cstat ||| 0x10 else x.cstat })) ∧
    (∀ o : FClass, completes s (exec (.fclass o) s) (fun x => x.wg o.d.toNat
      (BitVec.ofNat 64 (fclassMask o.ft.fmt ((g o.a x).toNat % 2 ^ o.ft.fmt.bits))))) ∧
    (∀ o : FSgn, (Instr.fsgn o).wf = true → completes s (exec (.fsgn o) s) (fun x =>
      let w := if o.ft = .f32 then 32 else 16
      let sa := (g o.a x).getLsbD (w - 1)
      let sb := (g o.b x).getLsbD (w - 1)
      let sign : Bool := match o.sg with
        | .cp => sb
        | .neg => !sb
        | .xor => sa ^^ sb
      x.wg o.d.toNat (((g o.a x) &&& (BitVec.allOnes 64 >>> (65 - w))) ||| (if sign then 1#64 <<< (w - 1) else 0)))) ∧
    (∀ o : FCvt, ∀ f t, (Instr.fcvt o).wf = true → NFmt.ofCode o.src.toNat = some f → NFmt.ofCode o.dst.toNat = some t →
      completes s (exec (.fcvt o) s) (fun x =>
        let r := convert f t ((g o.a x).toNat % 2 ^ f.bits) o.rm o.sat 0
        { x.wg o.d.toNat (t.toReg r.1) with cstat := x.cstat ||| r.2.bits.setWidth 64 }))

/-- The width, trailing bits and bias of a float type (R35). -/
def Sys2Proof.Claims.layoutOf (f : FloatTy) : Nat × Nat × Int :=
  match f with
  | .f32 => (32, 23, 127)
  | .bf16 => (16, 7, 127)
  | .h16 => (16, 10, 15)
  | .f64 => (64, 52, 1023)

/-- R35, R36, R138 to R140: the value of a code by its fields, and `fmin`, `fmax`, `fcmp` and `fclass` by the codes alone: codes
of one sign are ordered as their magnitudes are; −0 is below +0 for `fmin` and `fmax`, and equal to it for `fcmp`; a NaN gives
way to a number, and two NaNs give the canonical one. -/
def Sys2Proof.Claims.FloatFunctions : Prop :=
  ∀ f : FloatTy,
    let F := f.fmt
    let w := (layoutOf f).1
    let t := (layoutOf f).2.1
    let bias := (layoutOf f).2.2
    let neg (c : Nat) : Bool := decide (2 ^ (w - 1) ≤ c)
    let mag (c : Nat) : Nat := c % 2 ^ (w - 1)
    let top := 2 ^ (w - 1) - 2 ^ t
    let nan (c : Nat) : Bool := decide (top < mag c)
    let canonical := top + 2 ^ (t - 1)
    let key (c : Nat) : Int := if neg c then -(mag c : Int) - 1 else mag c
    let num (c : Nat) : Int := if neg c then -(mag c : Int) else mag c
    F.bits = w ∧ F.t = t ∧
    (∀ c, c < 2 ^ w →
      F.value c = (if top < mag c then .nan else if mag c = top then .inf (neg c)
        else if mag c < 2 ^ t then .fin (neg c) (mag c) (1 - bias - t)
        else .fin (neg c) (2 ^ t + mag c % 2 ^ t) ((mag c / 2 ^ t : Nat) - bias - t)) ∧
      fclassMask F c = 2 ^ (
        if nan c then 8
        else if mag c = top then (if neg c then 0 else 7)
        else if mag c = 0 then (if neg c then 3 else 4)
        else if mag c < 2 ^ t then (if neg c then 2 else 5)
        else (if neg c then 1 else 6))) ∧
    (∀ a b, a < 2 ^ w → b < 2 ^ w →
      (∀ big : Bool, fminmax big F a b =
        if nan a && nan b then canonical
        else if nan a then b
        else if nan b then a
        else if big = false then (if key a ≤ key b then a else b)
        else (if key a ≤ key b then b else a)) ∧
      (∀ cc, fcompare cc (F.value a) (F.value b) =
        let un := nan a || nan b
        match cc with
        | .eq => (!un && decide (num a = num b), false)
        | .lt => (!un && decide (num a < num b), un)
        | .le => (!un && decide (num a ≤ num b), un)
        | .un => (un, false)
        | .ne => (un || decide (num a ≠ num b), false)))

/-- R35, R132 to R141: the scalar float instructions, and what their functions give. -/
def Obligations.ScalarFloat : Prop := ScalarFloatInstructions ∧ FloatFunctions

/-- A format that conversions name (R43, R154): those of R43 and the unsigned 64-bit lane. -/
def Sys2Proof.Claims.known (n : NFmt) : Prop := (∃ k, NFmt.ofCode k = some n) ∨ n = .int false 64

/-- The canonical NaN of a floating-point format (R35, R37). -/
def Sys2Proof.Claims.canonicalNan (f : FFmt) : Nat :=
  if f = FloatTy.f32.fmt then 0x7FC00000
  else if f = FloatTy.bf16.fmt then 0x7FC0
  else if f = FloatTy.h16.fmt then 0x7E00
  else if f = FloatTy.f64.fmt then 0x7FF8000000000000
  else if f.signed then 0x80 else 0xFF

/-- R46, R49, R52: a value rounds to n units of the last place that its magnitude has in the format; where that is no more than
the largest finite value the code stands for exactly n units, else the mode and the saturation bit say what is delivered. -/
def Sys2Proof.Claims.RoundingToFormats : Prop :=
  ∀ f : FFmt, known (.flt f) → ∀ (x : Ex) (rm : RMode) (sat : Bool) (r : Nat), x.more = false → x.m ≠ 0 →
    let got := f.round x rm sat r
    let q := max ((x.m.log2 : Int) + x.e - f.t) (1 - f.bias - f.t)
    let n := (roundAt x q rm r).1
    let stays : Bool := match rm with
      | .rtz => true
      | .rdn => !x.neg
      | .rup => x.neg
      | _ => false
    (x.neg = true → f.signed = false → got = (if sat then 0 else 0xFF, { nv := true })) ∧
    (x.neg = false ∨ f.signed = true → ∀ M E, f.value f.maxCode = .fin false M E →
      ((n : ℚ) * 2 ^ q ≤ M * 2 ^ E →
        got.2.nv = false ∧ got.2.dz = false ∧ got.2.ovf = false ∧ got.2.nx = (roundAt x q rm r).2 ∧
        ∃ neg m e, f.value got.1 = .fin neg m e ∧ (m : ℚ) * 2 ^ e = n * 2 ^ q ∧ (m ≠ 0 → neg = x.neg)) ∧
      ((M : ℚ) * 2 ^ E < n * 2 ^ q →
        got.2.ovf = true ∧ got.2.nx = true ∧
        f.value got.1 = if sat || stays then .fin x.neg M E else if f.hasInf then .inf x.neg else .nan))

/-- R34, R49 to R51, R142, R147, R169: what a conversion makes of a NaN, an infinity, a zero, a code of the destination's own
format, and of any other value, which it rounds once; integers wrap or clamp and never round. -/
def Sys2Proof.Claims.ConvertedValues : Prop :=
  ∀ (src dst : NFmt) (code : Nat) (rm : RMode) (sat : Bool) (r : Nat), known src → known dst →
    let got := convert src dst code rm sat r
    (∀ f, dst = .flt f →
      (src = dst → got = (if f.value code = .nan then canonicalNan f else code % 2 ^ f.bits, {})) ∧
      (src ≠ dst →
        (src.value code = .nan → got = (canonicalNan f, {})) ∧
        (∀ neg, src.value code = .inf neg → f.signed = false → neg = true → got = (if sat then 0 else 0xFF, { nv := true })) ∧
        (∀ neg, src.value code = .inf neg → f.signed = true ∨ neg = false → got.2 = { nv := !f.hasInf } ∧
          (sat = true → ∀ M E, f.value f.maxCode = .fin false M E → f.value got.1 = .fin neg M E) ∧
          (sat = false → f.value got.1 = if f.hasInf then .inf neg else .nan)) ∧
        (∀ neg e, src.value code = .fin neg 0 e → got = (if neg && f.ieee then 2 ^ (f.bits - 1) else 0, {})) ∧
        (∀ neg m e, src.value code = .fin neg m e → m ≠ 0 → got = f.round ⟨neg, m, e, false⟩ rm sat r))) ∧
    (∀ sg w, dst = .int sg w →
      let lo : Int := if sg then -(2 ^ (w - 1)) else 0
      let hi : Int := if sg then 2 ^ (w - 1) - 1 else 2 ^ w - 1
      let indefinite : Nat := if sg then 2 ^ (w - 1) else 2 ^ w - 1
      let low (i : Int) : Nat := (i % 2 ^ w).toNat
      (∀ sg' w', src = .int sg' w' →
        let i : Int := intValue sg' w' code
        got = (low (if sat then max lo (min hi i) else i), {})) ∧
      (∀ g, src = .flt g →
        (g.value code = .nan → got = (if sat then 0 else indefinite, { nv := true })) ∧
        (∀ neg, g.value code = .inf neg →
          got = (if sat then low (if neg then lo else hi) else indefinite, { nv := true })) ∧
        (∀ neg m e, g.value code = .fin neg m e →
          let n := roundAt ⟨neg, m, e, false⟩ 0 rm r
          let i : Int := if neg then -(n.1 : Int) else n.1
          (lo ≤ i ∧ i ≤ hi → got = (low i, { nx := n.2 })) ∧
          (¬ (lo ≤ i ∧ i ≤ hi) → got = (if sat then low (max lo (min hi i)) else indefinite, { nv := true })))))

/-- R46, R47: where u units are cut off and n is the truncated magnitude, each mode delivers n or n + 1 by the fraction that
was cut off: nearest with ties to even, towards zero, down, up, and the stochastic one by the number drawn. -/
def Sys2Proof.Claims.RoundingOnce : Prop :=
  ∀ (x : Ex) (q : Int) (r : Nat), x.more = false → x.e < q →
    let u := 2 ^ (q - x.e).toNat
    let n := x.m / u
    let rem := x.m % u
    let got (mode : RMode) : Nat := (roundAt x q mode r).1
    (∀ mode, got mode = n ∨ got mode = n + 1) ∧
    (∀ mode, (roundAt x q mode r).2 = decide (rem ≠ 0)) ∧
    (got .rne = n → 2 * rem ≤ u ∧ (2 * rem = u → n % 2 = 0)) ∧
    (got .rne = n + 1 → u ≤ 2 * rem ∧ (2 * rem = u → n % 2 = 1)) ∧
    got .rtz = n ∧
    got .rdn = (if x.neg = true ∧ rem ≠ 0 then n + 1 else n) ∧
    got .rup = (if x.neg = false ∧ rem ≠ 0 then n + 1 else n) ∧
    got .sr = (if 2 ^ 16 ≤ rem * 2 ^ 16 / u + r then n + 1 else n)

/-- R46, R47, R49 to R52: rounding by the modes, rounding to a format, and conversions. -/
def Obligations.RoundingModes : Prop := RoundingOnce ∧ RoundingToFormats ∧ ConvertedValues

/-- R144, R146 to R148: on a working wide core the wide instructions compute in f64; the tally of multiply-accumulates of
R428 is all that changes outside the context. -/
def Sys2Proof.Claims.WideInstructions : Prop :=
  ∀ s : State, s.wideCore s.cur.vt s.cur.core = true →
    let p := s.cur.vt.part
    let g (r : GReg) (x : Ctx) : Word := x.rg r.toNat
    let F := FloatTy.f64.fmt
    (∀ o : DArith, completes s (exec (.dadd o) s) (fun x => writesCode o.d (arithmetic .add F o.rm (g o.a x) (g o.b x) 0) x)) ∧
    (∀ o : DArith, completes s (exec (.dsub o) s) (fun x => writesCode o.d (arithmetic .sub F o.rm (g o.a x) (g o.b x) 0) x)) ∧
    (∀ o : DArith, completes (s.tally p 4 1) (exec (.dmul o) s)
      (fun x => writesCode o.d (arithmetic .mul F o.rm (g o.a x) (g o.b x) 0) x)) ∧
    (∀ o : DFma, completes (s.tally p 4 1) (exec (.dfma o) s)
      (fun x => writesCode o.d (arithmetic .fma F o.rm (g o.a x) (g o.b x) (g o.c x)) x)) ∧
    (∀ o : DArith, completes s (exec (.ddiv o) s) (fun x => writesCode o.d (arithmetic .div F o.rm (g o.a x) (g o.b x) 0) x)) ∧
    (∀ o : DUn, completes s (exec (.dsqrt o) s) (fun x => writesCode o.d (arithmetic .sqrt F o.rm (g o.a x) 0 0) x)) ∧
    (∀ o : FCvt, ∀ f t, (Instr.dcvt o).wf = true → NFmt.ofCode o.src.toNat = some f → NFmt.ofCode o.dst.toNat = some t →
      completes s (exec (.dcvt o) s) (fun x =>
        let r := convert f t ((g o.a x).toNat % 2 ^ f.bits) o.rm o.sat 0
        { x.wg o.d.toNat (t.toReg r.1) with cstat := x.cstat ||| r.2.bits.setWidth 64 })) ∧
    (∀ o : VDFma,
      let x := s.ctx s.cur
      let on (i : Nat) : Prop := o.om = 0 ∨ (x.rg o.om.toNat).getLsbD i = true
      let n := (List.range 8).countP (fun i => decide (o.om = 0) || (x.rg o.om.toNat).getLsbD i)
      let draws := drawsFor o.rm 8 x.csrng
      ∃ w : Vec, completes (s.tally p 4 n) (exec (.vdfma o) s) (fun x => { x.wv o.d.toNat w with csrng := draws.2 }) ∧
        ∀ i, i < 8 →
          (on i → lane w 64 i = (farith .fma F (lane (x.rv o.a.toNat) 64 i) (lane (x.rv o.b.toNat) 64 i)
            (lane (x.rv o.c.toNat) 64 i) o.rm false (draws.1.getD i 0)).1) ∧
          (¬ on i → lane w 64 i = lane (x.rv o.d.toNat) 64 i))

/-- R26, R90: off a working wide core a wide instruction has no effect of its own. On a tile without a working wide core it
raises extension-absent, with its head and the tile's mask. -/
def Sys2Proof.Claims.WideElsewhere : Prop :=
  ∀ (s : State) (i : Instr), s.wideCore s.cur.vt s.cur.core = false → s.wideCount s.cur.vt = 0 →
    (∃ o, i = .dadd o ∨ i = .dsub o ∨ i = .dmul o ∨ i = .ddiv o) ∨ (∃ o, i = .dfma o) ∨ (∃ o, i = .dsqrt o) ∨
      (∃ o, i = .dcvt o) ∨ (∃ o, i = .vdfma o) →
    exec i s = .next (s.stopped s.cur (.raise ⟨.extensionAbsent, s.headAt s.cur, (s.vtile s.cur.vt).mask, 0⟩))

/-- R144 to R153: the binary64 instructions on a wide core, and elsewhere. -/
def Obligations.WideScalars : Prop := WideInstructions ∧ WideElsewhere

/-! ### Registers III: lane instructions (R154 to R177) -/

/-- A lane instruction completes: its destination's enabled lanes receive f, every other lane keeps its value, `csrng` steps
by the numbers drawn, and nothing else changes (R48, R155). -/
def Sys2Proof.Claims.writesLanes (s : State) (r : Step) (d : VReg) (om : GReg) (vt : VTy) (rm : RMode) (draws : Nat)
    (f : Ctx → List Nat → Nat → Nat) : Prop :=
  let x := s.ctx s.cur
  let rs := drawsFor rm draws x.csrng
  ∃ w : Vec, completes s r (fun x => { x.wv d.toNat w with csrng := rs.2 }) ∧
    ∀ i, i < vt.lanes →
      lane w vt.width i =
        if om = 0 ∨ (x.rg om.toNat).getLsbD i = true then f x rs.1 i % 2 ^ vt.width else lane (x.rv d.toNat) vt.width i

/-- The same without random numbers. -/
def Sys2Proof.Claims.movesLanes (s : State) (r : Step) (d : VReg) (om : GReg) (vt : VTy) (f : Ctx → Nat → Nat) : Prop :=
  writesLanes s r d om vt .rne 0 (fun x _ i => f x i)

/-- Lane i of a register as the lane type reads it. -/
def Sys2Proof.Claims.ln (vt : VTy) (r : VReg) (x : Ctx) (i : Nat) : Nat := lane (x.rv r.toNat) vt.width i

/-- What a class I lane receives of an unbounded result, clamped with `.sat`, else its low bits (R157). -/
def Sys2Proof.Claims.intLane (vt : VTy) (sat : Bool) (r : Int) : Nat :=
  (if sat then max (intMin vt.isSigned vt.width) (min (intMax vt.isSigned vt.width) r) else r) % 2 ^ vt.width |>.toNat

/-- A class I lane as an integer (R154). -/
def Sys2Proof.Claims.valOf (vt : VTy) (c : Nat) : Int := intValue vt.isSigned vt.width c

/-- R157, R164: lane arithmetic, class I by unbounded integers and class F as the scalar instructions, rounded once. -/
def Sys2Proof.Claims.LaneArithmetic : Prop :=
  ∀ s : State,
    let n (vt : VTy) : Nat := if vt.isF then vt.lanes else 0
    let v := valOf
    (∀ o : VArith, writesLanes s (exec (.vadd o) s) o.d o.om o.vt o.rm (n o.vt) (fun x rs i =>
      let a := ln o.vt o.a x i
      let b := ln o.vt o.b x i
      if o.vt.isF then (farith .add o.vt.fmt a b 0 o.rm o.sat (rs.getD i 0)).1 else intLane o.vt o.sat (v o.vt a + v o.vt b))) ∧
    (∀ o : VArith, writesLanes s (exec (.vsub o) s) o.d o.om o.vt o.rm (n o.vt) (fun x rs i =>
      let a := ln o.vt o.a x i
      let b := ln o.vt o.b x i
      if o.vt.isF then (farith .sub o.vt.fmt a b 0 o.rm o.sat (rs.getD i 0)).1 else intLane o.vt o.sat (v o.vt a - v o.vt b))) ∧
    (∀ o : VArith, writesLanes s (exec (.vmul o) s) o.d o.om o.vt o.rm (n o.vt) (fun x rs i =>
      let a := ln o.vt o.a x i
      let b := ln o.vt o.b x i
      if o.vt.isF then (farith .mul o.vt.fmt a b 0 o.rm o.sat (rs.getD i 0)).1 else intLane o.vt o.sat (v o.vt a * v o.vt b))) ∧
    (∀ o : VFma, writesLanes s (exec (.vfma o) s) o.d o.om o.vt o.rm (n o.vt) (fun x rs i =>
      let a := ln o.vt o.a x i
      let b := ln o.vt o.b x i
      let c := ln o.vt o.c x i
      if o.vt.isF then (farith .fma o.vt.fmt a b c o.rm o.sat (rs.getD i 0)).1
      else intLane o.vt o.sat (v o.vt a * v o.vt b + v o.vt c))) ∧
    (∀ o : VBin, movesLanes s (exec (.vmin o) s) o.d o.om o.vt (fun x i =>
      let a := ln o.vt o.a x i
      let b := ln o.vt o.b x i
      if o.vt.isF then fminmax false o.vt.fmt a b else if v o.vt a ≤ v o.vt b then a else b)) ∧
    (∀ o : VBin, movesLanes s (exec (.vmax o) s) o.d o.om o.vt (fun x i =>
      let a := ln o.vt o.a x i
      let b := ln o.vt o.b x i
      if o.vt.isF then fminmax true o.vt.fmt a b else if v o.vt a ≤ v o.vt b then b else a)) ∧
    (∀ o : VAbs, movesLanes s (exec (.vabs o) s) o.d o.om o.vt (fun x i =>
      let a := ln o.vt o.a x i
      if o.vt.isF then a % 2 ^ (o.vt.width - 1) else intLane o.vt o.sat (|v o.vt a|)))

/-- R165, R166, R168: bitwise lane operations, shifts by a lane's own count or one from a g register, selection, moves. -/
def Sys2Proof.Claims.LaneBitsShiftsMoves : Prop :=
  ∀ s : State,
    let count (vt : VTy) (b : VG) (x : Ctx) (i : Nat) : Nat := (match b with
      | .v r => lane (x.rv r.toNat) vt.width i
      | .g r => (x.rg r.toNat).toNat) % vt.width
    (∀ o : VBin, movesLanes s (exec (.vand o) s) o.d o.om o.vt (fun x i => ln o.vt o.a x i &&& ln o.vt o.b x i)) ∧
    (∀ o : VBin, movesLanes s (exec (.vor o) s) o.d o.om o.vt (fun x i => ln o.vt o.a x i ||| ln o.vt o.b x i)) ∧
    (∀ o : VBin, movesLanes s (exec (.vxor o) s) o.d o.om o.vt (fun x i => ln o.vt o.a x i ^^^ ln o.vt o.b x i)) ∧
    (∀ o : VShl, movesLanes s (exec (.vshl o) s) o.d o.om o.vt (fun x i =>
      intLane o.vt o.sat (valOf o.vt (ln o.vt o.a x i) * 2 ^ count o.vt o.b x i))) ∧
    (∀ o : VShr, movesLanes s (exec (.vshr o) s) o.d o.om o.vt (fun x i =>
      intLane o.vt false (valOf o.vt (ln o.vt o.a x i) / 2 ^ count o.vt o.b x i))) ∧
    (∀ o : VSel, movesLanes s (exec (.vsel o) s) o.d o.om o.vt (fun x i =>
      if (x.rg o.c.toNat).getLsbD i then ln o.vt o.a x i else ln o.vt o.b x i)) ∧
    (∀ o : VMov, movesLanes s (exec (.vmov o) s) o.d o.om o.vt (fun x i => ln o.vt o.a x i))

/-- R154 to R168: lane arithmetic, bits, shifts and moves. -/
def Obligations.LaneOperations : Prop := LaneArithmetic ∧ LaneBitsShiftsMoves

/-- R173 to R176: broadcast, permutation, slides, and moving one lane to or from a g register. -/
def Sys2Proof.Claims.LaneMovement : Prop :=
  ∀ s : State,
    let idx (vt : VTy) (i : LaneIdx) (x : Ctx) : Nat := match i with
      | .imm k => k.toNat
      | .g r => (x.rg r.toNat).toNat % vt.lanes
    (∀ o : VBcast, movesLanes s (exec (.vbcast o) s) o.d o.om o.vt (fun x _ => match o.src with
      | .g r => (x.rg r.toNat).toNat
      | .v r k => lane (x.rv r.toNat) o.vt.width k.toNat)) ∧
    (∀ o : VBin, movesLanes s (exec (.vperm o) s) o.d o.om o.vt (fun x i =>
      if ln o.vt o.b x i < o.vt.lanes then ln o.vt o.a x (ln o.vt o.b x i) else 0)) ∧
    (∀ o : VSlide, o.up = false → movesLanes s (exec (.vslide o) s) o.d o.om o.vt (fun x i =>
      let n := o.vt.lanes
      let j := i + min (x.rg o.c.toNat).toNat (2 * n)
      if j < n then ln o.vt o.a x j else if j < 2 * n then ln o.vt o.b x (j - n) else 0)) ∧
    (∀ o : VSlide, o.up = true → movesLanes s (exec (.vslide o) s) o.d o.om o.vt (fun x i =>
      let n := o.vt.lanes
      let k := min (x.rg o.c.toNat).toNat (2 * n)
      if k ≤ i then ln o.vt o.a x (i - k) else if k ≤ n + i then ln o.vt o.b x (n + i - k) else 0)) ∧
    (∀ o : VExt, completes s (exec (.vext o) s) (fun x =>
      let c := ln o.vt o.a x (idx o.vt o.idx x)
      x.wg o.d.toNat (if o.vt.isF then BitVec.ofNat 64 c else BitVec.ofInt 64 (valOf o.vt c)))) ∧
    (∀ o : VIns, (Instr.vins o).wf = true → ∃ w : Vec,
      completes s (exec (.vins o) s) (fun x => x.wv o.d.toNat w) ∧
      ∀ i, i < o.vt.lanes → lane w o.vt.width i =
        if i = idx o.vt o.idx (s.ctx s.cur) then ((s.ctx s.cur).rg o.a.toNat).toNat % 2 ^ o.vt.width
        else ln o.vt o.d (s.ctx s.cur) i)

/-- R167, R171, R172: lane comparison, reductions and scans; a class I sum is the sum of the enabled lanes. -/
def Sys2Proof.Claims.LaneComparesAndReductions : Prop :=
  ∀ s : State,
    let x := s.ctx s.cur
    let on (om : GReg) (i : Nat) : Bool := decide (om = 0) || (x.rg om.toNat).getLsbD i
    (∀ o : VCmp, ∃ m : Word,
      completes s (exec (.vcmp o) s) (fun x => x.wg o.d.toNat m) ∧
      (∀ i, i < o.vt.lanes → m.getLsbD i =
        (on o.om i && vcondHolds o.cc o.vt (ln o.vt o.a x i) (ln o.vt o.b x i))) ∧
      ∀ i, o.vt.lanes ≤ i → m.getLsbD i = false) ∧
    (∀ o : VRed, o.op = .add → o.vt.isF = false →
      completes s (exec (.vred o) s) (fun x => x.wg o.d.toNat (BitVec.ofInt 64 (intValue o.vt.isSigned o.vt.width (intLane o.vt o.sat
        (((List.range o.vt.lanes).filter (on o.om)).map (fun i => valOf o.vt (ln o.vt o.a x i))).sum))))) ∧
    (∀ o : VRed,
      let r := laneReduce o.op o.vt o.rm o.sat (if o.om = 0 then BitVec.allOnes 64 else x.rg o.om.toNat) (x.rv o.a.toNat) x.csrng
      completes s (exec (.vred o) s) (fun x => { x.wg o.d.toNat r.1 with csrng := r.2 })) ∧
    (∀ o : VScan, writesLanes s (exec (.vscan o) s) o.d o.om o.vt o.rm
      (if o.vt.isF = true ∧ o.op = .add then o.vt.lanes else 0) (fun x rs i =>
        (scanCodes o.op o.vt o.rm o.sat o.ex (if o.om = 0 then BitVec.allOnes 64 else x.rg o.om.toNat) (x.rv o.a.toNat) rs).getD i 0))

/-- The combination of two codes of a lane type (R157, R164, R170). -/
def Sys2Proof.Claims.combined (op : RedOp) (vt : VTy) (rm : RMode) (sat : Bool) (r a b : Nat) : Nat :=
  match op with
  | .add => if vt.isF then (farith .add vt.fmt a b 0 rm sat r).1 else intLane vt sat (valOf vt a + valOf vt b)
  | .min => if vt.isF then fminmax false vt.fmt a b else if valOf vt a ≤ valOf vt b then a else b
  | .max => if vt.isF then fminmax true vt.fmt a b else if valOf vt a ≤ valOf vt b then b else a
  | .and => a &&& b
  | .or => a ||| b
  | .xor => a ^^^ b

/-- What no lane at all gives (R170). -/
def Sys2Proof.Claims.identityOf (op : RedOp) (vt : VTy) : Nat :=
  let w := vt.width
  match vt with
  | .f32 => (match op with
    | .min => 0x7F800000
    | .max => 0xFF800000
    | _ => if op = .and then 2 ^ w - 1 else 0)
  | .bf16 => (match op with
    | .min => 0x7F80
    | .max => 0xFF80
    | _ => if op = .and then 2 ^ w - 1 else 0)
  | .h16 => (match op with
    | .min => 0x7C00
    | .max => 0xFC00
    | _ => if op = .and then 2 ^ w - 1 else 0)
  | _ => (match op with
    | .min => if vt.isSigned then 2 ^ (w - 1) - 1 else 2 ^ w - 1
    | .max => if vt.isSigned then 2 ^ (w - 1) else 0
    | .and => 2 ^ w - 1
    | _ => 0)

/-- The exact sum of finite values, as a rational number. -/
def Sys2Proof.Claims.total (vs : List Fl) : ℚ :=
  (vs.map (fun v => match v with
    | .fin neg m e => (if neg then -1 else 1) * (m : ℚ) * 2 ^ e
    | _ => 0)).sum

/-- R157, R170 to R172: the sum of float lanes is their exact sum rounded once, with the rules of NaN, infinity and zero; every
other reduction folds the enabled lanes, which for one lane gives it as it stands (the model's reading, log entry 68); a scan
folds them in ascending order, each step rounding by its own number. -/
def Sys2Proof.Claims.ReductionValues : Prop :=
  ∀ (op : RedOp) (vt : VTy) (rm : RMode) (sat : Bool) (m : Word) (a : Vec) (rng : Word),
    let on := (List.range vt.lanes).filter (fun i => m.getLsbD i)
    let xs := on.map (fun i => lane a vt.width i)
    let got := laneReduce op vt rm sat m a rng
    let F := vt.fmt
    let vs := xs.map F.value
    let rs := drawsFor rm (if vt.isF = true ∧ op = .add then 1 else 0) rng
    let reg (c : Nat) : Word := if vt.isF then BitVec.ofNat 64 c else BitVec.ofInt 64 (valOf vt c)
    let inf (neg : Bool) : Word := BitVec.ofNat 64 (if sat then F.maxFinite neg else F.infCode neg)
    got.2 = rs.2 ∧
    (op = .add → vt.isF = true →
      (.nan ∈ vs ∨ (.inf false ∈ vs ∧ .inf true ∈ vs) → got.1 = reg (canonicalNan F)) ∧
      (∀ neg, .nan ∉ vs → .inf neg ∈ vs → .inf (!neg) ∉ vs → got.1 = inf neg) ∧
      ((∀ v ∈ vs, ∃ neg k e, v = .fin neg k e) →
        (total vs = 0 →
          let zeros : Prop := ∀ v ∈ vs, ∃ neg e, v = .fin neg 0 e
          let minus := reg (2 ^ (vt.width - 1))
          (zeros → vs ≠ [] → (∀ v ∈ vs, ∃ e, v = .fin true 0 e) → got.1 = minus) ∧
          (zeros → vs = [] ∨ ¬ (∀ v ∈ vs, ∃ e, v = .fin true 0 e) → got.1 = 0) ∧
          (¬ zeros → got.1 = if rm = .rdn then minus else 0)) ∧
        (total vs ≠ 0 → ∃ x : Ex, x.more = false ∧ (if x.neg then -1 else 1) * (x.m : ℚ) * 2 ^ x.e = total vs ∧
          got.1 = reg (F.round x rm sat (rs.1.getD 0 0)).1))) ∧
    (op ≠ .add → got.1 = reg (match xs with
      | [] => identityOf op vt
      | c :: r => r.foldl (combined op vt rm sat 0) c)) ∧
    (∀ (ex : Bool) (ns : List Nat), ∃ acc : Nat → Option Nat, acc 0 = none ∧ ∀ i, i < vt.lanes →
      (m.getLsbD i = false → acc (i + 1) = acc i) ∧
      (m.getLsbD i = true →
        acc (i + 1) = some (match acc i with
          | none => lane a vt.width i
          | some x => combined op vt rm sat (ns.getD i 0) x (lane a vt.width i)) ∧
        some ((scanCodes op vt rm sat ex m a ns).getD i 0) =
          if ex then some ((acc i).getD (identityOf op vt)) else acc (i + 1)))

/-- R163 to R178: movement between lanes, compares, reductions and scans. -/
def Obligations.LaneMovesAndReductions : Prop := LaneMovement ∧ LaneComparesAndReductions ∧ ReductionValues

/-- R177: the special results of `vfn` in every type, the results stated exactly, bf16 and h16 results rounded once from the
function's value, and f32 results within the bound of it or nearest to it. The value is the one `VFun.exact` holds; of `.rcp` and
`.rsqrt` it is fixed here as a number. Which f32 code within the bound the device returns stays open (log entry 16), and the sign
of the zero that `.cospi` has at half-integers is the model's choice (log entry 79). -/
def Sys2Proof.Claims.FunctionValues : Prop :=
  ∀ (fn : VFun) (vt : VTy) (code : Nat) (rm : RMode) (sat : Bool) (r : Nat), vt.isF = true → code < 2 ^ vt.width →
    r < 2 ^ 16 →
    let F := vt.fmt
    let got := fn.lane vt code rm sat r
    let nan : Prop := got = canonicalNan F
    let zero (neg : Bool) : Prop := got = if neg then 2 ^ (vt.width - 1) else 0
    let inf (neg : Bool) : Prop := got = if sat then F.maxFinite neg else F.infCode neg
    let is (neg : Bool) (q : ℚ) : Prop := ∃ m e, F.value got = .fin neg m e ∧ (m : ℚ) * 2 ^ e = q
    (F.value code = .nan → nan) ∧
    (∀ neg e, F.value code = .fin neg 0 e → match fn with
      | .rcp => inf neg
      | .rsqrt => inf neg
      | .exp2 => is false 1
      | .log2 => inf true
      | .sinpi => zero neg
      | .cospi => is false 1
      | .tanh => zero neg
      | .sigm => is false (1 / 2)) ∧
    (∀ neg, F.value code = .inf neg → match fn with
      | .rcp => zero neg
      | .rsqrt => if neg then nan else zero false
      | .exp2 => if neg then zero false else inf false
      | .log2 => if neg then nan else inf false
      | .sinpi => nan
      | .cospi => nan
      | .tanh => is neg 1
      | .sigm => if neg then zero false else is false 1) ∧
    (∀ neg m e, F.value code = .fin neg m e → m ≠ 0 →
      (neg = true → fn = .rsqrt ∨ fn = .log2 → nan) ∧
      (fn = .log2 → neg = false → (m : ℚ) * 2 ^ e = 1 → zero false) ∧
      (∀ i : Nat, (m : ℚ) * 2 ^ e = i →
        (fn = .sinpi → zero neg) ∧ (fn = .cospi → is (decide (i % 2 = 1)) 1)) ∧
      (vt ≠ .f32 → got = (F.finish (fn.exact neg m e) rm sat r).1) ∧
      (fn = .rcp → ∃ x, fn.exact neg m e = .val x ∧ x.neg = neg ∧ 2 ^ 159 ≤ x.m ∧
        (x.m : ℚ) * 2 ^ x.e ≤ 1 / (m * 2 ^ e) ∧ 1 / (m * 2 ^ e) < (x.m + 1 : ℚ) * 2 ^ x.e ∧
        (x.more = false ↔ (x.m : ℚ) * 2 ^ x.e = 1 / (m * 2 ^ e))) ∧
      (fn = .rsqrt → neg = false → ∃ x, fn.exact neg m e = .val x ∧ x.neg = false ∧ 2 ^ 159 ≤ x.m ∧
        ((x.m : ℚ) * 2 ^ x.e) ^ 2 ≤ 1 / (m * 2 ^ e) ∧ 1 / (m * 2 ^ e) < ((x.m + 1 : ℚ) * 2 ^ x.e) ^ 2 ∧
        (x.more = false ↔ ((x.m : ℚ) * 2 ^ x.e) ^ 2 = 1 / (m * 2 ^ e))) ∧
      (∀ x, vt = .f32 → fn.exact neg m e = .val x → got = (F.round x .rne sat 0).1 ∨
        withinBound (fn.bound (.fin neg m e) ((x.m.log2 : Int) + x.e)) x (BitVec.ofNat 32 got) = true))

/-- R169, R177: conversion of lanes between types, by parts where the widths differ, and function approximation. -/
def Sys2Proof.Claims.LaneConversionInstructions : Prop :=
  ∀ s : State,
    (∀ o : VCvt,
      let x := s.ctx s.cur
      let ns := o.vt.lanes
      let nd := o.dst.lanes
      let c := min ns nd
      let rs := drawsFor o.rm (if o.dst.isF || o.vt.isF then c else 0) x.csrng
      ∃ w : Vec, completes s (exec (.vcvt o) s) (fun x => { x.wv o.d.toNat w with csrng := rs.2 }) ∧
        ∀ d, d < nd →
          let first := if nd ≤ ns then 0 else o.part.toNat * ns
          let from_ := if nd ≤ ns then o.part.toNat * nd + d else d - first
          lane w o.dst.width d =
            if first ≤ d ∧ d < first + c ∧ (o.om = 0 ∨ (x.rg o.om.toNat).getLsbD d = true) then
              (convert o.vt.nfmt o.dst.nfmt (lane (x.rv o.a.toNat) o.vt.width from_) o.rm o.sat (rs.1.getD (d - first) 0)).1
                % 2 ^ o.dst.width
            else lane (x.rv o.d.toNat) o.dst.width d) ∧
    (∀ o : VFn, writesLanes s (exec (.vfn o) s) o.d o.om o.vt o.rm o.vt.lanes (fun x rs i =>
      o.fn.lane o.vt (ln o.vt o.a x i) o.rm o.sat (rs.getD i 0)))

/-- R169, R177: lanes converted, and the functions of `vfn`. -/
def Obligations.LaneConversions : Prop := LaneConversionInstructions ∧ FunctionValues

/-! ### Memory (R226 to R237, R249 to R252, R258 to R284) -/

/-- What a state looks like in which an instruction's own effect on the rest of the machine has made s' of s and the
instruction has completed: its context has gone on to NextPC with f of its record, nothing else differs from s'. -/
def Sys2Proof.Claims.completesVia (s s' : State) (r : Step) (f : Ctx → Ctx) : Prop :=
  ∃ t, r = .next t ∧ (∀ c, c ≠ s.cur → t.ctx c = s'.ctx c) ∧ { t with ctxs := s'.ctxs } = s' ∧
    wentOn (s'.ctx s.cur) (t.ctx s.cur) (s.nextPc s.cur) ∧ t.ctx s.cur = (f (s'.ctx s.cur)).placedAs (t.ctx s.cur)

/-- The record x of a context that has blocked (R335). -/
def Sys2Proof.Claims.blocked (x : Ctx) (why : BlockWhy) (w : Wait) (lim : Option Nat) : Ctx :=
  { x with
    st := .blocked, why := why, wait := some w, lim := lim, stamp := x.issuedAt, prog := {}, knot := false
    probeLeft := (x.cprobe.setWidth 32).toNat }

/-- The context the machine acts for holds the line of its PC, as it does whenever it issues. -/
abbrev Sys2Proof.Claims.holdsLine (s : State) : Prop :=
  (s.ctx s.cur).line.map (·.1) = some ((s.ctx s.cur).pc.toNat / 64 * 64)

/-- The instruction has issued and goes on, or its wait field lets it issue (R66, R252): bit 0 asks for Q = 0, bit 1 for
H = 0. -/
abbrev Sys2Proof.Claims.mayStart (s : State) (w : WaitF) : Prop :=
  ((s.ctx s.cur).prog ≠ {} ∧ (s.ctx s.cur).prog.entry = false) ∨ ((w.getLsbD 0 = true → (s.ctx s.cur).q = 0) ∧ (w.getLsbD 1 = true → (s.core s.cur.coreId).h = 0))

/-- A context with the monitor it may have on the SRAM word of a; it is watched while its vtile stands on a tile. -/
def Sys2Proof.Claims.woken (s : State) (v : VtId) (a : Nat) (c : CtxId) (x : Ctx) : Ctx :=
  if c.vt = v ∧ s.stands v = true ∧ x.mon.armed = true ∧ x.mon.phys = none ∧ x.mon.maddr / 8 = a / 8 then
    { x with mon := { x.mon with fired := true } } else x

/-- s' is s after the n low bytes of val were written at address a of the SRAM of vtile v (R230, R279): those bytes and
no others, a whole word without its poison, and the monitors on the word fired. -/
def Sys2Proof.Claims.storedSram (s s' : State) (v : VtId) (a n val : Nat) : Prop :=
  (∀ k, NMap.get 0 s'.mem k =
    if sramKey v a ≤ k ∧ k < sramKey v a + n then BitVec.ofNat 8 (val / 256 ^ (k - sramKey v a)) else NMap.get 0 s.mem k) ∧
  (∀ w, NSet.mem s'.pois w = if n = 8 ∧ w = sramKey v a / 8 then false else NSet.mem s.pois w) ∧
  (∀ c, s'.ctx c = woken s v a c (s.ctx c)) ∧
  { s' with mem := s.mem, pois := s.pois, ctxs := s.ctxs } = s

/-- s' is s after the n low bytes of val were written at home at physical address pa (R237, R242, R279, R428): those
bytes and no others, poison kept where the write is partial, and the monitors on the words fired. -/
def Sys2Proof.Claims.storedHome (s s' : State) (pa n val : Nat) : Prop :=
  (∀ k, NMap.get 0 s'.mem k =
    if pa ≤ k ∧ k < pa + n then BitVec.ofNat 8 (val / 256 ^ (k - pa)) else NMap.get 0 s.mem k) ∧
  (∀ l, NSet.mem s'.poisLine l =
    if l = pa / 64 then decide (n ≠ 64) && (NSet.mem s.poisLine l || NSet.mem s.badLine l) else NSet.mem s.poisLine l) ∧
  (∀ l, NSet.mem s'.badLine l = (decide (l ≠ pa / 64) && NSet.mem s.badLine l)) ∧
  (∀ c, s'.ctx c = match (s.ctx c).mon.phys with
    | some w => if (s.ctx c).mon.armed = true ∧ pa / 8 * 8 ≤ w ∧ w < pa + n ∧ s.stands c.vt = true then
        { s.ctx c with mon := { (s.ctx c).mon with fired := true } } else s.ctx c
    | none => s.ctx c) ∧
  { s' with mem := s.mem, poisLine := s.poisLine, badLine := s.badLine, ctxs := s.ctxs } = s.tallyHbm (pa / 65536) 6 n

/-- R9: memory keeps its canonical form under a write, and a read gives the bytes written, lowest first, and every other
byte as before. -/
def Obligations.BytesReadAfterWrite : Prop :=
  ∀ (m : NMap Byte) (k v n : Nat),
    (∀ j, NMap.get 0 (wrBytes m k v n) j =
      if k ≤ j ∧ j < k + n then BitVec.ofNat 8 (v / 256 ^ (j - k)) else NMap.get 0 m j) ∧
    (∀ i, i < n → rdBytes m k n / 256 ^ i % 256 = (NMap.get 0 m (k + i)).toNat) ∧
    rdBytes m k n < 256 ^ n ∧ rdBytes (wrBytes m k v n) k n = v % 256 ^ n ∧
    (Memory.wf m = true → Memory.wf (wrBytes m k v n) = true)

/-- R45, R226, R227, R229, R232, R270: the checks of an access in their order, and where it goes. -/
def Sys2Proof.Claims.Places : Prop :=
  ∀ (s : State) (c : CtxId) (via : Via) (ea : Word) (n : Nat) (acc : Acc),
    let w := (ea.extractLsb' 0 48).toNat
    let a := if 0x00F00000 ≤ w ∧ w ≤ 0x00FFFFFF then c.core / 4 * 0x00100000 + (w - 0x00F00000) else w
    let user := !(s.ctx c).priv
    let here := s.place c via ea n acc
    let plain : Bool := match via with
      | .scalar _ => true
      | .pair => true
      | .vector => true
      | _ => false
    (ea.extractLsb' 48 7 ≠ 0 → here = .error (.cause .addressForm ea)) ∧
    (ea.extractLsb' 48 7 = 0 →
      (w % n ≠ 0 → here = .error (.cause .misaligned ea)) ∧
      (w % n = 0 →
        (a ≤ 0x00BFFFFF → here =
          if via = .sbr ∨ via = .sbw then .error (.cause .addressForm ea) else .ok (.sram a)) ∧
        (0x01000000 ≤ a ∧ a ≤ 0x012FFFFF → here =
          if plain then .ok (.sram a)
          else .error (.cause .addressForm ea)) ∧
        (0x02000000 ≤ a ∧ a ≤ 0x0200FFFF → here =
          if user = true then .error (.raise ⟨.permission, ea, BitVec.ofNat 64 acc.code, 0⟩)
          else if via = .scalar 8 then .ok (.device (a - 0x02000000)) else .error (.cause .addressForm ea)) ∧
        (0x100000000 ≤ a ∧ a ≤ 0x7FFFFFFFFFFF → here = match s.lookup c.coreId a acc user with
          | some t => .ok (.home (t.phys a) a false)
          | none => .error (.walk ea acc ea)) ∧
        (0x800000000000 ≤ a → here =
          if via = .mon then .error (.cause .addressForm ea)
          else if acc = .write ∨ acc = .atomic ∨ via = .atomic ∨ via = .sbw then
            .error (.raise ⟨.permission, ea, BitVec.ofNat 64 acc.code, 0⟩)
          else match s.lookup c.coreId a acc user with
            | some t => .ok (.home (t.phys a) a true)
            | none => .error (.walk ea acc ea)) ∧
        ((0x00C00000 ≤ a ∧ a ≤ 0x00FFFFFF) ∨ (0x01300000 ≤ a ∧ a ≤ 0x01FFFFFF) ∨ (0x02010000 ≤ a ∧ a ≤ 0xFFFFFFFF) →
          here = .error (.cause .addressForm ea))))

/-- R230, R235 to R237, R250, R254, R441: the value a context reads at a place, what it waits for and what it faults on. -/
def Sys2Proof.Claims.LoadValue : Prop :=
  (∀ (s : State) (c : CtxId) (a n : Nat),
    let got := s.load c (.sram a) n
    (a ≤ 0x00BFFFFF → s.bankWait c a =
      let q : QuadId := ⟨(s.vtile c.vt).ptile, a / 0x100000⟩
      if (s.quad q).power = .awake ∧ (s.heldNow q = [] ∨ (s.heldNow q).head? = some (.ctx c)) then none
      else some (.quad (a / 0x100000))) ∧
    ((s.ctx c).posted.any (fun p => p.addr / 8 == a / 8) = true → got = .error (.need (.posted (a / 8)))) ∧
    ((s.ctx c).posted.any (fun p => p.addr / 8 == a / 8) = false →
      (∀ w, s.bankWait c a = some w → got = .error (.need w)) ∧
      (s.bankWait c a = none →
        (s.sramPois c.vt a = true → got = .error (.cause .poisonConsumed (BitVec.ofNat 64 (a / 8 * 8)))) ∧
        (s.sramPois c.vt a = false → got = .ok (rdBytes s.mem (sramKey c.vt a) n))))) ∧
  (∀ (s : State) (c : CtxId) (pa va n : Nat) (g : Bool),
    let got := s.load c (.home pa va g) n
    let cached := (s.core c.coreId).cache.find? (fun x => decide (x.tag = pa / 64))
    let w := pa % 64 / 8
    let bytes (d : Vec) : Nat := (d >>> (8 * (pa % 64))).toNat % 2 ^ (8 * n)
    (∀ ln, cached = some ln → ln.valid.getLsbD w = true →
      got = if ln.pois.getLsbD w then .error (.cause .poisonConsumed (BitVec.ofNat 64 (va / 8 * 8)))
        else .ok (bytes ln.data)) ∧
    (cached = none ∨ (∃ ln, cached = some ln ∧ ln.valid.getLsbD w = false) →
      (s.fillOf c (pa / 64) = none → got = .error (.need (.fill (pa / 64) g))) ∧
      (∀ f, s.fillOf c (pa / 64) = some f →
        got = if f.bad.getLsbD w then .error (.cause .memoryUncorrectable (BitVec.ofNat 64 (va / 64 * 64)))
          else if f.pois.getLsbD w then .error (.cause .poisonConsumed (BitVec.ofNat 64 (va / 8 * 8)))
          else .ok (bytes f.data))))

/-- R222 to R234, R263 to R272: where an access goes, and what a load makes of what it read. -/
def Obligations.PlacesAndLoadValues : Prop := Places ∧ LoadValue

/-- A scalar load or store: its register, address, size, whether it is unsigned, wait field. -/
structure Sys2Proof.Claims.MemOp where
  reg : Nat
  ea : Word
  z : BitVec 2
  u : Bool
  wait : WaitF

/-- The scalar loads of R269. -/
def Sys2Proof.Claims.loadOf (s : State) (i : Instr) : Option MemOp :=
  match i with
  | .ldOff16 o => some ⟨o.d.toNat, leaAdd ((s.ctx s.cur).rg o.b.toNat) o.imm.toInt, o.z, o.u, o.wait⟩
  | .ldOff32 o => some ⟨o.d.toNat, leaAdd ((s.ctx s.cur).rg o.b.toNat) o.imm.toInt, o.z, o.u, o.wait⟩
  | _ => none

/-- The scalar stores of R269. -/
def Sys2Proof.Claims.storeOf (s : State) (i : Instr) : Option MemOp :=
  match i with
  | .stOff16 o => some ⟨o.s.toNat, leaAdd ((s.ctx s.cur).rg o.b.toNat) o.imm.toInt, o.z, true, o.wait⟩
  | .stOff32 o => some ⟨o.s.toNat, leaAdd ((s.ctx s.cur).rg o.b.toNat) o.imm.toInt, o.z, true, o.wait⟩
  | _ => none

/-- R66, R252, R270, R385: `ld` writes the value at its place, zero- or sign-extended, and changes nothing else; it waits
for the counts its wait field names. -/
def Sys2Proof.Claims.ScalarLoads : Prop :=
  ∀ (s : State) (i : Instr) (m : MemOp), i.wf = true → loadOf s i = some m →
    let n := 2 ^ m.z.toNat
    let x := s.ctx s.cur
    let place := s.place s.cur (.scalar n) m.ea n .read
    let gets (v : Nat) : Prop := completes s (exec i s) (fun x => x.wg m.reg
      (if m.u then BitVec.ofNat 64 v else (BitVec.ofNat (8 * n) v).signExtend 64))
    (¬ mayStart s m.wait → exec i s = .next s) ∧
    (mayStart s m.wait →
      (∀ e, place = .error e → exec i s = .next (s.stopped s.cur e)) ∧
      (∀ l e, place = .ok l → (∀ off, l ≠ .device off) → s.load s.cur l n = .error e → exec i s = .next (s.stopped s.cur e)) ∧
      (∀ l v, place = .ok l → (∀ off, l ≠ .device off) → s.load s.cur l n = .ok v → gets v) ∧
      (∀ off, place = .ok (.device off) → completes s (exec i s) (fun y => y.wg m.reg
        (if off = 0 then
           BitVec.ofNat 64 (s.cur.vt.part * 2 ^ 40 + s.cur.vt.col * 2 ^ 32 + s.cur.vt.y * 2 ^ 16 + s.cur.vt.x)
         else if off = 0x100 then x.rtsel
         else if off = 0x108 then NMap.get 0 x.rtd 0
         else if off = 0x110 then NMap.get 0 x.rtd 1
         else if off = 0x118 then NMap.get 0 x.rtd 2
         else if off = 0x120 then NMap.get 0 x.rtd 3
         else if off = 0x130 then x.rtstat
         else 0))))

/-- R230, R236, R249, R254, R270, R413, R441: `st` performs at the home quad's bank, posts to every other bank of the tile, or writes
into the core's data cache; nothing else changes. -/
def Sys2Proof.Claims.ScalarStores : Prop :=
  ∀ (s : State) (i : Instr) (m : MemOp), i.wf = true → storeOf s i = some m → holdsLine s →
    let n := 2 ^ m.z.toNat
    let c := s.cur
    let x := s.ctx c
    let k := s.core c.coreId
    let v := (x.rg m.reg).toNat
    let place := s.place c (.scalar n) m.ea n .write
    (¬ mayStart s m.wait → exec i s = .next s) ∧
    (mayStart s m.wait →
      (∀ e, place = .error e → exec i s = .next (s.stopped c e)) ∧
      (∀ a, place = .ok (.sram a) →
        (homeOf a = .quad c.quad →
          (∀ w, s.bankWait c a = some w → exec i s = .next (s.await c (.need w))) ∧
          (s.bankWait c a = none →
            ∃ s', storedSram s s' c.vt a n v ∧ completesVia s s' (exec i s) id)) ∧
        (homeOf a ≠ .quad c.quad →
          (1023 ≤ x.posted.length → exec i s = .next (s.await c (.need (.room 1)))) ∧
          (x.posted.length < 1023 →
            let q := s.portOf c.vt a
            let free : Bool := s.quadAwake c.vt a && (s.quad q).held.isEmpty
            let s' := if free then s else (s.wakeQuad q).modQuad q (fun y => { y with held := y.held ++ [.store c (homeOf a)] })
            completesVia s s' (exec i s) (fun y => { y with posted := y.posted ++
              [⟨homeOf a, a, (List.range n).map (fun j => BitVec.ofNat 8 (v / 256 ^ j))⟩] })))) ∧
      (∀ pa va g, place = .ok (.home pa va g) →
        let l := pa / 64
        let o := pa % 64
        let later := s.overtaken c (fun m => decide (m = l)) ++ k.stale
        (n < 8 → k.hasWord l (o / 8) = false → s.mergeBase c l (o / 8) = none →
          exec i s = .next (s.await c (.need (.word l (o / 8))))) ∧
        (∀ ln w, k.find l = some ln → (n = 8 ∨ ln.valid.getLsbD (o / 8) = true ∨ s.mergeBase c l (o / 8) = some w) →
          ∃ d : Vec, (∀ b : Nat, b < 512 → d.getLsbD b =
              if 8 * o ≤ b ∧ b < 8 * (o + n) then v.testBit (b - 8 * o)
              else if n < 8 ∧ ln.valid.getLsbD (o / 8) = false ∧ b / 64 = o / 8 then w.testBit (b % 64)
              else ln.data.getLsbD b) ∧
            ∃ s', (∀ j, s'.core j = if j = c.coreId then { k with cache := k.cache.map (fun y =>
                if y.tag = l then { ln with
                  valid := ln.valid ||| (1#8 <<< (o / 8)), dirty := ln.dirty ||| (1#8 <<< (o / 8))
                  pois := ln.pois &&& ~~~(1#8 <<< (o / 8)), data := d } else y), stale := later } else s.core j) ∧
              { s' with cores := s.cores } = s ∧ completesVia s s' (exec i s) id) ∧
        (k.find l = none → n = 8 → (k.cache.filter (fun y => y.tag % 64 == l % 64)).length < 8 →
          ∃ d : Vec, (∀ b : Nat, b < 512 → d.getLsbD b =
              (decide (8 * o ≤ b ∧ b < 8 * (o + 8)) && v.testBit (b - 8 * o))) ∧
            ∃ s', (∀ j, s'.core j = if j = c.coreId then { k with cache := k.cache ++
                [⟨l, 1#8 <<< (o / 8), 1#8 <<< (o / 8), false, d, 0⟩], stale := later } else s.core j) ∧
              { s' with cores := s.cores } = s ∧ completesVia s s' (exec i s) id) ∧
        (s.storesReady c n [.home pa va g] = .ok () →
          ∃ s', { s' with cores := s.cores } = s ∧ (∀ j, j ≠ c.coreId → s'.core j = s.core j) ∧
            completesVia s s' (exec i s) id)) ∧
      (∀ off, place = .ok (.device off) →
        (off = 0x128 → exec i s = .next (s.putCtx c { x with
          rtgo := x.rg m.reg, rtstat := 1, prog := { x.prog with need := .remote } })) ∧
        (off ≠ 0x128 → completes s (exec i s) (fun y =>
          if off = 0x100 then { y with rtsel := y.rg m.reg &&& 0xFFFFFFFF7FFF01FF }
          else if off = 0x108 ∨ off = 0x110 ∨ off = 0x118 ∨ off = 0x120 then
            { y with rtd := NMap.set 0 y.rtd ((off - 0x108) / 8) (y.rg m.reg) }
          else y))))

/-- R263 to R272, R284 to R287: loads and stores of one register. -/
def Obligations.ScalarLoadsAndStores : Prop := ScalarLoads ∧ ScalarStores

/-- The accesses of `ldp`, `stp` and the vector loads and stores of R159 to R161: how many bytes each, their wait field, and
the address and register value of each in order. -/
structure Sys2Proof.Claims.ManyOp where
  b : Nat
  wait : WaitF
  via : Via
  eas : List Word
  vals : List Nat

/-- The offsets of the lanes that a mask enables, in order. -/
def Sys2Proof.Claims.enabled (x : Ctx) (om : GReg) (z : BitVec 2) : List Nat :=
  (List.range (64 / 2 ^ z.toNat)).filter (fun i => decide (om = 0) || (x.rg om.toNat).getLsbD i)

/-- Lane i of a register of lanes of 2^z bytes. -/
def Sys2Proof.Claims.laneOf (x : Ctx) (r : VReg) (z : BitVec 2) (i : Nat) : Nat :=
  ((x.rv r.toNat) >>> (8 * 2 ^ z.toNat * i)).toNat % 2 ^ (8 * 2 ^ z.toNat)

/-- A lane's address of `vldx` and `vstx`: the index lane read as a signed number and scaled. -/
def Sys2Proof.Claims.indexed (x : Ctx) (b : GReg) (c : VReg) (sc z : BitVec 2) (off : Int) (i : Nat) : Word :=
  leaAdd (x.rg b.toNat) (off + (BitVec.ofNat (8 * 2 ^ z.toNat) (laneOf x c z i)).toInt * 2 ^ sc.toNat)

/-- The lanes of `vld` and `vst` (R160). -/
def Sys2Proof.Claims.direct (x : Ctx) (v : VReg) (b om : GReg) (z : BitVec 2) (wait : WaitF) (off : Int) : ManyOp :=
  ⟨2 ^ z.toNat, wait, .vector, (enabled x om z).map (fun i => leaAdd (x.rg b.toNat) (off + i * 2 ^ z.toNat)),
    (enabled x om z).map (laneOf x v z)⟩

/-- The lanes of `vldx` and `vstx` (R161). -/
def Sys2Proof.Claims.scattered (x : Ctx) (v : VReg) (b : GReg) (c : VReg) (om : GReg) (sc z : BitVec 2) (wait : WaitF)
    (off : Int) : ManyOp :=
  ⟨2 ^ z.toNat, wait, .vector, (enabled x om z).map (indexed x b c sc z off), (enabled x om z).map (laneOf x v z)⟩

/-- The two words of `ldp` and `stp` (R271). -/
def Sys2Proof.Claims.pair (x : Ctx) (r b : GReg) (wait : WaitF) (off : Int) : ManyOp :=
  let a := leaAdd (x.rg b.toNat) off
  ⟨8, wait, .pair, [a, leaAdd a 8], [(x.rg r.toNat).toNat, (x.rg (r.toNat + 1)).toNat]⟩

/-- The loads of more than one access, with what their values make of the context's record. -/
def Sys2Proof.Claims.loadsOf (x : Ctx) (i : Instr) : Option (ManyOp × (List Nat → Ctx → Ctx)) :=
  let put (v : VReg) (om : GReg) (z : BitVec 2) (vs : List Nat) (y : Ctx) : Ctx :=
    y.wv v.toNat (lanes (8 * 2 ^ z.toNat) (64 / 2 ^ z.toNat) (fun i =>
      match ((enabled x om z).zip vs).find? (fun q => q.1 == i) with
      | some q => q.2
      | none => laneOf x v z i))
  let two (r : GReg) (vs : List Nat) (y : Ctx) : Ctx :=
    (y.wg r.toNat (BitVec.ofNat 64 (vs.getD 0 0))).wg (r.toNat + 1) (BitVec.ofNat 64 (vs.getD 1 0))
  match i with
  | .ldpOff16 o => some (pair x o.r o.b o.wait o.imm.toInt, two o.r)
  | .ldpOff32 o => some (pair x o.r o.b o.wait o.imm.toInt, two o.r)
  | .vldNoOffset o => some (direct x o.v o.b o.om o.z o.wait 0, put o.v o.om o.z)
  | .vldOff32 o => some (direct x o.v o.b o.om o.z o.wait o.imm.toInt, put o.v o.om o.z)
  | .vldxNoOffset o => some (scattered x o.v o.b o.c o.om o.sc o.z o.wait 0, put o.v o.om o.z)
  | .vldxOff32 o => some (scattered x o.v o.b o.c o.om o.sc o.z o.wait o.imm.toInt, put o.v o.om o.z)
  | _ => none

/-- The stores of more than one access. -/
def Sys2Proof.Claims.storesOf (x : Ctx) (i : Instr) : Option ManyOp :=
  match i with
  | .stpOff16 o => some (pair x o.r o.b o.wait o.imm.toInt)
  | .stpOff32 o => some (pair x o.r o.b o.wait o.imm.toInt)
  | .vstNoOffset o => some (direct x o.v o.b o.om o.z o.wait 0)
  | .vstOff32 o => some (direct x o.v o.b o.om o.z o.wait o.imm.toInt)
  | .vstxNoOffset o => some (scattered x o.v o.b o.c o.om o.sc o.z o.wait 0)
  | .vstxOff32 o => some (scattered x o.v o.b o.c o.om o.sc o.z o.wait o.imm.toInt)
  | _ => none

/-- A pair's own address passes the checks of R271: pointer form, then a multiple of 16. -/
abbrev Sys2Proof.Claims.pairOk (m : ManyOp) : Prop :=
  m.via = .pair → (m.eas.getD 0 0).extractLsb' 48 7 = 0 ∧ ((m.eas.getD 0 0).extractLsb' 0 48).toNat % 16 = 0

/-- A lane's data fault carries the lane's address (R159), a pair's the address of the word (R271). -/
def Sys2Proof.Claims.named (m : ManyOp) (ea : Word) (l : Loc) (e : Stop) : Stop :=
  match m.via, l, e with
  | .vector, _, .raise r => .raise { r with tval := ea }
  | .pair, .home _ va _, .raise r => .raise { r with tval := BitVec.ofNat 64 (va / 8 * 8) }
  | _, _, _ => e

/-- The reads of an instruction fail (R159, R271): the first access whose checks fail stops it with its cause. Of what the reads
meet, what has to be waited for comes first; then for lanes poison, then an uncorrectable line, each at the lowest lane, and for
a pair what its lower failing word has. -/
def Sys2Proof.Claims.readsFail (s : State) (m : ManyOp) (stops : Stop → Prop) : Prop :=
  let at_ (ea : Word) : Except Stop Loc := s.place s.cur m.via ea m.b .read
  (∀ k, k < m.eas.length → (∀ j, j < k → ∃ l, at_ (m.eas.getD j 0) = .ok l) → ∀ e,
    at_ (m.eas.getD k 0) = .error e → stops e) ∧
  (∀ ls : List Loc, ls.length = m.eas.length → (∀ j, j < m.eas.length → some (at_ (m.eas.getD j 0)) = ls[j]?.map .ok) →
    let got (k : Nat) : Except Stop Nat := s.load s.cur (ls.getD k (.device 0)) m.b
    let before (p : Stop → Bool) (k : Nat) : Prop := ∀ j, j < k → ∀ e, got j = .error e → p e = false
    let n := m.eas.length
    (∀ k e, k < n → got k = .error e → e.waits = true → before Stop.waits k → stops e) ∧
    (before Stop.waits n →
      (∀ k e, k < n → got k = .error e → m.via = .vector → e.isPoison = true → before Stop.isPoison k →
        stops (named m (m.eas.getD k 0) (ls.getD k (.device 0)) e)) ∧
      (∀ k e, k < n → got k = .error e → m.via = .pair ∨ before Stop.isPoison n → before (fun _ => true) k →
        stops (named m (m.eas.getD k 0) (ls.getD k (.device 0)) e))))

/-- R159 to R161, R271: a pair or the enabled lanes are all checked before any is read; the first that fails stops the
instruction with its cause. Of what the reads meet, what has to be waited for comes first; then for lanes poison, then an
uncorrectable line, each at the lowest lane, and for a pair what its lower failing word has; else each value is the one at its
place, and nothing but the destination changes. -/
def Sys2Proof.Claims.PairAndLaneLoads : Prop :=
  ∀ (s : State) (i : Instr) (m : ManyOp) (f : List Nat → Ctx → Ctx), i.wf = true → loadsOf (s.ctx s.cur) i = some (m, f) →
    let stops (e : Stop) : Prop := exec i s = .next (s.stopped s.cur e)
    let at_ (ea : Word) : Except Stop Loc := s.place s.cur m.via ea m.b .read
    (¬ mayStart s m.wait → exec i s = .next s) ∧
    (mayStart s m.wait →
      (m.via = .pair → (m.eas.getD 0 0).extractLsb' 48 7 ≠ 0 → stops (.cause .addressForm (m.eas.getD 0 0))) ∧
      (m.via = .pair → (m.eas.getD 0 0).extractLsb' 48 7 = 0 → ((m.eas.getD 0 0).extractLsb' 0 48).toNat % 16 ≠ 0 →
        stops (.cause .misaligned (m.eas.getD 0 0))) ∧
      (pairOk m →
        readsFail s m stops ∧
        (∀ ls : List Loc, ls.length = m.eas.length → (∀ j, j < m.eas.length → some (at_ (m.eas.getD j 0)) = ls[j]?.map .ok) →
          (∀ vs : List Nat, vs.length = m.eas.length →
            (∀ j, j < m.eas.length → s.load s.cur (ls.getD j (.device 0)) m.b = .ok (vs.getD j 0)) →
            completes s (exec i s) (f vs)))))

/-- Word w of line l in a data cache: whether it is dirty and poisoned, and its value; none where it is not valid. -/
def Sys2Proof.Claims.wordIn (k : Core) (l w : Nat) : Option (Bool × Bool × Nat) :=
  match k.find l with
  | some x => if x.valid.getLsbD w then some (x.dirty.getLsbD w, x.pois.getLsbD w, x.data.toNat / 2 ^ (64 * w) % 2 ^ 64) else none
  | none => none

/-- A write-through of word w of line l with a value that p holds of is under way. -/
def Sys2Proof.Claims.leaves (k : Core) (l w : Nat) (p : Nat → Prop) : Prop :=
  ∃ t ∈ k.through, t.line = l ∧ t.mask.getLsbD w = true ∧ p (t.data.toNat / 2 ^ (64 * w) % 2 ^ 64)

/-- The data cache k' after stores of b bytes at the places ls with a cache k before (R236): the last value stored at a place
is there, dirty and without poison, or its line has made way to a later one and is being written through; every other word
that is valid was so before, with its value, and a dirty word that is gone is being written through; and where no set is
short of room, no line has gone. -/
def Sys2Proof.Claims.cacheAfter (k k' : Core) (b : Nat) (ls : List Loc) (vals : List Nat) : Prop :=
  let at_ (v : Nat) (o : Nat) : Nat := v / 2 ^ (8 * o) % 2 ^ (8 * b)
  (∀ j pa va g, ls[j]? = some (.home pa va g) → (∀ j' va' g', j < j' → ls[j']? ≠ some (.home pa va' g')) →
    let mine (v : Nat) : Prop := at_ v (pa % 8) = vals.getD j 0 % 2 ^ (8 * b)
    (∃ v, wordIn k' (pa / 64) (pa % 64 / 8) = some (true, false, v) ∧ mine v) ∨ leaves k' (pa / 64) (pa % 64 / 8) mine) ∧
  (∀ l w, w < 8 → (∀ pa va g, .home pa va g ∈ ls → ¬ (pa / 64 = l ∧ pa % 64 / 8 = w)) →
    (wordIn k' l w = wordIn k l w ∨ (wordIn k' l w = none ∧
      ∀ v p, wordIn k l w = some (true, p, v) → leaves k' l w (fun u => u = v)))) ∧
  ((∀ l, (k.cache.filter (fun x => decide (x.tag % 64 = l % 64))).length +
      ((ls.filterMap (fun x => match x with
        | .home pa _ _ => if (k.find (pa / 64)).isNone ∧ pa / 64 % 64 = l % 64 then some (pa / 64) else none
        | _ => none)).dedup).length ≤ 8) →
    k'.through = k.through ∧ ∀ l, (k.find l).isSome = true → (k'.find l).isSome = true)

/-- t is s after the acting context has made stores of b bytes each at the places ls: every word of the home quad holds the last value stored to it, a word stored to whole without its poison, every store to another bank is posted in
order, the core's data cache is as `cacheAfter` says, and of the rest nothing has changed but the acting context, monitors that
fire, the quads whose ports hold a store, and what the core's stores overtake. -/
def Sys2Proof.Claims.storesLand (s t : State) (b : Nat) (ls : List Loc) (vals : List Nat) : Prop :=
  let c := s.cur
  (∀ k, (∀ l ∈ ls, ∀ a, l = .sram a → homeOf a = .quad c.quad →
      ¬ (sramKey c.vt a ≤ k ∧ k < sramKey c.vt a + b)) → NMap.get 0 t.mem k = NMap.get 0 s.mem k) ∧
  (∀ j a, j < ls.length → ls[j]? = some (.sram a) → homeOf a = .quad c.quad →
    (∀ j', j < j' → j' < ls.length → ls[j']? ≠ some (.sram a)) →
    rdBytes t.mem (sramKey c.vt a) b = vals.getD j 0 % 256 ^ b) ∧
  (∀ w, NSet.mem t.pois w = true ↔ NSet.mem s.pois w = true ∧
    ¬ (b = 8 ∧ ∃ a, .sram a ∈ ls ∧ homeOf a = .quad c.quad ∧ w = sramKey c.vt a / 8)) ∧
  (∀ d, d ≠ c → ∃ m, t.ctx d = { s.ctx d with mon := { (s.ctx d).mon with fired := m } }) ∧
  cacheAfter (s.core c.coreId) (t.core c.coreId) b ls vals ∧
  (∀ j, j ≠ c.coreId → t.core j = s.core j) ∧
  (∀ j, { t.core j with cache := [], through := [], stale := [] } = { s.core j with cache := [], through := [], stale := [] }) ∧
  (∀ q, (s.quad q).power = .awake → (s.quad q).held = [] → t.quad q = s.quad q) ∧
  (∀ j, { t.tile j with quads := [] } = { s.tile j with quads := [] }) ∧
  { t with mem := s.mem, pois := s.pois, ctxs := s.ctxs, cores := s.cores, tiles := s.tiles } = s

/-- The acting context's record after those stores, in order, with m whether its monitor has fired. -/
def Sys2Proof.Claims.posting (s : State) (b : Nat) (ls : List Loc) (vals : List Nat) (m : Bool) : Ctx :=
  let c := s.cur
  let far (l : Loc) (v : Nat) : List Posted := match l with
    | .sram a => if homeOf a = .quad c.quad then []
      else [⟨homeOf a, a, (List.range b).map (fun j => BitVec.ofNat 8 (v / 256 ^ j))⟩]
    | _ => []
  { s.ctx c with
    mon := { (s.ctx c).mon with fired := m }
    posted := (s.ctx c).posted ++ (ls.zip vals).flatMap (fun q => far q.1 q.2) }

/-- The stores have landed and the instruction has completed: no register but csrng has changed. -/
def Sys2Proof.Claims.storesAll (s : State) (r : Step) (b : Nat) (ls : List Loc) (vals : List Nat) (rng : Word) : Prop :=
  let c := s.cur
  ∃ t, r = .next t ∧ storesLand s t b ls vals ∧ wentOn (s.ctx c) (t.ctx c) (s.nextPc c) ∧
    ∃ m, t.ctx c = ({ posting s b ls vals m with csrng := rng } : Ctx).placedAs (t.ctx c)

/-- R159 to R161, R249, R271: a pair or the enabled lanes are all checked before any is stored; then
every store is made, and nothing else changes. -/
def Sys2Proof.Claims.PairAndLaneStores : Prop :=
  ∀ (s : State) (i : Instr) (m : ManyOp), i.wf = true → storesOf (s.ctx s.cur) i = some m → holdsLine s →
    let c := s.cur
    let stops (e : Stop) : Prop := exec i s = .next (s.stopped s.cur e)
    let at_ (ea : Word) : Except Stop Loc := s.place c m.via ea m.b .write
    (¬ mayStart s m.wait → exec i s = .next s) ∧
    (mayStart s m.wait →
      (m.via = .pair → (m.eas.getD 0 0).extractLsb' 48 7 ≠ 0 → stops (.cause .addressForm (m.eas.getD 0 0))) ∧
      (m.via = .pair → (m.eas.getD 0 0).extractLsb' 48 7 = 0 → ((m.eas.getD 0 0).extractLsb' 0 48).toNat % 16 ≠ 0 →
        stops (.cause .misaligned (m.eas.getD 0 0))) ∧
      (pairOk m →
        (∀ k, k < m.eas.length → (∀ j, j < k → ∃ l, at_ (m.eas.getD j 0) = .ok l) → ∀ e,
          at_ (m.eas.getD k 0) = .error e → stops e) ∧
        (∀ ls : List Loc, ls.length = m.eas.length → (∀ j, j < m.eas.length → some (at_ (m.eas.getD j 0)) = ls[j]?.map .ok) →
          (∀ e, s.storesReady c m.b ls = .error e → stops e) ∧
          (s.storesReady c m.b ls = .ok () →
            storesAll s (exec i s) m.b ls m.vals (s.ctx c).csrng))))

/-- R159 to R161, R271: loads and stores of register pairs and of vector registers. -/
def Obligations.PairAndLaneAccesses : Prop := PairAndLaneLoads ∧ PairAndLaneStores

/-- `rel`, `acq` and `fence` (R273): whether it releases, whether it acquires, whether its scope reaches the heap. -/
def Sys2Proof.Claims.syncOf (i : Instr) : Option (Bool × Bool × Bool × WaitF) :=
  match i with
  | .rel o => some (true, false, decide (o.scope ≠ .core), o.wait)
  | .acq o => some (false, true, decide (o.scope ≠ .core), o.wait)
  | .fence o => some (true, true, decide (o.scope ≠ .core), o.wait)
  | _ => none

/-- k' is k with a write-through begun for every cached line with a dirty word, which is dirty no more (R259, R260). -/
def Sys2Proof.Claims.begun (k k' : Core) : Prop :=
  (∀ l, k'.find l = (k.find l).map (fun y => { y with dirty := 0 })) ∧
  (∃ new, k'.through = k.through ++ new ∧
    ∀ w, w ∈ new ↔ ∃ y, k.find w.line = some y ∧ y.dirty ≠ 0 ∧ w = ⟨y.tag, y.dirty, y.data⟩) ∧
  { k' with cache := k.cache, through := k.through } = k

/-- H has room for every write-through that a core's dirty lines need (R413). -/
abbrev Sys2Proof.Claims.roomForAll (k : Core) : Prop :=
  k.through.length + (k.cache.filter (fun y => decide (y.dirty ≠ 0))).length ≤ 1023

/-- s' is s with k for the core of the acting context. -/
def Sys2Proof.Claims.coreIs (s s' : State) (k : Core) : Prop :=
  (∀ j, s'.core j = if j = s.cur.coreId then k else s.core j) ∧ { s' with cores := s.cores } = s

/-- R66, R252, R259, R260, R273, R413: `rel` begins the write-throughs of its core's dirty words and waits for the counts of
its scope to be zero; `acq` begins them and empties the data cache but for gallery lines; `fence` does the one, then the
other. At `.core` only Q counts. -/
def Sys2Proof.Claims.ReleaseAcquireFence : Prop :=
  ∀ (s : State) (i : Instr) (rel acq heap : Bool) (wait : WaitF), i.wf = true → syncOf i = some (rel, acq, heap, wait) →
    let c := s.cur
    let x := s.ctx c
    let k := s.core c.coreId
    let zero : Prop := x.q = 0 ∧ (heap = true → k.h = 0)
    let waits (k' : Core) (p : Prog) : Prop :=
      ∃ t, exec i s = .next t ∧ (∀ d, d ≠ c → t.ctx d = s.ctx d) ∧ t.ctx c = { x with prog := p } ∧
        (∀ j, t.core j = if j = c.coreId then k' else s.core j) ∧ { t with ctxs := s.ctxs, cores := s.cores } = s
    (¬ mayStart s wait → exec i s = .next s) ∧
    (mayStart s wait →
      (rel = false ∨ (x.prog.rel = true ∧ zero) ∨ (x.prog.rel = false ∧ heap = false ∧ x.q = 0) →
        (acq = false ∨ heap = false → completes s (exec i s) id) ∧
        (acq = true → heap = true →
          (roomForAll k → ∃ k' s', begun k k' ∧ coreIs s s' { k' with
              cache := k'.cache.filter (·.gal), stale := s.overtaken c (fun _ => true) ++ k.stale } ∧
            completesVia s s' (exec i s) id) ∧
          (¬ roomForAll k → exec i s = .next (s.await c (.need .roomH))))) ∧
      (rel = true → x.prog.rel = true → ¬ zero → waits k { x.prog with need := .release heap }) ∧
      (rel = true → x.prog.rel = false → heap = false → x.q ≠ 0 →
        waits k { x.prog with rel := true, need := .release heap }) ∧
      (rel = true → x.prog.rel = false → heap = true →
        (¬ roomForAll k → exec i s = .next (s.await c (.need .roomH))) ∧
        (roomForAll k → x.q = 0 → k.h = 0 → k.cache.all (fun y => decide (y.dirty = 0)) = true →
          ∃ s', coreIs s s' (if acq then { k with
              cache := k.cache.filter (·.gal), stale := s.overtaken c (fun _ => true) ++ k.stale } else k) ∧
            completesVia s s' (exec i s) id) ∧
        (roomForAll k → (∃ l y, k.find l = some y ∧ y.dirty ≠ 0) ∨ x.q ≠ 0 ∨ k.h ≠ 0 →
          ∃ k', begun k k' ∧ waits k' { x.prog with rel := true, need := .release true })))

/-- R66, R250 to R252, R274 to R276: `pwait` reads the counts Q and H, saturating; `tlook` finds the lowest entry of the
home quad's tag table with its page; `tset` and `tclr` replace an entry and give the old one; `tset` takes a heap pointer
only. -/
def Sys2Proof.Claims.CountsAndTagTables : Prop :=
  (∀ (s : State) (o : PWait), mayStart s o.wait → completes s (exec (.pwait o) s) (fun x => x.wg o.d.toNat
    (BitVec.ofNat 64 (min x.posted.length 0xFFFF + min (s.core s.cur.coreId).through.length 0xFFFF * 0x10000)))) ∧
  (∀ (s : State) (o : GAWait), mayStart s o.wait →
    let ea := (s.ctx s.cur).rg o.a.toNat
    let entry (k : Nat) : Word := NMap.get 0 (s.vtile s.cur.vt).tags (s.cur.core / 4 * 512 + k)
    let hit (k : Nat) : Bool := (entry k).getLsbD 63 && (entry k).extractLsb' 12 36 == ea.extractLsb' 12 36
    (∀ k, k < 512 → hit k = true → (∀ j, j < k → hit j = false) →
      completes s (exec (.tlook o) s) (fun x => x.wg o.d.toNat (BitVec.ofNat 64 k))) ∧
    ((∀ k, k < 512 → hit k = false) →
      completes s (exec (.tlook o) s) (fun x => x.wg o.d.toNat (BitVec.allOnes 64)))) ∧
  (∀ (s : State) (o : TSet), mayStart s o.wait →
    let a := (s.ctx s.cur).rg o.a.toNat
    let w := (a.extractLsb' 0 48).toNat
    let key := s.cur.core / 4 * 512 + (((s.ctx s.cur).rg o.b.toNat).extractLsb' 0 9).toNat
    ((a.extractLsb' 48 7 ≠ 0 ∨ w < 0x100000000 ∨ 0x7FFFFFFFFFFF < w) →
      exec (.tset o) s = .next (s.stopped s.cur (.cause .addressForm a))) ∧
    (a.extractLsb' 48 7 = 0 → 0x100000000 ≤ w → w ≤ 0x7FFFFFFFFFFF →
      completesVia s (s.modVt s.cur.vt (fun v => { v with
          tags := NMap.set 0 v.tags key (0x8000000000000000 ||| (a &&& 0x0000FFFFFFFFF000)) }))
        (exec (.tset o) s) (fun x => x.wg o.d.toNat (NMap.get 0 (s.vtile s.cur.vt).tags key)))) ∧
  (∀ (s : State) (o : GBWait), mayStart s o.wait →
    let key := s.cur.core / 4 * 512 + (((s.ctx s.cur).rg o.b.toNat).extractLsb' 0 9).toNat
    completesVia s (s.modVt s.cur.vt (fun v => { v with tags := NMap.set 0 v.tags key 0 }))
      (exec (.tclr o) s) (fun x => x.wg o.d.toNat (NMap.get 0 (s.vtile s.cur.vt).tags key))) ∧
  (∀ (s : State) (o : PWait), ¬ mayStart s o.wait → exec (.pwait o) s = .next s) ∧
  (∀ (s : State) (o : GAWait), ¬ mayStart s o.wait → exec (.tlook o) s = .next s ∧ exec (.mwait o) s = .next s) ∧
  (∀ (s : State) (o : TSet), ¬ mayStart s o.wait → exec (.tset o) s = .next s) ∧
  (∀ (s : State) (o : GBWait), ¬ mayStart s o.wait →
    exec (.tclr o) s = .next s ∧ exec (.mon o) s = .next s ∧ exec (.sbr o) s = .next s) ∧
  (∀ (s : State) (o : Sbw), ¬ mayStart s o.wait → exec (.sbw o) s = .next s)

/-- The core's own copy of a line at home stands in no access's way (R264): it is not cached and no write-through of it is
under way; and the line can be accessed now. -/
abbrev Sys2Proof.Claims.clearHome (s : State) (pa : Nat) : Prop :=
  (s.core s.cur.coreId).cache.all (fun y => decide (y.tag ≠ pa / 64)) = true ∧
  (s.core s.cur.coreId).through.all (fun w => decide (w.line ≠ pa / 64)) = true ∧
  s.homeOpen pa s.cur.vt.part (.ctx s.cur) = true

/-- The word of a in quad memory can be accessed at its bank: the bank answers now, none of the context's own stores to it is
on its way, it is not poisoned. -/
abbrev Sys2Proof.Claims.clearQuad (s : State) (a : Nat) : Prop :=
  s.bankWait s.cur a = none ∧ (s.ctx s.cur).posted.all (fun p => decide (p.addr / 8 ≠ a / 8)) = true ∧
  s.sramPois s.cur.vt a = false

/-- A word at home can be read: its granule is cleared, or its line is neither poisoned nor uncorrectable. -/
abbrev Sys2Proof.Claims.readable (s : State) (pa : Nat) : Prop :=
  s.cleared (pa / 65536) = true ∨ (NSet.mem s.poisLine (pa / 64) = false ∧ NSet.mem s.badLine (pa / 64) = false)

/-- s' is s but for the fills of a line that an access of the core at its home overtakes (R254). -/
def Sys2Proof.Claims.atHome (s s' : State) (pa : Nat) : Prop :=
  (∀ j, s'.core j = if j = s.cur.coreId then { s.core j with
      stale := s.overtaken s.cur (fun m => decide (m = pa / 64)) ++ (s.core j).stale } else s.core j) ∧
    { s' with cores := s.cores } = s

/-- R277 to R279: `mon` reads a word at home and watches it; `mwait` answers 0 when the word has been written, 2 when
nothing is watched, disarms and acquires; while the word stands unwritten it blocks, with the limit of its operand. -/
def Sys2Proof.Claims.Monitors : Prop :=
  (∀ (s : State) (o : GBWait), mayStart s o.wait →
    let place := s.place s.cur .mon ((s.ctx s.cur).rg o.b.toNat) 8 .read
    (∀ e, place = .error e → exec (.mon o) s = .next (s.stopped s.cur e)) ∧
    (∀ a, place = .ok (.sram a) → clearQuad s a →
      let v := BitVec.ofNat 64 (s.sramBytes s.cur.vt a 8)
      completes s (exec (.mon o) s) (fun x => { x with mon := ⟨a, none, v, true, false⟩ }.wg o.d.toNat v)) ∧
    (∀ a, place = .ok (.sram a) → s.bankWait s.cur a = none →
      (s.ctx s.cur).posted.all (fun p => decide (p.addr / 8 ≠ a / 8)) = true → s.sramPois s.cur.vt a = true →
      exec (.mon o) s = .next (s.stopped s.cur (.cause .poisonConsumed (BitVec.ofNat 64 (a / 8 * 8))))) ∧
    (∀ pa va g, place = .ok (.home pa va g) → clearHome s pa → readable s pa →
      let v := BitVec.ofNat 64 (if s.cleared (pa / 65536) then 0 else rdBytes s.mem pa 8)
      ∃ s', atHome s s' pa ∧
        completesVia s (s'.touchHome s.cur (.home pa va g) 8) (exec (.mon o) s) (fun x =>
          { x with mon := ⟨va, some (pa / 8 * 8), v, true, false⟩ }.wg o.d.toNat v))) ∧
  (∀ (s : State) (o : GAWait), mayStart s o.wait →
    let x := s.ctx s.cur
    let k := s.core s.cur.coreId
    let t := (x.rg o.a.toNat).toNat
    (x.mon.armed = true → x.mon.fired = false → exec (.mwait o) s = .next (s.putCtx s.cur (blocked x .mwait (.mwait o.d.toNat)
      (if t = 0 then none else some t)))) ∧
    (x.mon.armed = false ∨ x.mon.fired = true →
      (roomForAll k → ∃ k' s', begun k k' ∧ coreIs s s' { k' with
          cache := k'.cache.filter (·.gal), stale := s.overtaken s.cur (fun _ => true) ++ k.stale } ∧
        completesVia s s' (exec (.mwait o) s) (fun x =>
          { x with mon := { x.mon with armed := false, fired := false } }.wg o.d.toNat (if x.mon.armed then 0 else 2))) ∧
      (¬ roomForAll k → exec (.mwait o) s = .next (s.await s.cur (.need .roomH)))))

/-- R66, R252, R259, R260, R273, R277 to R280, R413: releases, acquires, fences and monitors. -/
def Obligations.OrderingAndMonitors : Prop := ReleaseAcquireFence ∧ Monitors

/-- R242, R245, R281: `sbr` and `sbw` read and write the side bits that their granule's grade leaves free; a cleared granule
reads zero and is zeroed before it is written. That `sbw` counts as 64 bytes written and `sbr` as a line read is the model's
choice (log entry 23). -/
def Sys2Proof.Claims.SideBits : Prop :=
  (∀ (s : State) (o : GBWait), mayStart s o.wait →
    let place := s.place s.cur .sbr ((s.ctx s.cur).rg o.b.toNat) 64 .read
    (∀ e, place = .error e → exec (.sbr o) s = .next (s.stopped s.cur e)) ∧
    (∀ pa va g, place = .ok (.home pa va g) → s.homeOpen (pa / 64 * 64) s.cur.vt.part (.ctx s.cur) = false →
      exec (.sbr o) s = .next (s.await s.cur (.need (.home (pa / 64))))) ∧
    (∀ pa va g, place = .ok (.home pa va g) → s.homeOpen (pa / 64 * 64) s.cur.vt.part (.ctx s.cur) = true →
      completes (s.touchHome s.cur (.home pa va g) 64) (exec (.sbr o) s) (fun x => x.wg o.d.toNat
        (if s.cleared (pa / 65536) then 0 else NMap.get 0 s.side (pa / 64) &&& s.freeSide (pa / 65536))))) ∧
  (∀ (s : State) (o : Sbw), mayStart s o.wait →
    let place := s.place s.cur .sbw ((s.ctx s.cur).rg o.b.toNat) 64 .write
    let v := (s.ctx s.cur).rg o.a.toNat
    (∀ e, place = .error e → exec (.sbw o) s = .next (s.stopped s.cur e)) ∧
    (∀ pa va g, place = .ok (.home pa va g) → s.homeOpen (pa / 64 * 64) s.cur.vt.part (.ctx s.cur) = false →
      exec (.sbw o) s = .next (s.await s.cur (.need (.home (pa / 64))))) ∧
    (∀ pa va g, place = .ok (.home pa va g) → s.homeOpen (pa / 64 * 64) s.cur.vt.part (.ctx s.cur) = true →
      (s.cleared (pa / 65536) = true → exec (.sbw o) s = .next (s.await s.cur (.zero (pa / 65536)))) ∧
      (s.cleared (pa / 65536) = false →
        let m := s.freeSide (pa / 65536)
        let s' := (s.touchHome s.cur (.home pa va g) 64).tallyHbm (pa / 65536) 6 64
        completesVia s { s' with side := NMap.set 0 s.side (pa / 64) ((NMap.get 0 s.side (pa / 64) &&& ~~~m) ||| (v &&& m)) }
          (exec (.sbw o) s) id))) ∧
  (∀ (s : State) (g : Nat), s.freeSide g =
    if (NMap.get 0 s.granules g).extractLsb' 5 2 = 1 then 0xFFFFFFF000000000
    else if (NMap.get 0 s.granules g).extractLsb' 5 2 = 2 then 0xFFFFFFFFFFFFFF00 else 0)

/-- R242, R250 to R252, R274 to R276, R281 to R283: outstanding counts, tag tables and side bits. -/
def Obligations.CountsTagsSideBits : Prop := CountsAndTagTables ∧ SideBits

/-- An atomic of R282: its registers, size, flags, wait field, the register value of an old value, and what it writes in
place of `old` given its operand. -/
structure Sys2Proof.Claims.AtomicOp where
  d : GReg
  b : GReg
  a : GReg
  n : Nat
  acq : Bool
  rel : Bool
  wait : WaitF
  ext : Nat → Word
  new : Nat → Nat → Option Nat

/-- The integer atomics of R283. -/
def Sys2Proof.Claims.intAtomic (o : Atom) (f : (k : Nat) → BitVec k → BitVec k → BitVec k) : AtomicOp :=
  let k := if o.w then 32 else 64
  ⟨o.d, o.b, o.a, k / 8, o.acq, o.rel, o.wait,
    fun v => if o.w && !o.n then (BitVec.ofNat 32 v).signExtend 64 else BitVec.ofNat 64 v,
    fun old x => some (f k (BitVec.ofNat k old) (BitVec.ofNat k x)).toNat⟩

/-- The operations of R283 by instruction; `acas` writes only where it finds what it expects. -/
def Sys2Proof.Claims.atomicOf (x : Ctx) (i : Instr) : Option AtomicOp :=
  match i with
  | .aadd o => some (intAtomic o (fun _ u v => u + v))
  | .amin o => some (intAtomic o (fun _ u v => if atMost o.n u v then u else v))
  | .amax o => some (intAtomic o (fun _ u v => if atMost o.n u v then v else u))
  | .aand o => some (intAtomic o (fun _ u v => u &&& v))
  | .aor o => some (intAtomic o (fun _ u v => u ||| v))
  | .axor o => some (intAtomic o (fun _ u v => u ^^^ v))
  | .aswp o => some (intAtomic o (fun _ _ v => v))
  | .acas o =>
    let k := if o.w then 32 else 64
    some ⟨o.d, o.b, o.a, k / 8, o.acq, o.rel, o.wait,
      fun v => if o.w && !o.n then (BitVec.ofNat 32 v).signExtend 64 else BitVec.ofNat 64 v,
      fun old v => if old = ((x.rg o.c.toNat).setWidth k).toNat then some v else none⟩
  | .afadd o =>
    some ⟨o.d, o.b, o.a, o.ft.fmt.bits / 8, o.acq, o.rel, o.wait, BitVec.ofNat 64,
      fun old v => some (farith .add o.ft.fmt old v 0 .rne false 0).1⟩
  | _ => none

/-- R264, R282 to R284, R245: an atomic reads its word at home and writes the new value there in the same step; the old
value is on its way to the destination, and nothing else changes. A cleared granule is zeroed first. With `.rel` the release
must have ended. -/
def Obligations.Atomics : Prop :=
  ∀ (s : State) (i : Instr) (m : AtomicOp), i.wf = true → atomicOf (s.ctx s.cur) i = some m →
    let c := s.cur
    let x := s.ctx c
    let place := s.place c .atomic (x.rg m.b.toNat) m.n .atomic
    let v := (x.rg m.a.toNat).toNat % 2 ^ (8 * m.n)
    let sent (old : Nat) (y : Ctx) : Ctx :=
      { y with prog := { y.prog with need := .result, res := some ⟨m.d.toNat, m.ext old, m.acq⟩ } }
    let does (s' : State) (old : Nat) : Prop := exec i s = .next (s'.putCtx c (sent old (s'.ctx c)))
    (¬ mayStart s m.wait → exec i s = .next s) ∧
    (mayStart s m.wait →
      (∀ e, place = .error e → exec i s = .next (s.stopped c e)) ∧
      (m.rel = false ∨ (x.prog.rel = true ∧ x.q = 0 ∧ (s.core c.coreId).h = 0) →
        (∀ a, place = .ok (.sram a) → clearQuad s a →
          let old := s.sramBytes c.vt a m.n
          (∀ w, m.new old v = some w → ∃ s', storedSram s s' c.vt a m.n w ∧ does s' old) ∧
          (m.new old v = none → does s old)) ∧
        (∀ a, place = .ok (.sram a) → s.bankWait c a = none → x.posted.all (fun p => decide (p.addr / 8 ≠ a / 8)) = true →
          s.sramPois c.vt a = true →
          exec i s = .next (s.stopped c (.cause .poisonConsumed (BitVec.ofNat 64 (a / 8 * 8))))) ∧
        (∀ pa va g, place = .ok (.home pa va g) → clearHome s pa →
          (s.cleared (pa / 65536) = true → ∀ w, m.new 0 v = some w →
            ∃ s', atHome s s' pa ∧ exec i s = .next (s'.await c (.zero (pa / 65536)))) ∧
          (s.cleared (pa / 65536) = true → m.new 0 v = none → ∃ s', atHome s s' pa ∧ does s' 0) ∧
          (s.cleared (pa / 65536) = false → readable s pa →
            let old := rdBytes s.mem pa m.n
            (∀ w, m.new old v = some w → ∃ s0 s', atHome s s0 pa ∧
              storedHome (s0.touchHome c (.home pa va g) m.n) s' pa m.n w ∧ does s' old) ∧
            (m.new old v = none → ∃ s', atHome s s' pa ∧ does (s'.touchHome c (.home pa va g) m.n) old)) ∧
          (s.cleared (pa / 65536) = false → NSet.mem s.poisLine (pa / 64) = true →
            ∃ s', atHome s s' pa ∧
              exec i s = .next (s'.stopped c (.cause .poisonConsumed (BitVec.ofNat 64 (va / 8 * 8))))) ∧
          (s.cleared (pa / 65536) = false → NSet.mem s.poisLine (pa / 64) = false → NSet.mem s.badLine (pa / 64) = true →
            ∃ s', atHome s s' pa ∧
              exec i s = .next (s'.stopped c (.cause .memoryUncorrectable (BitVec.ofNat 64 (va / 64 * 64))))))))

/-- A vector access with a format tag (R162, R163). -/
def Sys2Proof.Claims.formatted (i : Instr) : Option (VFmtOp × Bool × WaitF) :=
  match i with
  | .vldfNoOffset o => some (⟨o.v, o.b, o.om, o.kc, o.vt, o.rm, o.sat, 0⟩, true, o.wait)
  | .vldfOff32 o => some (⟨o.v, o.b, o.om, o.kc, o.vt, o.rm, o.sat, o.imm.toInt⟩, true, o.wait)
  | .vstfNoOffset o => some (⟨o.v, o.b, o.om, o.kc, o.vt, o.rm, o.sat, 0⟩, false, o.wait)
  | .vstfOff32 o => some (⟨o.v, o.b, o.om, o.kc, o.vt, o.rm, o.sat, o.imm.toInt⟩, false, o.wait)
  | _ => none

/-- The elements of a register group that an access moves. -/
def Sys2Proof.Claims.elements (o : VFmtOp) (x : Ctx) : List Nat :=
  (List.range (2 ^ o.kc.toNat * o.vt.lanes)).filter (fun e => decide (o.om = 0) || (x.rg o.om.toNat).getLsbD e)

/-- R162: `vldf` reads the enabled elements of a register group at the addresses that the pointer's format fixes, converts
each to the lane type and writes it; the other lanes keep their value, csrng moves on by the numbers drawn, and nothing else
changes. A tag it does not accept is operand-reserved with the pointer; an access whose checks or whose read fails stops it as
`vld` (R159). -/
def Sys2Proof.Claims.FormattedLoads : Prop :=
  ∀ (s : State) (i : Instr) (o : VFmtOp) (wait : WaitF), i.wf = true → formatted i = some (o, true, wait) →
    let x := s.ctx s.cur
    let p := x.rg o.b.toNat
    let es := elements o x
    let n := 2 ^ o.kc.toNat * o.vt.lanes
    let fills (val : Nat → Nat → Nat) (vs : List Nat) (rng : Word) : Prop :=
      ∃ y : Ctx, completes s (exec i s) (fun _ => y) ∧ y.csrng = rng ∧
        { y with v := x.v, csrng := x.csrng } = x ∧
        (∀ r : VReg, (r.toNat < o.v.toNat ∨ o.v.toNat + 2 ^ o.kc.toNat ≤ r.toNat) → y.rv r.toNat = x.rv r.toNat) ∧
        (∀ e, e < n → e ∉ es → o.code y e = o.code x e) ∧
        (∀ k, k < es.length → o.code y (es.getD k 0) = val (vs.getD k 0) (es.getD k 0) % 2 ^ o.vt.width)
    let reads (b : Nat) (vs : List Nat) : Prop :=
      vs.length = es.length ∧ ∀ k, k < es.length → ∃ l,
        s.place s.cur .vector (leaAdd p ((o.o + (es.getD k 0 : Nat)) * b)) b .read = .ok l ∧
        s.load s.cur l b = .ok (vs.getD k 0)
    let fail (b : Nat) : Prop := readsFail s ⟨b, wait, .vector, es.map (fun (e : Nat) => leaAdd p ((o.o + e) * b)), []⟩
      (fun e => exec i s = .next (s.stopped s.cur e))
    (¬ mayStart s wait → exec i s = .next s) ∧
    (mayStart s wait →
      (o.tag p = none → exec i s = .next (s.stopped s.cur (.cause .operandReserved p))) ∧
      (o.tag p = some .raw → fail (o.vt.width / 8)) ∧
      (∀ f, o.tag p = some (.num f) → fail (f.bits / 8)) ∧
      (o.tag p = some .raw → ∀ vs, reads (o.vt.width / 8) vs → fills (fun v _ => v) vs x.csrng) ∧
      (∀ f, o.tag p = some (.num f) → ∀ vs, reads (f.bits / 8) vs →
        let d := drawsFor o.rm (if NFmt.rounds f (VTy.nfmt o.vt) then n else 0) x.csrng
        fills (fun v e => (convertBy f (VTy.nfmt o.vt) v o.rm o.sat (d.1.getD e 0)).1) vs d.2) ∧
      (∀ t, o.tag p = some (.mx t) →
        let d := drawsFor o.rm n x.csrng
        let got := s.mxRead p t (es.map (fun (e : Nat) => o.o + e))
        (∀ e, got = .error e → exec i s = .next (s.stopped s.cur e)) ∧
        (∀ fs, got = .ok fs → fills (fun k e => ((VTy.fmt o.vt).deliver (fs.getD k .nan) o.rm o.sat (d.1.getD e 0)).1)
          (List.range es.length) d.2)))

/-- R163: `vstf` converts the enabled elements and stores them at the addresses that the pointer's format fixes; to an MX
tensor it quantises whole blocks, scale and elements; that it stores these byte by byte, each a store of its own, is the model's
reading (log entry 30). -/
def Sys2Proof.Claims.FormattedStores : Prop :=
  ∀ (s : State) (i : Instr) (o : VFmtOp) (wait : WaitF), i.wf = true → formatted i = some (o, false, wait) → holdsLine s →
    let c := s.cur
    let x := s.ctx c
    let p := x.rg o.b.toNat
    let es := elements o x
    let n := 2 ^ o.kc.toNat * o.vt.lanes
    let stops (e : Stop) : Prop := exec i s = .next (s.stopped c e)
    let stores (b : Nat) (eas : List Word) (vals : List Nat) (rng : Word) : Prop :=
      (∀ e, s.placeAll c .vector b .write eas = .error e → stops e) ∧
      (∀ ls, s.placeAll c .vector b .write eas = .ok ls →
        (∀ e, s.storesReady c b ls = .error e → stops e) ∧
        (s.storesReady c b ls = .ok () → storesAll s (exec i s) b ls vals rng))
    let at_ (b : Nat) (e : Nat) : Word := leaAdd p ((o.o + e) * b)
    (¬ mayStart s wait → exec i s = .next s) ∧
    (mayStart s wait →
      (o.tag p = none → stops (.cause .operandReserved p)) ∧
      (o.tag p = some .raw → stores (o.vt.width / 8) (es.map (at_ (o.vt.width / 8))) (es.map (o.code x)) x.csrng) ∧
      (∀ f, o.tag p = some (.num f) →
        let d := drawsFor o.rm (if NFmt.rounds (VTy.nfmt o.vt) f then n else 0) x.csrng
        stores (f.bits / 8) (es.map (at_ (f.bits / 8)))
          (es.map (fun e => (convertBy (VTy.nfmt o.vt) f (o.code x e) o.rm o.sat (d.1.getD e 0)).1)) d.2) ∧
      (∀ t, o.tag p = some (.mx t) →
        let js : List Int := es.map (fun (e : Nat) => o.o + e)
        let B := ptrBlock p
        (o.om ≠ 0 ∨ o.o % B ≠ 0 ∨ n % B ≠ 0 → stops (.cause .operandReserved (s.headAt c))) ∧
        (o.om = 0 → o.o % B = 0 → n % B = 0 →
          (∀ e, mxAligned p B (MxTy.bits t) js = .error e → stops e) ∧
          (mxAligned p B (MxTy.bits t) js = .ok () →
            (∀ e, s.placeMx c .write p B (MxTy.bits t) js = .error e → stops e) ∧
            ∀ ls, s.placeMx c .write p B (MxTy.bits t) js = .ok ls →
            let d := drawsFor o.rm n x.csrng
            let ws := mxStores p t o.sat o.rm o.o (es.map (fun e => (VTy.fmt o.vt).value (o.code x e))) d.1
            stores 1 (ws.map (·.1)) (ws.map (·.2)) d.2))))

/-- R162: loads and stores that convert formats. -/
def Obligations.FormattedAccesses : Prop := FormattedLoads ∧ FormattedStores

/-! ### The matrix unit, copy queues, semaphores (R183 to R204, R288 to R296, R405 to R412) -/

/-- s' is s but for how its cores are listed. -/
def Sys2Proof.Claims.sameButCores (s s' : State) : Prop := (∀ j, s'.core j = s.core j) ∧ { s' with cores := s.cores } = s

/-- A release of the acting context has nothing to wait for: Q and H are zero and no cached word is dirty. -/
abbrev Sys2Proof.Claims.quiet (s : State) : Prop :=
  (s.ctx s.cur).q = 0 ∧ (s.core s.cur.coreId).h = 0 ∧
  (s.core s.cur.coreId).cache.all (fun y => decide (y.dirty = 0)) = true

/-- R184, R186, R187, R201 to R204: `mgeo`, `msub`, `mdrain` and `mstat` act at once; a geometry that is not accepted and an
origin that leaves its range are operand-reserved. -/
def Sys2Proof.Claims.MatrixStatus : Prop :=
  ∀ s : State,
    let x := s.ctx s.cur
    let mine := (s.core s.cur.coreId).matQ.filter (fun q => decide (q.slot = s.cur.slot) && q.alive)
    let reserved : State := s.stopped s.cur (.cause .operandReserved (s.headAt s.cur))
    let accepted (g : Word) : Prop :=
      (g.extractLsb' 10 6).toNat ≤ 47 ∧ (g.extractLsb' 4 6).toNat ≤ 48 ∧ g.extractLsb' 0 4 = 0
    let sets (r : Step) (d : GReg) (g : Word) : Prop :=
      (accepted g → completes s r (fun x => { x with cgeo := g }.wg d.toNat x.cgeo)) ∧
      (¬ accepted g → r = .next reserved)
    (∀ o : GG, sets (exec (.mgeoReg o) s) o.d (x.rg o.a.toNat)) ∧
    (∀ o : MgeoI, sets (exec (.mgeoImm o) s) o.d (x.cgeo.extractLsb' 36 28 ++ 0#20 ++ o.gorg ++ o.gw ++ 0#4)) ∧
    (∀ o : Msub,
      let y := ((x.cgeo.extractLsb' 26 10).toNat : Int) + o.dy.toInt
      let z := ((x.cgeo.extractLsb' 16 10).toNat : Int) + o.dx.toInt
      (0 ≤ y ∧ y ≤ 1023 ∧ 0 ≤ z ∧ z ≤ 1023 → completes s (exec (.msub o) s) (fun x => { x with
        cgeo := x.cgeo.extractLsb' 36 28 ++ BitVec.ofInt 10 y ++ BitVec.ofInt 10 z ++ x.cgeo.extractLsb' 0 16 })) ∧
      (¬ (0 ≤ y ∧ y ≤ 1023 ∧ 0 ≤ z ∧ z ≤ 1023) → exec (.msub o) s = .next reserved)) ∧
    (mine = [] → completes s (exec .mdrain s) id) ∧
    (mine ≠ [] → exec .mdrain s = .next (s.putCtx s.cur (blocked x .queueFull .mdrain none))) ∧
    (∀ d : GReg, completes s (exec (.mstat d) s) (fun x =>
      let busy (n : Nat) : BitVec 1 := BitVec.ofBool (mine.any (fun q => q.acc == n))
      x.wg d.toNat (x.done ++ 0#19 ++ BitVec.ofBool (s.core s.cur.coreId).matHeld ++ BitVec.ofNat 4 (min mine.length 8) ++
        busy 3 ++ busy 2 ++ busy 1 ++ busy 0 ++ x.pz)))

/-- The command that a matrix instruction captures when it is pushed (R192). -/
def Sys2Proof.Claims.commandOf (s : State) (i : Instr) : Option MatCmd :=
  let x := s.ctx s.cur
  let cmd (op : MatOp) (acc : AReg) (a b c : Word) (idx : Vec) (sig : Sig) : Option MatCmd :=
    some { op := op, acc := acc.toNat, a := a, b := b, c := c, idx := idx, geo := x.cgeo, rng := x.csrng
           core := s.cur.core, slot := s.cur.slot, pc := x.pc, sig := sig, user := !x.priv }
  match i with
  | .mmq o => cmd .mmq o.acc (x.rg o.a.toNat) (x.rg o.b.toNat) (x.rg o.c.toNat) 0 o.sig
  | .mmqg o => cmd .mmqg o.acc (x.rg o.a.toNat) (x.rg o.b.toNat) (x.rg o.c.toNat) (x.rv o.iv.toNat) o.sig
  | .mzero o => cmd .mzero o.acc 0 0 0 0 o.sig
  | .mld o => cmd .mld o.acc (x.rg o.a.toNat) (x.rg o.b.toNat) 0 0 o.sig
  | .mst o => cmd .mst o.acc (x.rg o.a.toNat) (x.rg o.b.toNat) 0 0 o.sig
  | .mqz o => cmd (.mqz o.rm o.sat) o.acc (x.rg o.a.toNat) (x.rg o.b.toNat) 0 0 o.sig
  | .mdq o => cmd (.mdq o.add) o.acc (x.rg o.a.toNat) (x.rg o.b.toNat) 0 0 o.sig
  | _ => none

/-- The generator after a push: 256 numbers drawn for `mqz` with `.sr` (R199). -/
def Sys2Proof.Claims.rngAfter (op : MatOp) (x : Word) : Word :=
  match op with
  | .mqz .sr _ => (rngDraws 256 x).2
  | _ => x

/-- R192, R193, R296, R406: a matrix instruction whose operands pass their checks releases and pushes its command, as it
captured it, behind the others; one that finds the queue empty goes on to its fetch, or waits on its semaphore; with the
queue full, held or others waiting, the context blocks. -/
def Sys2Proof.Claims.MatrixPush : Prop :=
  ∀ (s : State) (i : Instr) (q : MatCmd), i.wf = true → commandOf s i = some q →
    let c := s.cur
    let x := s.ctx c
    let k := s.core c.coreId
    let ok : Prop := q.fmtCheck (s.headAt c) = .ok () ∧ q.addrCheck = .ok ()
    let room : Prop := k.matQ.length < 8 ∧ k.matHeld = false ∧ k.matBlocked = []
    let enters (k' : Core) : Prop :=
      ∃ s', coreIs s s' k' ∧ completesVia s s' (exec i s) (fun x => { x with csrng := rngAfter q.op x.csrng })
    (∀ e, q.fmtCheck (s.headAt c) = .error e → exec i s = .next (s.stopped c e)) ∧
    (∀ e, q.fmtCheck (s.headAt c) = .ok () → q.addrCheck = .error e → exec i s = .next (s.stopped c e)) ∧
    (ok → quiet s → room → k.matQ ≠ [] → enters { k with matQ := k.matQ ++ [q] }) ∧
    (ok → quiet s → room → k.matQ = [] → q.sig.wthr = 0 →
      enters { k with matQ := [q], matPhase := .fetch, matLatch := none }) ∧
    (ok → quiet s → room → k.matQ = [] → q.sig.wthr ≠ 0 →
      k.waiters.all (fun w => decide (w.sem ≠ q.sig.wsem.toNat)) = true → k.sem q.sig.wsem.toNat < q.sig.wthr.toNat →
      ∃ m, (∀ j, NMap.get 0 m j = k.sem j) ∧ enters { k with
        matQ := [q], matPhase := .enqueued, matLatch := none, sems := m
        waiters := k.waiters ++ [⟨q.sig.wsem.toNat, .matrix, q.sig.wthr.toNat, true⟩] }) ∧
    (ok → quiet s → ¬ room → ∃ t, exec i s = .next t ∧ (∀ d, d ≠ c → t.ctx d = s.ctx d) ∧
      t.ctx c = blocked x .queueFull (.matPush q) none ∧
      (∀ j, t.core j = if j = c.coreId then { k with matBlocked := k.matBlocked ++ [c.slot] } else s.core j) ∧
      { t with ctxs := s.ctxs, cores := s.cores } = s)

/-- R184 to R193, R201 to R204, R296, R406: the instructions of the matrix unit, as they issue. -/
def Obligations.MatrixInstructions : Prop := MatrixStatus ∧ MatrixPush

/-- R53, R185, R187, R193, R195 to R200, R407: the head command of a core reads its operands, then has its effect on the
accumulator of the context that pushed it, then completes: its signal is made, DONE rises and the next command comes to the
head. Out of its phase, or with the queue held, an event of it changes nothing. A store of a removed process writes out the
accumulators that were kept for it (R207). -/
def Obligations.MatrixPhases : Prop :=
  (∀ (s : State) (k : CoreId), (s.core k).matQ = [] ∨ (s.core k).matPhase ≠ .fetch ∨ (s.core k).matHeld = true →
    exec (.matrixFetch k) s = .next s) ∧
  (∀ (s : State) (k : CoreId) (q : MatCmd) (r : List MatCmd), (s.core k).matQ = q :: r → (s.core k).matPhase = .fetch →
    (s.core k).matHeld = false → s.runs k = true →
    (q.op = .mzero → ∃ s', (∀ j, s'.core j = if j = k then
        { s.core k with matPhase := .effect, matLatch := some ⟨[], [], false, []⟩ } else s.core j) ∧
      { s' with cores := s.cores } = s ∧ exec (.matrixFetch k) s = .next s') ∧
    (∀ (t : State) (l : Latch), s.matFetch k q = (t, .ok l) →
      exec (.matrixFetch k) s = .next (t.modCore k (fun x => { x with
        matPhase := .effect, matLatch := some l })) ∧ (q.op = .mld → l.codes.length = 256)) ∧
    (∀ (t : State) (e : Raise), s.matFetch k q = (t, .stop (.fault e)) →
      exec (.matrixFetch k) s = .next (((t.endStep (.mat k 0)).modCore k (fun x => { x with matHeld := true })).engMsg
        ⟨k.vt, k.core, q.slot⟩ k.core q.pc e 2 0 0)) ∧
    (∀ (t : State) (a : Nat) (acc : Acc), s.matFetch k q = (t, .stop (.miss a acc)) →
      exec (.matrixFetch k) s = .next ((t.leavePlaces (.mat k 0)).engMiss k .matrix q.user a acc)) ∧
    (∀ t : State, s.matFetch k q = (t, .wait) → exec (.matrixFetch k) s = .next t)) ∧
  (∀ (s : State) (k : CoreId), (s.core k).matPhase ≠ .effect → exec (.matrixEffect k) s = .next s) ∧
  (∀ (s s1 : State) (k : CoreId) (q : MatCmd) (r : List MatCmd) (l : Latch), (s.core k).matQ = q :: r →
    (s.core k).matPhase = .effect → (s.core k).matLatch = some l →
    (s.matGate k [] l.dest = (s1, false) → exec (.matrixEffect k) s = .next s1) ∧
    (∀ a z, s.matGate k [] l.dest = (s1, true) → q.alive = false → (s.core k).matKept = some (a, z) →
      ∃ t, exec (.matrixEffect k) s = .next t ∧ (t.core k).matPhase = .completion ∧ (t.core k).matKept = none ∧
        t.mem = (s1.engWrites k.vt q.width (l.dest.zip ((q.outputs { s.ctx ⟨k.vt, k.core, q.slot⟩ with acc := a, pz := z }).map
          (fun v => (v, z.getLsbD q.acc))))).mem ∧
        (∀ c, ∃ m, t.ctx c = { s.ctx c with mon := { (s.ctx c).mon with fired := m } }))) ∧
  (∀ (s s1 : State) (k : CoreId) (q : MatCmd) (r : List MatCmd) (l : Latch), (s.core k).matQ = q :: r →
    (s.core k).matPhase = .effect → (s.core k).matLatch = some l → s.matGate k [] l.dest = (s1, true) →
    (s.core k).matKept = none → q.alive = true → q.acc < 4 → (q.op = .mld → l.codes.length = 256) →
    let c : CtxId := ⟨k.vt, k.core, q.slot⟩
    let x := s.ctx c
    let K := (q.c.extractLsb' 0 16).toNat
    let pzSet : BitVec 4 := x.pz ||| (1#4 <<< q.acc)
    let pzClr : BitVec 4 := x.pz &&& ~~~(1#4 <<< q.acc)
    ∃ t, exec (.matrixEffect k) s = .next t ∧ (t.core k).matPhase = .completion ∧ (t.core k).matLatch = none ∧
      t.mem = (s1.engWrites k.vt q.width (l.dest.zip ((q.outputs x).map (fun v => (v, x.pz.getLsbD q.acc))))).mem ∧
      (∀ n i j, n < 4 → i < 16 → j < 16 → (t.ctx c).ra n i j = if n ≠ q.acc then x.ra n i j else match q.op with
        | .mzero => 0
        | .mst => x.ra n i j
        | .mqz _ _ => x.ra n i j
        | .mld => BitVec.ofNat 32 (l.codes.getD (i * 16 + j) 0)
        | .mdq add =>
          if i ∈ q.rows ∧ j ∈ q.cols ∧ q.cells.idxOf (i, j) < l.vals.length then
            let v := l.vals.getD (q.cells.idxOf (i, j)) .nan
            BitVec.ofNat 32 (if add then
                (FloatTy.f32.fmt.finish (addA (FloatTy.f32.fmt.value (x.ra n i j).toNat) v .rne) .rne false 0).1
              else (FloatTy.f32.fmt.deliver v .rne false 0).1)
          else x.ra n i j
        | _ =>
          if i ∈ q.rows ∧ j ∈ q.cols then
            let a := (l.vals.drop (q.rows.idxOf i * K)).take K
            let b := (l.vals.drop (q.aElems.length + q.cols.idxOf j * K)).take K
            BitVec.ofNat 32 (accumulate (x.ra n i j).toNat (groupSize (ptrFmt q.a) (ptrFmt q.b))
              ((a.zip b).map (fun p => mulF p.1 p.2)))
          else x.ra n i j) ∧
      (t.ctx c).pz = (match q.op with
        | .mzero => pzClr
        | .mld => if l.pois then pzSet else pzClr
        | _ => if l.pois then pzSet else x.pz) ∧
      (t.ctx c).g = x.g ∧ (t.ctx c).v = x.v ∧ (t.ctx c).p = x.p ∧ (t.ctx c).pc = x.pc) ∧
  (∀ (s : State) (k : CoreId), (s.core k).matQ = [] ∨ (s.core k).matPhase ≠ .completion →
    exec (.matrixCompletion k) s = .next s) ∧
  (∀ (s : State) (k : CoreId) (q : MatCmd) (r : List MatCmd), (s.core k).matQ = q :: r →
    (s.core k).matPhase = .completion → q.alive = true →
    let c : CtxId := ⟨k.vt, k.core, q.slot⟩
    let s1 := (s.putCore k { s.core k with matQ := r, matPhase := .enqueued }).modCtx c (fun y => { y with done := y.done + 1 })
    exec (.matrixCompletion k) s =
      .next ((if q.sig.sinc = 0 then s1 else s1.semAdd k q.sig.ssem.toNat q.sig.sinc.toNat (some c)).startMat k) ∧
    (q.sig.sinc = 0 → r = [] → exec (.matrixCompletion k) s = .next s1))

/-- The operands of `cpq` and `cpqt`. -/
def Sys2Proof.Claims.copyOf (i : Instr) : Option (GReg × GReg × GReg × Sig × Option GReg) :=
  match i with
  | .cpq o => some (o.a, o.b, o.c, o.sig, none)
  | .cpqt o => some (o.a, o.b, o.c, o.sig, some o.d)
  | _ => none

/-- A pointer with the alias window resolved (R229, R292). -/
def Sys2Proof.Claims.absolute (core : Nat) (p : Word) : Word :=
  let w := (p.extractLsb' 0 48).toNat
  p.extractLsb' 48 16 ++ (if 0x00F00000 ≤ w ∧ w ≤ 0x00FFFFFF then BitVec.ofNat 48 (core / 4 * 0x00100000 + (w - 0x00F00000))
    else p.extractLsb' 0 48)

/-- R288 to R291, R296: `cpq` and `cpqt` check their operands, release and push the command behind the others; with no room
`cpq` blocks and `cpqt` answers 1, or 2 where the queue is held; a `cpqt` that pushes answers 0. -/
def Sys2Proof.Claims.CopyPush : Prop :=
  ∀ (s : State) (i : Instr) (a b m : GReg) (sig : Sig) (d : Option GReg), i.wf = true → copyOf i = some (a, b, m, sig, d) →
    let c := s.cur
    let x := s.ctx c
    let k := s.core c.coreId
    let q : CopyCmd := { src := absolute c.core (x.rg a.toNat), dst := absolute c.core (x.rg b.toNat), mode := x.rg m.toNat
                         sig := sig, slot := c.slot, core := c.core, pc := x.pc, user := !x.priv }
    let check := s.copyCheck (x.rg a.toNat) (x.rg b.toNat) (x.rg m.toNat)
    let room : Prop := k.copyQ.length < 8 ∧ k.copyHeld = false ∧ (d = none → k.copyBlocked = [])
    let answer (n : Word) (y : Ctx) : Ctx := match d with
      | none => y
      | some d => y.wg d.toNat n
    let enters (k' : Core) : Prop := ∃ s', coreIs s s' k' ∧ completesVia s s' (exec i s) (answer 0)
    (∀ e, check = .error e → exec i s = .next (s.stopped c e)) ∧
    (check = .ok () → quiet s → room → k.copyQ ≠ [] → enters { k with copyQ := k.copyQ ++ [q] }) ∧
    (check = .ok () → quiet s → room → k.copyQ = [] → sig.wthr = 0 → enters { k with
      copyQ := [q], copyPhase := .fetch, copyOff := 0, copyOut := 0, copyN := 0, copyBad := false }) ∧
    (check = .ok () → quiet s → ¬ room → d = none → ∃ t, exec i s = .next t ∧ (∀ d, d ≠ c → t.ctx d = s.ctx d) ∧
      t.ctx c = blocked x .queueFull (.copyPush q) none ∧
      (∀ j, t.core j = if j = c.coreId then { k with copyBlocked := k.copyBlocked ++ [c.slot] } else s.core j) ∧
      { t with ctxs := s.ctxs, cores := s.cores } = s) ∧
    (check = .ok () → quiet s → ¬ room → d ≠ none → ∃ s', sameButCores s s' ∧
      completesVia s s' (exec i s) (answer (if 8 ≤ k.copyQ.length then 1 else 2)))

/-- The one command of core k, a transform of one word from address a to address b of quad memory, is at the head of die
d's engine, and nothing of it has been done yet. -/
abbrev Sys2Proof.Claims.transforms (s : State) (k : CoreId) (q : CopyCmd) (d a b : Nat) : Prop :=
  (s.core k).copyQ = [q] ∧ (s.core k).copyPhase = .fetch ∧ (s.core k).copyHeld = false ∧ s.runs k = true ∧
  s.engineOf k.vt = some d ∧ AMap.get [] s.dieQ d = [k] ∧ (s.core k).copyOff = 0 ∧ (s.core k).copyOut = 0 ∧
  (s.core k).copyBad = false ∧ q.sig.sinc = 0 ∧ cpLen q.mode = 8 ∧
  q.src.extractLsb' 48 7 = 0 ∧ (q.src.extractLsb' 0 48).toNat = a ∧ q.dst.extractLsb' 48 7 = 0 ∧
  (q.dst.extractLsb' 0 48).toNat = b ∧ a % 8 = 0 ∧ b % 8 = 0 ∧ a + 24 ≤ 0xC00000 ∧ b + 24 ≤ 0xC00000 ∧
  a / 0x100000 = (a + 23) / 0x100000 ∧ b / 0x100000 = (b + 23) / 0x100000 ∧
  s.portOpen k.vt a (.copy k 0) = true ∧ s.portOpen k.vt b (.copy k 0) = true ∧
  (∀ i, i < 3 → s.sramPois k.vt (a + 8 * i) = false ∧ s.sramPois k.vt (b + 8 * i) = false)

/-- The word addresses of the next step of a core's head command in modes 0 and 1 (R290, R293): n words from the offset that
has been reached on, in rows of ROWLEN bytes that lie a pitch apart in mode 1. -/
structure Sys2Proof.Claims.StepWords where
  n : Nat
  src : Nat → Word
  dst : Nat → Word

@[inherit_doc Sys2Proof.Claims.StepWords]
def Sys2Proof.Claims.stepWords (x : Core) (q : CopyCmd) : StepWords :=
  let strided : Bool := q.mode.extractLsb' 60 4 == 1
  let row := (q.mode.extractLsb' 32 16).toNat
  let total := if strided then ((q.mode.extractLsb' 48 12).toNat + 1) * row else (q.mode.extractLsb' 0 40).toNat
  let at_ (p : Word) (pitch : BitVec 16) (i : Nat) : Word :=
    let b := x.copyOff + 8 * i
    leaAdd p (if strided then (b / row : Nat) * (8 * pitch.toInt) + (b % row : Nat) else (b : Int))
  ⟨min 128 (total - x.copyOff) / 8, at_ q.src (q.mode.extractLsb' 16 16), at_ q.dst (q.mode.extractLsb' 0 16)⟩

/-- What a step of the copy engine comes to at an access that has no place (R94, R293, R363): the FIFO is held and the curator
told, or the walker takes up the miss. -/
def Sys2Proof.Claims.copyStops (s : State) (k : CoreId) (q : CopyCmd) (e : EngStop) : State :=
  match e with
  | .fault r => ((s.endStep (.copy k 0)).modCore k (fun x => { x with copyHeld := true })).engMsg ⟨k.vt, q.core, q.slot⟩
      k.core q.pc r 1 0 (s.core k).copyOff
  | .miss a acc => (s.leavePlaces (.copy k 0)).engMiss k .copy q.user a acc

/-- R425: what a step of h bytes of the heap costs a partition whose rate is not zero, one token for each 64 bytes begun; it
proceeds where the bucket holds them, and else only where the bucket and what lenders have cover them (R426). -/
def Sys2Proof.Claims.StepCharge : Prop :=
  ∀ (s : State) (p h : Nat),
    let q := s.part p
    let c : Int := ((h + 63) / 64 : Nat)
    let lent := ((s.lenders p).map (fun l => (s.part l).tokens)).sum
    (q.rate = 0 ∨ h = 0 → s.charge p h = (s, true)) ∧
    (q.rate ≠ 0 → h ≠ 0 → c ≤ q.tokens → s.charge p h = (s.modPart p (fun q => { q with tokens := q.tokens - c }), true)) ∧
    (q.rate ≠ 0 → h ≠ 0 → q.tokens < c → (q.tokens < 0 ∨ lent < c - q.tokens) → ∃ t, s.charge p h = (t, false) ∧
      ∀ r, (t.part r).tokens = (s.part r).tokens) ∧
    (q.rate ≠ 0 → h ≠ 0 → q.tokens < c → 0 ≤ q.tokens → c - q.tokens ≤ lent → ∃ t, s.charge p h = (t, true) ∧
      (t.part p).tokens = 0)

/-- R293, R425: a step of a copy, strided or not, when its quad's copy engine serves the core: an access that has no place
holds the FIFO or waits for its walk; a step that cannot be paid for waits; where every word lies in quad memory whose ports take
the step, each word is moved with its poison, nothing else in memory changes, and the offset moves on, or the command completes. -/
def Sys2Proof.Claims.CopyWords : Prop :=
  ∀ (s : State) (k : CoreId) (q : CopyCmd) (r : List CopyCmd), (s.core k).copyQ = q :: r → (s.core k).copyPhase = .fetch →
    (s.core k).copyHeld = false → s.runs k = true → (q.mode.extractLsb' 60 4).toNat < 2 →
    let w := stepWords (s.core k) q
    let rd (i : Nat) : Except EngStop Loc := s.engPlace k q.user true (w.src i) 8 .read
    let wr (i : Nat) : Except EngStop Loc := s.engPlace k q.user true (w.dst i) 8 .write
    let t := s.copyOnce k
    exec (.copyStep k) s = .next (if t = s ∨ s.copyTurn (s.quadOf k) (s.quadPos k) = false then s
      else t.modQuad (s.quadOf k) (fun x => { x with rotCore := s.quadPos k })) ∧
    (∀ i e, i < w.n → (∀ j, j < i → ∃ l, rd j = .ok l) → rd i = .error e → t = copyStops s k q e) ∧
    (∀ i e, i < w.n → (∀ j, j < w.n → ∃ l, rd j = .ok l) → (∀ j, j < i → ∃ l, wr j = .ok l) → wr i = .error e →
      t = copyStops s k q e) ∧
    (∀ ls ms : List Loc, ls.length = w.n → ms.length = w.n → (∀ i, i < w.n → some (rd i) = ls[i]?.map .ok) →
      (∀ i, i < w.n → some (wr i) = ms[i]?.map .ok) → (ls ++ ms).any (s.engMoving k.vt) = false →
      ∀ s1, s.charge k.vt.part (heapBytes 8 (ls ++ ms)) = (s1, false) → t = s1.leavePlaces (.copy k 0)) ∧
    (∀ sa da : Nat → Nat,
      (∀ i, i < w.n → rd i = .ok (.sram (sa i)) ∧ sa i % 8 = 0 ∧ s.portOpen k.vt (sa i) (.copy k 0) = true ∧
        s.movingAt k.vt (sa i) = none) →
      (∀ i, i < w.n → wr i = .ok (.sram (da i)) ∧ da i % 8 = 0 ∧ s.portOpen k.vt (da i) (.copy k 0) = true ∧
        s.movingAt k.vt (da i) = none) →
      (∀ i j, i < j → j < w.n → da i ≠ da j) →
      (∀ i, i < w.n → rdBytes t.mem (sramKey k.vt (da i)) 8 = rdBytes s.mem (sramKey k.vt (sa i)) 8 ∧
        t.sramPois k.vt (da i) = s.sramPois k.vt (sa i)) ∧
      (∀ a, (∀ i, i < w.n → ¬ (sramKey k.vt (da i) ≤ a ∧ a < sramKey k.vt (da i) + 8)) →
        NMap.get 0 t.mem a = NMap.get 0 s.mem a) ∧
      (let n := min 128 (cpTotal q.mode - (s.core k).copyOff)
       ((s.core k).copyOff + n < cpTotal q.mode → (t.core k).copyOff = (s.core k).copyOff + n ∧ (t.core k).copyQ = q :: r) ∧
       ((s.core k).copyOff + n = cpTotal q.mode → q.sig.sinc = 0 → (t.core k).copyQ = r)))

/-- R293 to R295, R303: the head command of a core moves on by a step of at most 128 bytes: a copy when its quad's copy engine
serves the core, a transform when the command is the first in the queue of its die's engine whose core's FIFO is not held;
nothing happens while it waits, is held or does not run. A command whose step was the last completes. -/
def Sys2Proof.Claims.CopySteps : Prop :=
  (∀ (s : State) (k : CoreId), (s.core k).copyQ = [] ∨ (s.core k).copyPhase ≠ .fetch ∨ (s.core k).copyHeld = true ∨
      s.runs k = false →
    exec (.copyStep k) s = .next s ∧ exec (.packStep k) s = .next s ∧ exec (.unpackStep k) s = .next s ∧
    exec (.reduceStep k) s = .next s) ∧
  (∀ (s : State) (k : CoreId) (q : CopyCmd) (r : List CopyCmd) (d : Nat) (held l : List CoreId), (s.core k).copyQ = q :: r →
    (s.core k).copyPhase = .fetch → (s.core k).copyHeld = false → s.runs k = true → s.engineOf k.vt = some d →
    AMap.get [] s.dieQ d = held ++ k :: l → (∀ j ∈ held, (s.core j).copyHeld = true) → cpLen q.mode = 0 →
    let s1 : State := { s with dieQ := AMap.put s.dieQ d (held ++ k :: l) }
    (cpMode q.mode = 2 → exec (.packStep k) s = .next (s1.endCopy k q)) ∧
    (cpMode q.mode = 3 → exec (.unpackStep k) s = .next (s1.endCopy k q)) ∧
    (cpMode q.mode = 4 → exec (.reduceStep k) s = .next (s1.endCopy k q))) ∧
  (∀ (s : State) (k : CoreId) (q : CopyCmd) (r : List CopyCmd) (a b : Nat), (s.core k).copyQ = q :: r →
    (s.core k).copyPhase = .fetch → (s.core k).copyHeld = false → s.runs k = true → s.copyTurn (s.quadOf k) (s.quadPos k) = true →
    cpMode q.mode = 0 → cpLen q.mode = 128 → (s.core k).copyOff = 0 → q.sig.sinc = 0 → r = [] →
    q.src = BitVec.ofNat 64 a → q.dst = BitVec.ofNat 64 b → a + 128 ≤ 0xC00000 → b + 128 ≤ 0xC00000 → a % 8 = 0 → b % 8 = 0 →
    a / 0x100000 = (a + 127) / 0x100000 → b / 0x100000 = (b + 127) / 0x100000 →
    s.portOpen k.vt a (.copy k 0) = true → s.portOpen k.vt b (.copy k 0) = true →
    ∃ t, exec (.copyStep k) s = .next t ∧ (t.core k).copyQ = [] ∧
      (∀ j, j < 128 → NMap.get 0 t.mem (sramKey k.vt b + j) = NMap.get 0 s.mem (sramKey k.vt a + j)) ∧
      (∀ j, ¬ (sramKey k.vt b ≤ j ∧ j < sramKey k.vt b + 128) → NMap.get 0 t.mem j = NMap.get 0 s.mem j)) ∧
  (∀ (s : State) (k : CoreId) (q : CopyCmd) (d a b : Nat), transforms s k q d a b →
    let word (t : State) (x : Nat) : Nat := rdBytes t.mem (sramKey k.vt x) 8
    let w := word s a
    (cpMode q.mode = 2 → ∃ t, exec (.packStep k) s = .next t ∧ (t.core k).copyQ = [] ∧
      word t b = (if w = 0 then 8 else 16) ∧ word t (b + 8) = (if w = 0 then 0 else 1) ∧
      word t (b + 16) = (if w = 0 then word s (b + 16) else w)) ∧
    (cpMode q.mode = 3 → ∃ t, exec (.unpackStep k) s = .next t ∧ (t.core k).copyQ = [] ∧
      (word s (a + 8) = 0 → 8 ≤ w → word t b = 0) ∧ (word s (a + 8) = 1 → 16 ≤ w → word t b = word s (a + 16)) ∧
      (1 < word s (a + 8) ∨ w < 8 → s.sramPois k.vt b = false → t.sramPois k.vt b = true)) ∧
    (cpMode q.mode = 4 → ptrFmt q.src = 0x07 → ∃ t, exec (.reduceStep k) s = .next t ∧ (t.core k).copyQ = [] ∧
      word t b = (word s b + w) % 2 ^ 64))

/-- R288 to R296: copy commands as they are pushed, and their steps. -/
def Obligations.CopyCommands : Prop := CopyPush ∧ StepCharge ∧ CopyWords ∧ CopySteps

/-- R406: one examination of a semaphore's waiters. What it gives out is what the value loses; waiters of other semaphores
stay; a waiter that only compares stays only if the value it all began with is below its threshold, wherever it stands; the first consuming waiter that stays
needs more than is left; and who proceeds and who stays are the waiters there were. -/
def Sys2Proof.Claims.SemaphoreExamination : Prop :=
  ∀ (i v : Nat) (ws : List SemWaiter),
    let r := examineList i v ws v false
    (∃ gone : List SemWaiter, List.Sublist gone ws ∧ gone.map (·.who) = r.2.2 ∧ (∀ w ∈ gone, w.sem = i) ∧
      r.1 + ((gone.filter (·.consume)).map (·.thr)).sum = v ∧ gone.length + r.2.1.length = ws.length) ∧
    List.Sublist r.2.1 ws ∧ (∀ w ∈ ws, w.sem ≠ i → w ∈ r.2.1) ∧
    (∀ w ∈ r.2.1, w.sem = i → w.consume = false → v < w.thr) ∧
    (∀ w, (r.2.1.filter (fun w => decide (w.sem = i) && w.consume)).head? = some w → r.1 < w.thr)

/-- The value operand of a semaphore instruction: an immediate, or the low 16 bits of a register. -/
def Sys2Proof.Claims.amount (x : Ctx) (v : SemVal) : Nat :=
  match v with
  | .imm n => n.toNat
  | .g r => ((x.rg r.toNat).setWidth 16).toNat

/-- R405 to R412, R441: the semaphore instructions at a semaphore on which nobody else waits: `semget` reads, `semt` tries,
`semw` takes or blocks, `semset` sets; `semadd` adds up to 65,535 and raises semaphore-overflow beyond. An operation that
reaches a core of a sleeping quad wakes the quad. -/
def Sys2Proof.Claims.SemaphoreInstructions : Prop :=
  ∀ s : State,
    let c := s.cur
    let x := s.ctx c
    let nobody (k : CoreId) (i : Nat) : Prop := (s.core k).waiters.all (fun w => decide (w.sem ≠ i)) = true
    let named (r : GReg) : CoreId := if r = 0 then c.coreId else ⟨c.vt, (x.rg r.toNat).toNat⟩
    let holds (s' : State) (k : CoreId) (i v : Nat) : Prop :=
      (∀ j n, (s'.core j).sem n = if j = k ∧ n = i then v else (s.core j).sem n) ∧
      (∀ j, { s'.core j with sems := [] } = { s.core j with sems := [] })
    (∀ o : GG,
      let a := x.rg o.a.toNat
      let k : CoreId := if a.getLsbD 15 then ⟨c.vt, (a.extractLsb' 8 6).toNat⟩ else c.coreId
      (a.getLsbD 15 = true → 48 ≤ (a.extractLsb' 8 6).toNat →
        exec (.semget o) s = .next (s.stopped c (.cause .operandReserved a))) ∧
      (k.core < 48 ∨ a.getLsbD 15 = false → (s.core k).moving = true →
        exec (.semget o) s = .next (s.await c (.need (.move k.core)))) ∧
      (k.core < 48 ∨ a.getLsbD 15 = false → (s.core k).moving = false →
        completesVia s (s.wakeCore k) (exec (.semget o) s) (fun y =>
          y.wg o.d.toNat (BitVec.ofNat 64 (NMap.get 0 (s.core k).sems (a.setWidth 8).toNat))))) ∧
    (∀ o : SemT,
      let v := amount x o.v
      let old := (s.core c.coreId).sem o.s.toNat
      (nobody c.coreId o.s.toNat → v ≤ old → ∃ s',
        holds s' c.coreId o.s.toNat (if o.nc then old else old - v) ∧ { s' with cores := s.cores } = s ∧
        completesVia s s' (exec (.semt o) s) (fun y => y.wg o.d.toNat (BitVec.ofNat 64 (65536 + old)))) ∧
      (old < v → completes s (exec (.semt o) s) (fun y => y.wg o.d.toNat (BitVec.ofNat 64 old))) ∧
      (v ≠ 0 → (s.core c.coreId).waiters.any (fun w => decide (w.sem = o.s.toNat) && w.consume) = true →
        completes s (exec (.semt o) s) (fun y => y.wg o.d.toNat (BitVec.ofNat 64 old)))) ∧
    (∀ o : SemW,
      let v := amount x o.v
      let old := (s.core c.coreId).sem o.s.toNat
      (nobody c.coreId o.s.toNat → v ≤ old → roomForAll (s.core c.coreId) →
        ∃ k' s0 s', holds s0 c.coreId o.s.toNat (if o.nc then old else old - v) ∧ { s0 with cores := s.cores } = s ∧
          begun (s0.core c.coreId) k' ∧ coreIs s0 s' { k' with
            cache := k'.cache.filter (·.gal), stale := s.overtaken c (fun _ => true) ++ k'.stale } ∧
          completesVia s s' (exec (.semw o) s) (fun y => { y with
            why := .semaphore, stamp := y.issuedAt, knot := false, probeLeft := (y.cprobe.setWidth 32).toNat })) ∧
      (nobody c.coreId o.s.toNat → old < v → ∃ t, exec (.semw o) s = .next t ∧ (∀ d, d ≠ c → t.ctx d = s.ctx d) ∧
        t.ctx c = blocked x .semaphore (.sem o.s.toNat) none ∧
        (t.core c.coreId).waiters = (s.core c.coreId).waiters ++ [⟨o.s.toNat, .ctx c.slot, v, !o.nc⟩] ∧
        (∀ j n, (t.core j).sem n = (s.core j).sem n))) ∧
    (∀ o : SemPut,
      let v := amount x o.v
      let k := named o.core
      let old := (s.core k).sem o.s.toNat
      (o.core ≠ 0 → 48 ≤ (x.rg o.core.toNat).toNat →
        exec (.semadd o) s = .next (s.stopped c (.cause .operandReserved (x.rg o.core.toNat))) ∧
        exec (.semset o) s = .next (s.stopped c (.cause .operandReserved (x.rg o.core.toNat)))) ∧
      (o.core = 0 ∨ (x.rg o.core.toNat).toNat < 48 → (s.core k).moving = false → nobody k o.s.toNat →
        (∃ s', holds s' k o.s.toNat v ∧ { s' with cores := s.cores } = s.wakeCore k ∧
          completesVia s s' (exec (.semset o) s) id) ∧
        (quiet s → ∃ s', holds s' k o.s.toNat (min (old + v) 65535) ∧ { s' with cores := s.cores } = s.wakeCore k ∧
          completesVia s s' (exec (.semadd o) s) (fun y =>
            if 65535 < old + v then
              { y with pend := y.pend ++ [(.semaphoreOverflow, BitVec.ofNat 64 o.s.toNat)] } else y))))

/-- R405 to R412: the examination of waiters, and the semaphore instructions. -/
def Obligations.Semaphores : Prop := SemaphoreExamination ∧ SemaphoreInstructions

/-! ### Causes, the handler, control registers (R8, R78 to R90, R209 to R222, R345 to R347, R416, R422) -/

/-- The entry PC that ctvec holds can be entered (R60, R62, R86): its line lies in the instruction stores, has no poisoned
word and a well-formed descriptor, and has the head that the PC names. -/
abbrev Sys2Proof.Claims.handlerFits (s : State) (c : CtxId) : Prop :=
  let v := (s.ctx c).ctvec
  let a := v.toNat / 64 * 64
  let l := BitVec.ofNat 512 (s.sramBytes c.vt a 64)
  0x01000000 ≤ a ∧ a ≤ 0x012FFFC0 ∧ (∀ k, k < 8 → s.sramPois c.vt (a + 8 * k) = false) ∧ lineOk l = true ∧
  v.extractLsb' 1 5 ≠ 0 ∧ v.getLsbD 0 = false ∧ (v.extractLsb' 1 5).toNat ≤ headCount l

/-- s without the misses of context c's instruction, which has been abandoned, and of its frame. -/
def Sys2Proof.Claims.unasked (s : State) (c : CtxId) : State :=
  s.modVt c.vt (fun v => { v with misses := v.misses.filter (fun m =>
    !(decide (m.ctx = c) && (decide (m.by_ = .instr) || decide (m.by_ = .spill)))) })

/-- The record of a context that has entered its handler (R84). -/
def Sys2Proof.Claims.inHandler (x : Ctx) (code tval epc : Word) (line : Nat × Vec) : Ctx :=
  { x with
    st := .ready, wait := none, lim := none, prog := {}, cstat := x.cstat ||| 0x100
    cepc := epc, ctval := tval, ccause := code, pc := x.ctvec, line := some line, live := none, resume := none }

/-- Word i of a frame as it is stored at cfsave (R398). -/
def Sys2Proof.Claims.frameWord (f : Frame) (i : Nat) : Word :=
  if i = 0 then BitVec.ofNat 64 (2 ^ 63 + f.k * 2 ^ 48 + f.cnt * 2 ^ 32 + f.upc)
  else if i < 9 then NMap.get 0 f.h (i - 1)
  else if i < 41 then (NMap.get 0 f.q ((i - 9) / 8) >>> (64 * ((i - 9) % 8))).setWidth 64
  else 0

/-- The frame of a sequence that a context runs, or that `tret` has reloaded and no instruction has taken up yet (the model's
reading, log entry 26). -/
def Sys2Proof.Claims.hasFrame (x : Ctx) (f : Frame) : Prop :=
  (∃ v, x.live = some v ∧ v.f = f) ∨ (x.live = none ∧ x.resume = some f)

/-- cfsave as an absolute address (R229). -/
def Sys2Proof.Claims.cfsaveAt (x : Ctx) (c : CtxId) : Nat :=
  let w := (x.cfsave.extractLsb' 0 48).toNat
  if 0x00F00000 ≤ w ∧ w ≤ 0x00FFFFFF then c.core / 4 * 0x00100000 + (w - 0x00F00000) else w

/-- R78, R79, R82 to R84, R398, R413: a cause of handler class, taken by a context that is in no handler and whose ctvec can be
entered, saves the PC it is given, the value and the code, sets TH and enters the handler; a running sequence is kept in the
shadow frame, and CM says so; with the shadow full its frame is stored at cfsave, where that lies in the home quad, and CF says
so; in another quad it waits while Q has no room for the stores. A member of a swarm leaves it first. A frame that `tret` has
reloaded and no instruction has taken up counts as a running sequence's: the model's reading, log entry 26. -/
def Sys2Proof.Claims.HandlerEntry : Prop :=
  (∀ (s : State) (c : CtxId) (r : Raise) (epc : Word) (m : Member), (s.ctx c).member = some m →
    s.take c r epc = (s.leaveSwarm c).take c r epc ∧ ((s.leaveSwarm c).ctx c).member = none) ∧
  ∀ (s : State) (c : CtxId) (r : Raise) (epc : Word),
    let x := s.ctx c
    let a := x.ctvec.toNat / 64 * 64
    let l := BitVec.ofNat 512 (s.sramBytes c.vt a 64)
    x.member = none → r.cause.toHandler = true → x.cstat.getLsbD 8 = false → x.ctvec ≠ 0 → handlerFits s c →
    (x.live = none → x.resume = none → s.take c r epc =
      (unasked s c).putCtx c (inHandler x (BitVec.ofNat 64 r.cause.code) r.tval epc (a, l))) ∧
    (∀ f, x.shadow = none → hasFrame x f →
      ∃ t, s.take c r epc = t ∧ (∀ d, d ≠ c → t.ctx d = s.ctx d) ∧ { t with ctxs := (unasked s c).ctxs } = unasked s c ∧
        t.ctx c = { inHandler x (BitVec.ofNat 64 (r.cause.code + 256)) r.tval epc (a, l) with shadow := some f }) ∧
    (∀ f, x.shadow ≠ none → x.cstat.getLsbD 9 = false → hasFrame x f → x.cfsave.extractLsb' 48 7 = 0 →
      let b := cfsaveAt x c
      b % 64 = 0 → b ≤ 0x00BFFFFF → b / 0x100000 = (b + 383) / 0x100000 →
      (b / 0x100000 = c.core / 4 →
        ∃ t, s.take c r epc = t ∧
          (∀ d, d ≠ c → ∃ m, t.ctx d = { s.ctx d with mon := { (s.ctx d).mon with fired := m } }) ∧
          (∃ m, t.ctx c = { inHandler x (BitVec.ofNat 64 (r.cause.code + 256 + 512)) r.tval epc (a, l) with
            cstat := x.cstat ||| 0x300, mon := { x.mon with fired := m } }) ∧
          (∀ i, i < 48 → rdBytes t.mem (sramKey c.vt (b + 8 * i)) 8 = (frameWord f i).toNat) ∧
          (∀ k, ¬ (sramKey c.vt b ≤ k ∧ k < sramKey c.vt b + 384) → NMap.get 0 t.mem k = NMap.get 0 s.mem k) ∧
          { t with ctxs := s.ctxs, mem := s.mem, pois := s.pois } = unasked s c) ∧
      (b / 0x100000 ≠ c.core / 4 → s.present c.vt = true → 1023 < x.q + 48 → s.take c r epc = s.putCtx c { x with
        st := .ready, wait := none, lim := none, prog := {}, pend := (r.cause, r.tval) :: x.pend }))

/-- R78: the code of each cause, and whether it goes to the handler or to the curator. -/
def Sys2Proof.Claims.CauseCodes : Prop :=
  [(Cause.opcodeUndefined, 0x01, true), (.operandReserved, 0x02, true), (.targetEmpty, 0x03, true), (.extensionAbsent, 0x04, false),
   (.misaligned, 0x05, true), (.addressForm, 0x06, true), (.pageAbsent, 0x07, false), (.permission, 0x08, false),
   (.poisonConsumed, 0x09, true), (.memoryUncorrectable, 0x0A, true), (.matrixCombination, 0x0B, true),
   (.engineAbsent, 0x0C, false), (.semaphoreOverflow, 0x0D, true), (.channelMisuse, 0x0E, true), (.channelDenied, 0x0F, false),
   (.combBind, 0x10, true), (.combLimit, 0x11, true), (.privilege, 0x12, true), (.watchdog, 0x13, true),
   (.barrierScope, 0x14, true), (.quota, 0x15, false), (.trap, 0x16, true), (.breakpoint, 0x17, true),
   (.tileAbsent, 0x20, false), (.deadlock, 0x21, false), (.thermalMigrated, 0x22, false), (.tileRetired, 0x23, false),
   (.saveTimeout, 0x24, false)].all (fun (c, n, h) => decide (c.code = n) && decide (c.toHandler = h)) = true

/-- R78 to R84: the codes of the causes, and the entry of a handler. -/
def Obligations.Exceptions : Prop := HandlerEntry ∧ CauseCodes

/-- R86 to R89, R93: a cause of curator class, and one of handler class that finds TH set, ctvec zero, no line to enter, or a
running sequence whose frame it can keep neither in the shadow nor at cfsave (reason 4), parks the context with its registers as
they are and offers a message to the partition's fault queue; in the curator colony the message goes to the wafer manager with
the next HSEQ. CM is set also for a frame that `tret` has reloaded and no instruction has taken up: the model's reading, log
entry 26. A member of a swarm leaves it first (HandlerEntry says so of every cause). -/
def Sys2Proof.Claims.DeliveryToTheCurator : Prop :=
  ∀ (s : State) (c : CtxId) (r : Raise) (epc : Word),
    let x := s.ctx c
    let s1 := unasked s c
    let m (df : Bool) (w4 w5 : Word) : Msg := { part := c.vt.part, col := c.vt.col, gang := (s.vtile c.vt).gang
                                                ctx := some c, tile := (s.vtile c.vt).ptile, cause := r.cause.code
                                                cm := x.live.isSome || x.resume.isSome, df := df, pc := epc, val := r.tval
                                                w4 := w4, w5 := w5, time := s.time }
    let still : Ctx := { x with st := .parked, wait := none, lim := none, prog := {}, parked := {} }
    let parks (m : Msg) : Prop :=
      ((s.part c.vt.part).curcol ≠ c.vt.col → s.take c r epc =
        (s1.putCtx c still).modPart c.vt.part (fun p => { p with offered := p.offered ++ [m] })) ∧
      ((s.part c.vt.part).curcol = c.vt.col →
        let h := if (s.part c.vt.part).lastHseq + 1 < 2 ^ 32 then (s.part c.vt.part).lastHseq + 1 else 1
        ∃ t, s.take c r epc = t ∧ (∀ d, d ≠ c → t.ctx d = s.ctx d) ∧ t.ctx c = { still with parked := { hseq := some h } } ∧
          (t.part c.vt.part) = { s.part c.vt.part with
            lastHseq := h, hostMsgs := (s.part c.vt.part).hostMsgs ++ [{ m with seq := h }] } ∧
          { t with ctxs := s.ctxs, parts := s.parts } = { s1 with ctxs := s.ctxs })
    x.member = none →
    (r.cause.toHandler = false → parks (m false r.w4 r.w5)) ∧
    (r.cause.toHandler = true →
      (x.cstat.getLsbD 8 = true → parks (m true 1 0)) ∧
      (x.cstat.getLsbD 8 = false → x.ctvec = 0 → parks (m true 2 0)) ∧
      (x.cstat.getLsbD 8 = false → x.ctvec ≠ 0 → ¬ handlerFits s c → parks (m true 3 0)) ∧
      (∀ f, x.cstat.getLsbD 8 = false → x.ctvec ≠ 0 → handlerFits s c → hasFrame x f → x.shadow ≠ none →
        (let b := cfsaveAt x c
         x.cstat.getLsbD 9 = true ∨ (0x00C00000 ≤ b ∧ b + 383 < 0x100000000) ∨ 0x800000000000 ≤ b ∨
           (b / 0x100000 = c.core / 4 ∧ b % 64 ≠ 0)) → parks (m true 4 0)))

/-- R216, R218: `trap` and `brk` take their cause with the next PC; `tret` clears TH and goes on at cepc, once that is a
target, with the frame that CM and CF say is to be reloaded. -/
def Sys2Proof.Claims.TrapsAndReturn : Prop :=
  ∀ s : State,
    let x := s.ctx s.cur
    let refused : Prop := exec .tret s = .next (s.stopped s.cur (.cause .operandReserved (s.headAt s.cur)))
    let back (f : Option Frame) (y : Ctx) : Ctx := { y with cstat := y.cstat &&& ~~~0x100, resume := f }
    (∀ n, exec (.trap n) s = .next (s.take s.cur ⟨.trap, n.setWidth 64, 0, 0⟩ (s.nextPc s.cur))) ∧
    (∀ n, exec (.brk n) s = .next (s.take s.cur ⟨.breakpoint, n.setWidth 64, 0, 0⟩ (s.nextPc s.cur))) ∧
    (∀ e, s.checkTarget s.cur x.cepc = .error e → exec .tret s = .next (s.stopped s.cur e)) ∧
    (∀ l, s.checkTarget s.cur x.cepc = .ok l →
      (x.ccause.getLsbD 8 = false → jumps s (exec .tret s) (back none) x.cepc l) ∧
      (x.ccause.getLsbD 8 = true → x.ccause.getLsbD 9 = false →
        (x.shadow = none → refused) ∧
        (∀ f, x.shadow = some f → jumps s (exec .tret s) (fun y => { back (some f) y with shadow := none }) x.cepc l)) ∧
      (x.ccause.getLsbD 8 = true → x.ccause.getLsbD 9 = true →
        (∀ e, s.frameWords s.cur 48 0 = .error e → exec .tret s = .next (s.stopped s.cur e)) ∧
        (∀ ws, s.frameWords s.cur 48 0 = .ok ws →
          (frameOf ws = none → refused) ∧
          (∀ f, frameOf ws = some f →
            jumps s (exec .tret s) (fun y => { back (some f) y with cstat := y.cstat &&& ~~~0x300 }) x.cepc l))))

/-- R79, R86, R87, R213 to R216: causes that go to the curator, traps, and the return from a handler. -/
def Obligations.CuratorAndTraps : Prop := DeliveryToTheCurator ∧ TrapsAndReturn

/-- The value of a control register (R209 to R215); zero at every other index. -/
def Sys2Proof.Claims.register (s : State) (i : Nat) : Word :=
  let c := s.cur
  let x := s.ctx c
  let v := s.vtile c.vt
  match i with
  | 0x000 => x.cstat
  | 0x001 => x.ccause
  | 0x002 => x.cepc
  | 0x003 => x.ctval
  | 0x004 => x.ctvec
  | 0x005 => x.cfsave
  | 0x010 => x.csrng
  | 0x011 => x.cgeo
  | 0x012 => x.calt
  | 0x020 => x.cprobe
  | 0x021 => x.cwdog
  | 0x030 => BitVec.ofNat 64 s.time
  | 0x040 => s.cfeat c
  | 0x041 => BitVec.ofNat 64 (c.vt.part * 2 ^ 40 + c.vt.col * 2 ^ 32 + c.vt.y * 2 ^ 16 + c.vt.x)
  | 0x042 => BitVec.ofNat 64 (v.ptile * 2 ^ 32 + v.lpct.getD c.core c.core * 2 ^ 16 + c.slot * 2 ^ 8 + c.core)
  | 0x043 => BitVec.ofNat 64 ((s.part c.vt.part).keyepoch.toNat * 2 ^ 32 + v.gang)
  | _ => match x.shadow with
    | none => 0
    | some f =>
      if i = 0x070 then BitVec.ofNat 64 (2 ^ 63 + f.k * 2 ^ 48 + f.cnt * 2 ^ 32 + f.upc)
      else if 0x078 ≤ i ∧ i < 0x080 then NMap.get 0 f.h (i - 0x078)
      else if 0x080 ≤ i ∧ i < 0x0A0 then (NMap.get 0 f.q ((i - 0x080) / 8) >>> (64 * ((i - 0x080) % 8))).setWidth 64
      else 0

/-- R8, R209, R212, R213, R219: `crd` reads the register its index names; ccore and cpart only at privilege C. -/
def Sys2Proof.Claims.ControlRegisterReads : Prop :=
  (∀ (s : State) (o : Crd), (Instr.crd o).wf = true →
    let locked : Bool := (o.idx == 0x042 || o.idx == 0x043) && !(s.ctx s.cur).cstat.getLsbD 10
    (locked = true → exec (.crd o) s = .next (s.stopped s.cur (.cause .privilege (s.headAt s.cur)))) ∧
    (locked = false → completes s (exec (.crd o) s) (fun x => x.wg o.d.toNat (register s o.idx.toNat)))) ∧
  (∀ (s : State) (d : GReg), completes s (exec (.rdtime d) s) (fun x => x.wg d.toNat (BitVec.ofNat 64 s.time)))

/-- What a write to a control register makes of a context's record (R210, R211, R214): the writable bits of the register
take the new value. -/
def Sys2Proof.Claims.written (i : Nat) (w : Word) (x : Ctx) : Ctx :=
  match i with
  | 0x000 => { x with cstat := (x.cstat &&& ~~~0x31F) ||| (w &&& 0x31F) }
  | 0x001 => { x with ccause := (x.ccause &&& ~~~0x3FF) ||| (w &&& 0x3FF) }
  | 0x002 => { x with cepc := w }
  | 0x003 => { x with ctval := w }
  | 0x004 => { x with ctvec := w }
  | 0x005 => { x with cfsave := w }
  | 0x010 => { x with csrng := w }
  | 0x011 => { x with cgeo := w }
  | 0x012 => { x with calt := (x.calt &&& ~~~0xF) ||| (w &&& 0xF) }
  | 0x020 => { x with cprobe := (x.cprobe &&& ~~~0xFFFFFFFF) |||
      (if 0 < w.setWidth 32 ∧ w.setWidth 32 < 1024 then 1024 else w &&& 0xFFFFFFFF) }
  | 0x021 => { x with cwdog := w }
  | _ => match x.shadow with
    | none => x
    | some f =>
      if 0x078 ≤ i ∧ i < 0x080 then { x with shadow := some { f with h := NMap.set 0 f.h (i - 0x078) w } }
      else if 0x080 ≤ i ∧ i < 0x0A0 then { x with shadow := some { f with
        q := NMap.set 0 f.q ((i - 0x080) / 8) (vecPut (NMap.get 0 f.q ((i - 0x080) / 8)) (8 * ((i - 0x080) % 8)) 8 w.toNat) } }
      else x

/-- R186, R209 to R215, R220: `cwr` writes the writable bits of the register its index names; a value that the register does
not take is operand-reserved. The registers that no instruction writes are no operand of it: decoding refuses them. -/
def Sys2Proof.Claims.ControlRegisterWrites : Prop :=
  (∀ o : Cwr, o.idx = 0x030 ∨ o.idx = 0x040 ∨ o.idx = 0x041 ∨ o.idx = 0x042 ∨ o.idx = 0x043 ∨ o.idx = 0x070 →
    (Instr.cwr o).wf = false) ∧
  (∀ (s : State) (o : Cwr), (Instr.cwr o).wf = true →
    let x := s.ctx s.cur
    let w := x.rg o.a.toNat
    let i := o.idx.toNat
    let wrong : Prop := (i = 0x011 ∧ ¬ ((w.extractLsb' 10 6).toNat ≤ 47 ∧ (w.extractLsb' 4 6).toNat ≤ 48 ∧
      w.extractLsb' 0 4 = 0)) ∨ (i = 0x012 ∧ 8 < (w.extractLsb' 0 4).toNat)
    (wrong → exec (.cwr o) s = .next (s.stopped s.cur (.cause .operandReserved (s.headAt s.cur)))) ∧
    (¬ wrong → completes s (exec (.cwr o) s) (written i w)))

/-- R8, R208 to R212, R219, R220, R423: the control registers, read and written. -/
def Obligations.ControlRegisters : Prop := ControlRegisterReads ∧ ControlRegisterWrites

/-- R222, R346, R347, R421, R422: `wdog`, `idle`, `yield` and `whoami`. -/
def Sys2Proof.Claims.WaitingInstructions : Prop :=
  ∀ s : State,
    let c := s.cur
    let x := s.ctx c
    (∀ n : BitVec 16, completes s (exec (.wdog n) s) (fun y =>
      let r := if n = 0 then y.cwdog.extractLsb' 32 32 else n.setWidth 32 * 1024
      { y with cwdog := r ++ r })) ∧
    (x.mon.armed = true → x.mon.fired = true → completes s (exec .idle s) id) ∧
    (x.mon.armed = false ∨ x.mon.fired = false → exec .idle s = .next (s.putCtx c (blocked x .mwait .idle (some 65536)))) ∧
    completes s (exec .yield s) (fun y =>
      let ready (d : CtxId) : Bool := decide ((s.ctx d).st = .ready) && decide ((s.ctx d).member.bind (·.next) = none) &&
        !s.heldByWait d && !(s.ctx d).releasing
      let others := (List.range 4).filter (fun j => decide (j ≠ c.slot) && ready ⟨c.vt, c.core, j⟩)
      { y with yielded := if others = [] then none else some (16, others) }) ∧
    (∀ d : GReg, x.member = none → completes s (exec (.whoami d) s) (fun y =>
      y.wg d.toNat (BitVec.ofNat 64 (c.core + c.slot * 64)))) ∧
    (∀ (d : GReg) (m : Member), x.member = some m → completes s (exec (.whoami d) s) (fun y =>
      let n := (c.vt.slots.filter (fun e => decide (((s.ctx e).member.map (·.entry)) = some m.entry))).length
      let lead := decide (s.leader c.vt m.entry = some c)
      y.wg d.toNat (BitVec.ofNat 64 (c.core + c.slot * 64 + 256 + m.det.toNat * 512 + lead.toNat * 1024 + m.entry * 4096 +
        m.idx * 65536 + n * 2 ^ 20))))

/-- R367, R368: `tlbi` needs privilege C; it checks its operands, releases, and blocks until its targets have acknowledged;
TLBI_ACKNOWLEDGEMENT completes it with its result. -/
def Sys2Proof.Claims.TranslationInvalidate : Prop :=
  (∀ (s : State) (o : Tlbi), (Instr.tlbi o).wf = true →
    let c := s.cur
    let x := s.ctx c
    let b := x.rg o.b.toNat
    let a := x.rg o.a.toNat
    let col := s.colony c.vt.part (b.extractLsb' 32 6).toNat
    let refused (w : Word) : Prop := exec (.tlbi o) s = .next (s.stopped c (.cause .operandReserved w))
    let formBad : Prop := o.mode = 3 ∨ (o.ca = true ∧ o.mode ≠ 2) ∨ (o.mode = 1 ∧ o.a ≠ 0)
    let target : Prop := col.live = true ∧ (b.extractLsb' 0 9).toNat < col.gridX ∧ (b.extractLsb' 16 9).toNat < col.gridY
    let vs := s.tlbiTargets c.vt.part o.mode b
    (x.cstat.getLsbD 10 = false → exec (.tlbi o) s = .next (s.stopped c (.cause .privilege (s.headAt c)))) ∧
    (x.cstat.getLsbD 10 = true → formBad → refused (s.headAt c)) ∧
    (x.cstat.getLsbD 10 = true → ¬ formBad → ¬ target → refused b) ∧
    (x.cstat.getLsbD 10 = true → ¬ formBad → target → o.mode ≠ 1 →
      (a.extractLsb' 48 7 ≠ 0 ∨ (a.extractLsb' 0 48).toNat < 0x100000000) →
      exec (.tlbi o) s = .next (s.stopped c (.cause .addressForm a))) ∧
    (x.cstat.getLsbD 10 = true → ¬ formBad → target → o.mode ≠ 2 →
      (o.mode ≠ 1 → a.extractLsb' 48 7 = 0 ∧ 0x100000000 ≤ (a.extractLsb' 0 48).toNat) →
      quiet s → s.tlbiRoom vs = true → ∃ s0, sameButCores s s0 ∧
        exec (.tlbi o) s = .next ((vs.foldl (fun s v => s.tlbiAt v o.mode (adr a)) s0).block c .queueFull
          (.tlbi o.d.toNat 0 vs)))) ∧
  (∀ (s : State) (c : CtxId) (d : Nat) (r : Word) (vs : List VtId), (s.ctx c).wait = some (.tlbi d r vs) →
    (vs.all s.tlbiAcked = true → exec (.tlbiAcknowledgement c) s = .next ((s.modCtx c (fun x => x.wg d r)).complete c)) ∧
    (vs.all s.tlbiAcked = false → exec (.tlbiAcknowledgement c) s = .next s))

/-- R361, R368, R369, R279: `tlbi.hv` walks the tables of its target from the root. Where it finds no leaf it answers 0, or 8 for
a table that is not well formed, and nothing changes; where it finds one it waits for its bank, then clears D, and A with .ca, by
an atomic that counts as a write whatever the bits were, invalidates at its target and answers what they were. -/
def Sys2Proof.Claims.TranslationHarvest : Prop :=
  ∀ (s : State) (o : Tlbi), (Instr.tlbi o).wf = true → o.mode = 2 →
    let c := s.cur
    let x := s.ctx c
    let b := x.rg o.b.toNat
    let a := (x.rg o.a.toNat).extractLsb' 0 48
    let v : VtId := ⟨c.vt.part, (b.extractLsb' 32 6).toNat, (b.extractLsb' 0 9).toNat, (b.extractLsb' 16 9).toNat⟩
    let col := s.colony v.part v.col
    let root := (s.vtile v).root
    x.cstat.getLsbD 10 = true → col.live = true → v.x < col.gridX → v.y < col.gridY →
    (x.rg o.a.toNat).extractLsb' 48 7 = 0 → 0x100000000 ≤ a.toNat → quiet s → s.tlbiRoom [v] = true →
    ∃ s0, sameButCores s s0 ∧
      let w := if root = 0 then Walked.fault .pageAbsent 0 else s0.walkFrom v.part a.toNat 6 (root * 512) 0
      let answers (t : State) (r : Word) (vs : List VtId) : Prop :=
        exec (.tlbi o) s = .next (t.block c .queueFull (.tlbi o.d.toNat r vs))
      (∀ e, w = .fault .pageAbsent e → answers s0 0 []) ∧
      (∀ k e, k ≠ .pageAbsent → w = .fault k e → answers s0 8 []) ∧
      (∀ e n first, w = .leaf e n first → s0.homeOpen first c.vt.part (.ctx c) = false →
        exec (.tlbi o) s = .next (s0.await c (.need (.home (first / 64))))) ∧
      (∀ e n first, w = .leaf e n first → s0.homeOpen first c.vt.part (.ctx c) = true →
        let old : Word := BitVec.ofNat 64 (s0.homeBytes first 8)
        let new := old &&& ~~~(if o.ca then 0x600 else 0x400)
        ∃ s1, storedHome (s0.touchHome c (.home first a.toNat false) 8) s1 first 8 new.toNat ∧
          answers (s1.tlbiAt v 2 a.toNat) (4 + (if old.getLsbD 9 then 2 else 0) + (if old.getLsbD 10 then 1 else 0)) [v])

/-- R260, R363, R368: what `tlbi` does at one of its targets. At a vtile that stands on a tile, the translations of the page, or
in mode 1 all, leave the caches of its cores and of its tile; the pointer cache is emptied; each of its cores writes its dirty
words through and empties its data cache but for gallery lines, in mode 1 of those too; what fills had brought before is read anew; a
sleeping quad wakes. At another nothing happens. -/
def Sys2Proof.Claims.TranslationTargets : Prop :=
  ∀ (s : State) (v : VtId) (mode : BitVec 2) (va : Nat),
    let t := s.tlbiAt v mode va
    let keep (e : TEntry) : Bool :=
      decide (mode ≠ 1) && !(decide (e.vpn ≤ va / 4096) && decide (va / 4096 < e.vpn + 2 ^ szLog e.sz))
    (s.present v = false → t = s) ∧
    (s.present v = true →
      t.vtile v = { s.vtile v with tlb := (s.vtile v).tlb.filter keep, ptrs := [] } ∧
      (∀ u, u ≠ v → t.vtile u = s.vtile u) ∧
      (∀ k, k.vt ≠ v → t.core k = s.core k) ∧
      (∀ k, k.vt = v → AMap.has s.cores k = true → ∃ k', begun (s.core k) k' ∧ t.core k = { k' with
        tlb := (s.core k).tlb.filter keep, stale := s.fillsAt k ++ (s.core k).stale
        cache := if mode = 1 then [] else k'.cache.filter (·.gal) }) ∧
      (∀ q, q < 12 → (t.quad ⟨(s.vtile v).ptile, q⟩).power =
        if (s.quad ⟨(s.vtile v).ptile, q⟩).power = .asleep then .waking else (s.quad ⟨(s.vtile v).ptile, q⟩).power) ∧
      { t with cores := s.cores, vtiles := s.vtiles, tiles := s.tiles } = s)

/-- R221, R222, R347, R366 to R370, R419 to R422: waits, identities and invalidations of translations. -/
def Obligations.WaitsAndInvalidations : Prop := WaitingInstructions ∧ TranslationInvalidate ∧ TranslationHarvest ∧ TranslationTargets

/-! ### Swarms, barriers, the end of a process, comb sequences (R335 to R347, R388 to R399, R414 to R417) -/

/-- Only the record of the acting context changes, to y. -/
def Sys2Proof.Claims.becomes (s : State) (r : Step) (y : Ctx) : Prop :=
  ∃ t, r = .next t ∧ onlyActing s t ∧ t.ctx s.cur = y

/-- R414 to R417: `bar` and `bara` arrive at the generation of their scope, `bar` and `barw` wait for its end; a scope that
is none is barrier-scope. A context that has arrived and arrives again waits; the last to arrive ends the generation. -/
def Obligations.Barriers : Prop :=
  ∀ (s : State) (d : GReg) (a : GReg) (sc : BScope),
    let c := s.cur
    let x := s.ctx c
    let co := (s.colony c.vt.part c.vt.col).cores || decide ((s.part c.vt.part).curcol = c.vt.col)
    let scope : Prop := sc = .quad ∨ sc = .tile ∨ (sc = .colony ∧ co = true)
    let refused (i : Instr) : Prop := exec i s = .next (s.stopped c (.cause .barrierScope (s.headAt c)))
    let g := match sc with
      | .quad => NMap.get 0 (s.vtile c.vt).qg (c.core / 4)
      | .tile => (s.vtile c.vt).tg
      | .colony => (s.colony c.vt.part c.vt.col).cg
      | .core => 0
    let has (y : Ctx) : Bool := match sc with
      | .quad => y.arrQuad
      | .tile => y.arrTile
      | .colony => y.arrColony
      | .core => false
    let arrived (y : Ctx) : Ctx := (match sc with
      | .quad => { y with arrQuad := true }
      | .tile => { y with arrTile := true }
      | .colony => { y with arrColony := true }
      | .core => y).wg d.toNat (BitVec.ofNat 64 g)
    let others : Prop := sc = .colony ∨ ∃ e, e ≠ c ∧ e ∈ s.participants c.vt c.quad sc ∧ has (s.ctx e) = false
    let gone : Prop := 1 ≤ (BitVec.ofNat 32 g - (x.rg a.toNat).setWidth 32).toNat ∧
      (BitVec.ofNat 32 g - (x.rg a.toNat).setWidth 32).toNat ≤ 2 ^ 31
    (¬ scope → refused (.bar ⟨d, sc⟩) ∧ refused (.bara ⟨d, sc⟩) ∧ refused (.barw ⟨a, sc⟩)) ∧
    (scope → has x = true →
      becomes s (exec (.bar ⟨d, sc⟩) s) (blocked x .barrier (.arrive sc d.toNat true) none) ∧
      becomes s (exec (.bara ⟨d, sc⟩) s) (blocked x .barrier (.arrive sc d.toNat false) none)) ∧
    (scope → has x = false → others →
      becomes s (exec (.bar ⟨d, sc⟩) s) (blocked (arrived x) .barrier (.gen sc g) none) ∧
      completes s (exec (.bara ⟨d, sc⟩) s) arrived) ∧
    (scope → sc ≠ .colony → has x = false → (∀ e, e ∈ s.participants c.vt c.quad sc ↔ e = c) → x.st ≠ .empty → x.wait = none →
      g < 2 ^ 32 → ∃ t, exec (.bara ⟨d, sc⟩) s = .next t ∧ has (t.ctx c) = false ∧ t.gen c.vt c.quad sc = (g + 1) % 2 ^ 32 ∧
        (t.ctx c).rg d.toNat = (if d = 0 then 0 else BitVec.ofNat 64 g)) ∧
    (scope → gone → completes s (exec (.barw ⟨a, sc⟩) s) id) ∧
    (scope → ¬ gone → g < 2 ^ 32 →
      becomes s (exec (.barw ⟨a, sc⟩) s) (blocked x .barrier (.gen sc ((x.rg a.toNat).setWidth 32).toNat) none))

/-- t is s with context c gone from swarm e, and what R342 does then: of fewer than two that remain the swarm dissolves, and each
is an ordinary process, its `rejoin` complete; of more, nothing changes where the leader is among them, and else the first
joined one of them leads, or where none is joined the first of all, which becomes the joined group. -/
def Sys2Proof.Claims.swarmLeft (s t : State) (c : CtxId) (e : Nat) : Prop :=
  let rest := (s.swarm c.vt e).filter (fun d => decide (d ≠ c))
  let led (s : State) : Nat := NMap.get 0 (s.vtile c.vt).swarms e
  let joined := rest.filter (fun d => ((s.ctx d).member.map (·.det)) = some false)
  let picked (p : CtxId) : Prop := joined.head? = some p ∨ (joined = [] ∧ rest.head? = some p)
  (∀ k, k ≠ e → NMap.get 0 (t.vtile c.vt).swarms k = NMap.get 0 (s.vtile c.vt).swarms k) ∧
  (∀ d, d ≠ c → d ∉ rest → t.ctx d = s.ctx d) ∧
  (rest.length < 2 → led t = 0 ∧ ∀ d ∈ rest, (t.ctx d).member = none ∧ (t.ctx d).g = (s.ctx d).g ∧
    ((s.ctx d).member.bind (·.next) = none → (t.ctx d).pc = if (s.ctx d).wait = some .rejoin then s.nextPc d else (s.ctx d).pc) ∧
    ((s.ctx d).wait = some .rejoin → (t.ctx d).st = .ready ∧ (t.ctx d).wait = none)) ∧
  (2 ≤ rest.length →
    ((∃ d ∈ rest, (s.ctx d).member.map (fun m => m.idx + 1) = some (led s)) → led t = led s ∧ ∀ d ∈ rest, t.ctx d = s.ctx d) ∧
    ((∀ d ∈ rest, (s.ctx d).member.map (fun m => m.idx + 1) ≠ some (led s)) → ∀ p m, picked p → (s.ctx p).member = some m →
      led t = m.idx + 1 ∧ t.ctx p = { s.ctx p with member := some { m with det := false } } ∧
      ∀ d ∈ rest, d ≠ p → t.ctx d = s.ctx d))

/-- R339 to R344: `swl` and `swj` check their operands, give status 1 where no table entry is free, form a swarm of two when
its members are there, and wait otherwise; `split` and `rejoin` act as `nop` outside a swarm; `split` of a joined member ends
the swarm at once for all (the model's reading, log entry 38), that of a detached one lets it go alone; a member that leaves
passes the lead on; `rejoin` of one whose fellows have not come waits, and with the last of them the members at the group's PC
go on as one while the others leave. -/
def Sys2Proof.Claims.Swarms : Prop :=
  ∀ s : State,
    let c := s.cur
    let x := s.ctx c
    let reserved (i : Instr) : Prop := exec i s = .next (s.stopped c (.cause .operandReserved (s.headAt c)))
    let free (e : Nat) : Prop := e < 12 ∧ NMap.get 0 (s.vtile c.vt).swarms e = 0 ∧
      ∀ k, k < e → NMap.get 0 (s.vtile c.vt).swarms k ≠ 0
    (∀ o : GG,
      let a := x.rg o.a.toNat
      let n := (a.extractLsb' 0 5).toNat
      let lim := (a.extractLsb' 32 32).toNat
      let bad : Prop := x.member.isSome = true ∨ a.extractLsb' 5 27 ≠ 0 ∨ n < 2 ∨ 16 < n ∨ 48 < c.core + n
      (bad → reserved (.swl o)) ∧
      (¬ bad → (∀ e, e < 12 → NMap.get 0 (s.vtile c.vt).swarms e ≠ 0) →
        completes s (exec (.swl o) s) (fun y => y.wg o.d.toNat 1)) ∧
      (¬ bad → (∃ e, free e) → (∀ e, (s.ctx e).wait = none) →
        becomes s (exec (.swl o) s) (blocked x .barrier (.swl o.d.toNat n) (if lim = 0 then none else some lim))) ∧
      (∀ (e : Nat) (m : CtxId) (dm : Nat), ¬ bad → free e → n = 2 → m ∈ c.vt.slots → c ∈ c.vt.slots → m.core = c.core + 1 →
        (s.ctx m).wait = some (.swj dm c.core) → (∀ k, k ≠ m → (s.ctx k).wait = none) →
        let in_ (y : Ctx) (d i : Nat) : Ctx := { y.wg d (BitVec.ofNat 64 (i * 256)) with
          st := .ready, wait := none, lim := none, prog := {}, pc := s.nextPc c, line := x.line, member := some ⟨e, i, false, none⟩ }
        ∃ t, exec (.swl o) s = .next t ∧ t.ctx m = in_ (s.ctx m) dm 1 ∧
          (∃ y, t.ctx c = in_ y o.d.toNat 0 ∧ y.g = x.g ∧ y.p = x.p ∧ y.v = x.v ∧ y.cstat = x.cstat) ∧
          (∀ k, k ≠ c → k ≠ m → t.ctx k = s.ctx k) ∧
          (∀ k, NMap.get 0 (t.vtile c.vt).swarms k = if k = e then 1 else NMap.get 0 (s.vtile c.vt).swarms k))) ∧
    (∀ o : GG,
      let a := x.rg o.a.toNat
      let l := (a.extractLsb' 0 6).toNat
      let lim := (a.extractLsb' 32 32).toNat
      let bad : Prop := x.member.isSome = true ∨ a.extractLsb' 6 26 ≠ 0 ∨ c.core ≤ l ∨ l + 15 < c.core
      (bad → reserved (.swj o)) ∧
      (¬ bad → (∀ e, (s.ctx e).wait = none) →
        becomes s (exec (.swj o) s) (blocked x .barrier (.swj o.d.toNat l) (if lim = 0 then none else some lim)))) ∧
    (x.member = none → completes s (exec .split s) id ∧ completes s (exec .rejoin s) id) ∧
    (∀ m, x.member = some m → m.det = false → m.next = none → x.wait = none → c ∈ c.vt.slots →
      ∃ t, exec .split s = .next t ∧ NMap.get 0 (t.vtile c.vt).swarms m.entry = 0 ∧
        (∀ d ∈ s.swarm c.vt m.entry, (t.ctx d).member = none ∧ (t.ctx d).g = (s.ctx d).g) ∧
        (∀ d, d ≠ c → d ∉ s.swarm c.vt m.entry → t.ctx d = s.ctx d) ∧
        (t.ctx c).pc = s.nextPc c ∧ (t.ctx c).st = .ready) ∧
    (∀ m, x.member = some m → c ∈ c.vt.slots →
      (∃ d ∈ s.swarm c.vt m.entry, d ≠ c ∧ (s.ctx d).wait ≠ some .rejoin) →
      becomes s (exec .rejoin s) (blocked x .barrier .rejoin none)) ∧
    (∀ m, x.member = some m → m.next = none → c ∈ c.vt.slots →
      swarmLeft s (s.leaveSwarm c) c m.entry ∧
      (s.leaveSwarm c).ctx c = { x with member := none } ∧
      (m.det = true → x.wait = none → ∃ t, exec .split s = .next t ∧ swarmLeft s t c m.entry ∧
        t.ctx c = { x with member := none, st := .ready, wait := none, lim := none, prog := {}, pc := s.nextPc c })) ∧
    (∀ m l, x.member = some m → c ∈ c.vt.slots → (∀ d ∈ s.swarm c.vt m.entry, d ≠ c → (s.ctx d).wait = some .rejoin) →
      ((s.swarm c.vt m.entry).filter (fun d => (s.ctx d).joined)).head? = some l →
      let ms := s.swarm c.vt m.entry
      let here := ms.filter (fun d => (s.ctx d).pc = (s.ctx l).pc)
      ∃ t, exec .rejoin s = .next t ∧ (∀ d, d ∉ ms → t.ctx d = s.ctx d) ∧
        (∀ d ∈ ms, (t.ctx d).st = .ready ∧ (t.ctx d).wait = none ∧ (t.ctx d).g = (s.ctx d).g ∧ (t.ctx d).p = (s.ctx d).p ∧
          (d ∈ here → (t.ctx d).pc = s.nextPc l ∧ (t.ctx d).line = (s.ctx l).line) ∧
          (d ∉ here → (t.ctx d).member = none ∧
            ((s.ctx d).member.bind (·.next) = none → (t.ctx d).pc = s.nextPc d))) ∧
        (2 ≤ here.length → ∀ d ∈ here, (t.ctx d).member = (s.ctx d).member.map (fun k => { k with det := false, next := none })) ∧
        (here.length < 2 → NMap.get 0 (t.vtile c.vt).swarms m.entry = 0 ∧ ∀ d ∈ here, (t.ctx d).member = none))

/-- R345: `pend` waits while a command of its process has yet to complete; then it releases and the process ends: its slot is
empty. -/
def Sys2Proof.Claims.ProcessEnd : Prop :=
  ∀ s : State,
    let c := s.cur
    let x := s.ctx c
    (s.commandsLeft c = true → exec .pend s = .next (s.putCtx c (blocked x .queueFull .pend none))) ∧
    (s.commandsLeft c = false → quiet s → x.origin = .launch → x.commit = none → x.member = none → x.wait = none →
      (s.vtile c.vt).ports = [] → s.flying.all (fun k => decide (k.ctx ≠ some c)) = true →
      s.ctxs.all (fun e => decide (e.1.vt ≠ c.vt) || decide (e.1 = c)) = true →
      ∃ t, exec .pend s = .next t ∧ t.ctx c = {} ∧ (∀ d, d ≠ c → t.ctx d = s.ctx d) ∧ t.mem = s.mem ∧ t.net = s.net ∧
        (∀ p, t.part p = s.part p) ∧ (∀ j, t.core j = s.core j))

/-- R337 to R346: swarms, and the end of a process. -/
def Obligations.SwarmsAndEnds : Prop := Swarms ∧ ProcessEnd

/-- A binding uses a word of f to f + n − 1 (R389, R395); where n is 0, none. -/
def Sys2Proof.Claims.uses (x : Ctx) (k f n : Nat) : Bool :=
  let b := NMap.get ({} : Binding) x.binds k
  b.valid && decide (0 < n) && decide (b.start < f + n) && decide (f < b.start + b.len)

/-- R234, R388, R389, R395, R396: `cload` reads words into the context's region and clears the bindings that use them; `cbind`
checks a sequence and makes it an entry of the binding table; `cunbind` clears the entries its mask names. -/
def Sys2Proof.Claims.CombTables : Prop :=
  ∀ s : State,
    let c := s.cur
    let x := s.ctx c
    let k := s.core c.coreId
    let reserved (i : Instr) : Prop := exec i s = .next (s.stopped c (.cause .operandReserved (s.headAt c)))
    let cleared (x : Ctx) (p : Nat → Bool) (m : NMap Binding) : Prop :=
      ∀ j, NMap.get {} m j = if j < 32 ∧ p j = true then { NMap.get {} x.binds j with valid := false } else NMap.get {} x.binds j
    (∀ o : CLoad,
      let b := x.rg o.b.toNat
      let f := (b.extractLsb' 0 9).toNat
      let n := (b.extractLsb' 16 10).toNat
      let bad : Prop := b.extractLsb' 26 38 ≠ 0 ∨ b.extractLsb' 9 7 ≠ 0 ∨ 512 < n ∨ 512 < f + n
      let eas := (List.range n).map (fun (i : Nat) => leaAdd (x.rg o.a.toNat) (4 * i))
      (bad → reserved (.cload o)) ∧
      (∀ e, ¬ bad → s.placeAll c .cload 4 .read eas = .error e → exec (.cload o) s = .next (s.stopped c e)) ∧
      (∀ ls e, ¬ bad → s.placeAll c .cload 4 .read eas = .ok ls → s.loadAll c 4 ls = .error e →
        exec (.cload o) s = .next (s.stopped c e)) ∧
      (∀ ls ws, ¬ bad → s.placeAll c .cload 4 .read eas = .ok ls → s.loadAll c 4 ls = .ok ws →
        ∃ (s' : State) (m : NMap (BitVec 32)) (p : NSet) (bs : NMap Binding) (w : Word),
          coreIs s s' { k with comb := m, combPois := p } ∧
          (∀ j, NMap.get 0 m j = if 512 * c.slot + f ≤ j ∧ j < 512 * c.slot + f + n then
            BitVec.ofNat 32 (ws.getD (j - (512 * c.slot + f)) 0) else NMap.get 0 k.comb j) ∧
          (∀ j, NSet.mem p j = (NSet.mem k.combPois j && !(decide (512 * c.slot + f ≤ 2 * j) &&
            decide (2 * j + 1 < 512 * c.slot + f + n)))) ∧
          cleared x (fun j => uses x j f n) bs ∧ (∀ j, w.getLsbD j = (decide (j < 32) && uses x j f n)) ∧
          completesVia s s' (exec (.cload o) s) (fun y => { y with binds := bs }.wg o.d.toNat w))) ∧
    (∀ o : CBind, (Instr.cbind o).wf = true →
      let start := ((x.rg o.a.toNat).extractLsb' 0 9).toNat
      let len := o.lenM1.toNat + 1
      let word (i : Nat) : BitVec 32 := NMap.get 0 k.comb (512 * c.slot + i)
      let pois (i : Nat) : Bool := NSet.mem k.combPois ((512 * c.slot + i) / 2)
      (512 < start + len → reserved (.cbind o)) ∧
      (start + len ≤ 512 →
        (∀ i, i < len → pois (start + i) = true → (∀ j, j < i → pois (start + j) = false) →
          exec (.cbind o) s = .next (s.stopped c (.cause .poisonConsumed (BitVec.ofNat 64 (start + i))))) ∧
        ((∀ i, i < len → pois (start + i) = false) →
          (∀ i, seqOk len start ((List.range len).map (fun j => word (start + j))) {} = .error i →
            exec (.cbind o) s = .next (s.stopped c (.cause .combBind (BitVec.ofNat 64 i)))) ∧
          (∀ q, seqOk len start ((List.range len).map (fun j => word (start + j))) {} = .ok q →
            completes s (exec (.cbind o) s) (fun y => { y with
              binds := NMap.set {} y.binds o.k.toNat ⟨true, start, len, q.d, q.a, q.b⟩ }))))) ∧
    (∀ a : GReg, ∃ bs, cleared x (fun j => (x.rg a.toNat).getLsbD j) bs ∧
      completes s (exec (.cunbind a) s) (fun y => { y with binds := bs }))

/-- The fields D, A and B of a micro-op and whether D is written (R392): 0 nothing, 1 S, 2 V, 3 P, 4 S or P, 5 a target. -/
def Sys2Proof.Claims.fieldsOf (u : Nat) : Nat × Nat × Nat × Bool :=
  if u ≤ 0x0C then (1, 1, 1, true)
  else if u = 0x0D then (1, 1, 0, true)
  else if u = 0x0E then (4, 4, 0, true)
  else if u = 0x0F then (3, 1, 1, true)
  else if u ≤ 0x12 then (3, 3, 3, true)
  else if u ≤ 0x18 then (1, 1, 1, true)
  else if u = 0x19 then (3, 1, 1, true)
  else if u ≤ 0x24 then (2, 2, 2, true)
  else if u = 0x25 then (2, 1, 0, true)
  else if u = 0x26 then (2, 2, 0, true)
  else if u = 0x27 then (1, 2, 0, true)
  else if u = 0x28 then (1, 1, 1, true)
  else if u = 0x29 then (1, 1, 1, false)
  else if u = 0x2A then (2, 1, 1, true)
  else if u = 0x2B then (2, 1, 1, false)
  else if u = 0x2C then (3, 5, 0, false)
  else if u = 0x2D then (1, 5, 0, true)
  else (3, 0, 0, false)

/-- The MOD column of R392 and its bounds in R396. -/
def Sys2Proof.Claims.modFits (u m : Nat) : Prop :=
  let vt := m / 2
  let r := m % 2
  let int : Prop := vt < 8
  let float : Prop := 8 ≤ vt ∧ vt ≤ 0xA
  if u ≤ 0x0C then m % 8 = 0
  else if u = 0x0D then m % 16 = 0
  else if u = 0x0E then m = 0
  else if u = 0x0F then m / 8 % 2 = 0
  else if u ≤ 0x12 then m = 0
  else if u ≤ 0x16 then m / 8 ≠ 3 ∧ m % 8 ≤ 3
  else if u ≤ 0x18 then m / 8 ≠ 3 ∧ m % 8 = 0
  else if u = 0x19 then m / 8 ≠ 3 ∧ m % 8 ≤ 4
  else if u ≤ 0x1D then (int ∧ r = 0) ∨ float
  else if u ≤ 0x22 then (int ∨ float) ∧ r = 0
  else if u ≤ 0x24 then int ∧ r = 0
  else if u ≤ 0x26 then (int ∨ float) ∧ r = 0
  else if u = 0x27 then (int ∧ r = 0) ∨ float
  else if u = 0x28 then m % 4 = 0 ∧ ¬ (m / 8 = 3 ∧ m / 4 % 2 = 1)
  else if u ≤ 0x2B then m % 8 = 0
  else if u = 0x2C then m % 16 = 0
  else if u = 0x2D then m = 0
  else m % 16 = 0

/-- An operand code may stand in a field (R391, R396). -/
def Sys2Proof.Claims.codeFits (len kind c : Nat) : Prop :=
  let any : Prop := 0x44 ≤ c ∧ c ≤ 0x46
  let sc : Prop := c < 0x20 ∨ (0x38 ≤ c ∧ c < 0x40) ∨ c = 0x47 ∨ 0x60 ≤ c
  let pr : Prop := 0x30 ≤ c ∧ c < 0x38
  if kind = 1 then sc ∨ any
  else if kind = 2 then (0x20 ≤ c ∧ c < 0x30) ∨ (0x40 ≤ c ∧ c < 0x44) ∨ any
  else if kind = 3 then pr ∨ any
  else if kind = 4 then sc ∨ pr ∨ any
  else if kind = 5 then c < len
  else c = 0

/-- The operand codes of a word with the class in which a `$` code stands: 1 g, 2 v, 3 p, 0 none. -/
def Sys2Proof.Claims.codesOf (w : BitVec 32) : List (Nat × Nat) :=
  let f := fieldsOf (w.extractLsb' 26 6).toNat
  let cls (k : Nat) : Nat := if k = 4 then 1 else if k = 5 then 0 else k
  [((w.extractLsb' 14 7).toNat, cls f.1), ((w.extractLsb' 7 7).toNat, cls f.2.1), ((w.extractLsb' 0 7).toNat, cls f.2.2.1)]

/-- The rules of R396 for one word by itself. -/
def Sys2Proof.Claims.wordFits (len : Nat) (w : BitVec 32) : Prop :=
  let u := (w.extractLsb' 26 6).toNat
  let f := fieldsOf u
  let d := (w.extractLsb' 14 7).toNat
  u ≤ 0x2E ∧ modFits u (w.extractLsb' 21 5).toNat ∧ codeFits len f.1 d ∧ codeFits len f.2.1 (w.extractLsb' 7 7).toNat ∧
    codeFits len f.2.2.1 (w.extractLsb' 0 7).toNat ∧ (f.2.2.2 = true → d ≠ 0x47 ∧ d < 0x60)

/-- R391, R392, R396: a sequence is bound where each of its words keeps the rules and each of `$d`, `$a` and `$b` stands in
fields of one class only, with the classes they have; else the first word that breaks a rule is named. -/
def Sys2Proof.Claims.CombRules : Prop :=
  ∀ (len start : Nat) (ws : List (BitVec 32)), len ≤ 64 →
    let met (k c : Nat) : Nat := (((ws.take k).flatMap codesOf).find? (fun q => decide (q.1 = c) && decide (q.2 ≠ 0))).elim 0 (·.2)
    let fits (k : Nat) : Prop := (∀ w ∈ ws.take k, wordFits len w) ∧
      ∀ q ∈ (ws.take k).flatMap codesOf, 0x44 ≤ q.1 → q.1 ≤ 0x46 → q.2 ≠ 0 → q.2 = met k q.1
    (∀ q : Dollars, seqOk len start ws {} = .ok q ↔
      fits ws.length ∧ q.d = met ws.length 0x44 ∧ q.a = met ws.length 0x45 ∧ q.b = met ws.length 0x46) ∧
    (∀ i, i < ws.length → (seqOk len start ws {} = .error (start + i) ↔ fits i ∧ ¬ fits (i + 1)))

/-- A comb instruction (R69, R397): the binding, the operand codes and the immediate. -/
def Sys2Proof.Claims.combOf (i : Instr) : Option (Nat × Nat × Nat × Nat × Word) :=
  match i with
  | .combTail0 o => some (o.k.toNat, o.d.toNat, 0, 0, 0)
  | .combTail1 o => some (o.k.toNat, o.d.toNat, o.a.toNat, o.b.toNat, 0)
  | .combTail2 o => some (o.k.toNat, o.d.toNat, o.a.toNat, o.b.toNat, o.imm.signExtend 64)
  | .combTail3 o => some (o.k.toNat, o.d.toNat, o.a.toNat, o.b.toNat, o.imm.signExtend 64)
  | _ => none

/-- An operand code names what its binding's class asks for: nothing, a g, a v or a p register (R389, R397). -/
def Sys2Proof.Claims.classFits (cls code : Nat) : Bool :=
  (decide (cls = 0) && decide (code = 0)) || (decide (cls = 1) && decide (code < 32)) ||
  (decide (cls = 2) && decide (32 ≤ code ∧ code < 48)) || (decide (3 ≤ cls) && decide (48 ≤ code ∧ code < 56))

/-- R67, R397, R399: a comb instruction starts the sequence of its valid binding with an empty frame, or takes up the frame
that `tret` has reloaded for it; an operand whose class does not fit is operand-reserved. -/
def Sys2Proof.Claims.CombInvocation : Prop :=
  ∀ (s : State) (i : Instr) (n d a b : Nat) (imm : Word), i.wf = true → combOf i = some (n, d, a, b, imm) →
    let c := s.cur
    let x := s.ctx c
    let e := NMap.get ({} : Binding) x.binds n
    let fits := classFits e.cd d && classFits e.ca a && classFits e.cb b
    let fresh : Prop := ∀ f, x.resume = some f → f.k ≠ n
    (e.valid = false → exec i s = .next ((s.modCtx c (fun y => { y with resume := none })).stopped c
      (.cause .opcodeUndefined (s.headAt c)))) ∧
    (e.valid = true → fits = false → exec i s = .next ((s.modCtx c (fun y => { y with resume := none })).stopped c
      (.cause .operandReserved (s.headAt c)))) ∧
    (e.valid = true → fits = true →
      (fresh → becomes s (exec i s) { x with resume := none, live := some ⟨⟨n, 0, 0, [], []⟩, d, a, b, imm⟩ }) ∧
      (∀ f, x.resume = some f → f.k = n → f.upc < e.len →
        becomes s (exec i s) { x with resume := none, live := some ⟨f, d, a, b, imm⟩ }) ∧
      (∀ f, x.resume = some f → f.k = n → e.len ≤ f.upc → completes s (exec i s) (fun y => { y with resume := none })))

/-- A context's record after a micro-operation: one more executed, the next at micro-PC upc; past the last word of the
sequence the comb instruction completes (R397). -/
def Sys2Proof.Claims.microNext (s : State) (r : Step) (len upc : Nat) (y : Ctx) : Prop :=
  (upc < len → becomes s r { y with
    prog := {}, live := y.live.map (fun v => { v with f := { v.f with cnt := v.f.cnt + 1, upc := upc } }) }) ∧
  (len ≤ upc → completes s r (fun _ => { y with live := none }))

/-- R234, R391 to R394, R397: one micro-operation of the running sequence: computations write their destination, the integer
ones as the instructions of the same name do; a micro-branch, a micro-loop and an exit go on where they say; after 1024 the
sequence is comb-limit; a poisoned word is poison-consumed. -/
def Sys2Proof.Claims.CombMicroOperations : Prop :=
  ∀ (s : State) (l : Live), (s.ctx s.cur).live = some l →
    let c := s.cur
    let x := s.ctx c
    let e := NMap.get ({} : Binding) x.binds l.f.k
    let at_ := e.start + l.f.upc
    let w := NMap.get 0 (s.core c.coreId).comb (512 * c.slot + at_)
    let u := (w.extractLsb' 26 6).toNat
    let m := (w.extractLsb' 21 5).toNat
    let d := (w.extractLsb' 14 7).toNat
    let a := (w.extractLsb' 7 7).toNat
    let b := (w.extractLsb' 0 7).toNat
    let next (upc : Nat) (y : Ctx) : Prop := microNext s (exec .combMicroOp s) e.len upc y
    let pois := NSet.mem (s.core c.coreId).combPois ((512 * c.slot + at_) / 2)
    let int (f : (k : Nat) → BitVec k → BitVec k → BitVec k) : Prop :=
      next (l.f.upc + 1) (x.wuS l d (byWidth (decide (m / 16 % 2 = 1)) (decide (m / 8 % 2 = 1)) f (x.uS l a) (x.uS l b)))
    (l.f.cnt = 1024 → exec .combMicroOp s = .next ((s.modCtx c (fun y => { y with live := none, resume := none })).stopped c
      (.cause .combLimit (BitVec.ofNat 64 l.f.k)))) ∧
    (l.f.cnt ≠ 1024 → pois = true →
      exec .combMicroOp s = .next (s.stopped c (.cause .poisonConsumed (BitVec.ofNat 64 at_)))) ∧
    (l.f.cnt ≠ 1024 → pois = false →
      (u ≤ 0x27 → next (l.f.upc + 1) (x.uCompute l w)) ∧
      (u = 0x00 → int (fun _ p q => p + q)) ∧ (u = 0x01 → int (fun _ p q => p - q)) ∧
      (u = 0x02 → int (fun _ p q => p * q)) ∧ (u = 0x04 → int (fun _ p q => p &&& q)) ∧
      (u = 0x05 → int (fun _ p q => p ||| q)) ∧ (u = 0x06 → int (fun _ p q => p ^^^ q)) ∧
      (u = 0x08 → int (fun k p q => p <<< (q.toNat % k))) ∧
      (u = 0x2C → next (if x.uP l d != decide (m / 16 = 1) then a % 64 else l.f.upc + 1) x) ∧
      (u = 0x2D → next (if x.uS l d ≠ 1 then a % 64 else l.f.upc + 1) (x.wuS l d (x.uS l d - 1))) ∧
      (u = 0x2E → next (if x.uP l d != decide (m / 16 = 1) then e.len else l.f.upc + 1) x))

/-- R391: what the operand codes of a micro-op name, and what a write to one changes. -/
def Sys2Proof.Claims.CombOperands : Prop :=
  ∀ (x : Ctx) (l : Live) (k : Nat), k < 128 → l.d < 0x38 → l.a < 0x38 → l.b < 0x38 →
    let c := if k = 0x44 then l.d else if k = 0x45 then l.a else if k = 0x46 then l.b else k
    (c < 0x20 → x.uS l k = x.rg c ∧ ∀ v, x.wuS l k v = x.wg c v) ∧
    (0x38 ≤ c → c < 0x40 → x.uS l k = NMap.get 0 l.f.h (c - 0x38) ∧ ∀ v, ∃ h, (∀ j, NMap.get 0 h j =
        if j = c - 0x38 then v else NMap.get 0 l.f.h j) ∧
      x.wuS l k v = { x with live := some { l with f := { l.f with h := h } } }) ∧
    (c = 0x47 → x.uS l k = l.imm) ∧ (0x60 ≤ c → x.uS l k = BitVec.ofInt 64 ((c : Int) - 0x70)) ∧
    (0x20 ≤ c → c < 0x30 → x.uV l k = x.rv (c - 0x20) ∧ ∀ v, x.wuV l k v = x.wv (c - 0x20) v) ∧
    (0x40 ≤ c → c < 0x44 → x.uV l k = NMap.get 0 l.f.q (c - 0x40) ∧ ∀ v, ∃ q, (∀ j, NMap.get 0 q j =
        if j = c - 0x40 then v else NMap.get 0 l.f.q j) ∧
      x.wuV l k v = { x with live := some { l with f := { l.f with q := q } } }) ∧
    (0x30 ≤ c → c < 0x38 → x.uP l k = x.rp (c - 0x30) ∧ ∀ v, x.wuP l k v = x.wp (c - 0x30) v)

/-- R135, R392, R393: what the computing micro-ops give: the results of the instructions they are named after, with their
modifiers from MOD, every lane enabled, no saturation, the float conditions to `cstat` and the draws from `csrng`. -/
def Sys2Proof.Claims.CombMicroValues : Prop :=
  ∀ (x : Ctx) (l : Live) (w : BitVec 32),
    let u := (w.extractLsb' 26 6).toNat
    let m := (w.extractLsb' 21 5).toNat
    let d := (w.extractLsb' 14 7).toNat
    let a := x.uS l (w.extractLsb' 7 7).toNat
    let b := x.uS l (w.extractLsb' 0 7).toNat
    let pa := x.uP l (w.extractLsb' 7 7).toNat
    let pb := x.uP l (w.extractLsb' 0 7).toNat
    let va := x.uV l (w.extractLsb' 7 7).toNat
    let vb := x.uV l (w.extractLsb' 0 7).toNat
    let got := x.uCompute l w
    let w32 := decide (m / 16 % 2 = 1)
    let n := decide (m / 8 % 2 = 1)
    let int (f : (k : Nat) → BitVec k → BitVec k → BitVec k) : Prop := got = x.wuS l d (byWidth w32 n f a b)
    let isP (c : Nat) : Bool := decide (0x30 ≤ c) && decide (c < 0x38)
    let ft : FFmt := (if m / 8 = 0 then FloatTy.f32 else if m / 8 = 1 then FloatTy.bf16 else FloatTy.h16).fmt
    let rm : RMode := if m % 8 = 0 then .rne else if m % 8 = 1 then .rtz else if m % 8 = 2 then .rdn else .rup
    let float (op : FOp) (c : Word) : Prop :=
      let r := arithmetic op ft rm a b c
      got = { x.wuS l d (BitVec.ofNat 64 r.1) with cstat := x.cstat ||| r.2.bits.setWidth 64 }
    let low (v : Word) : Nat := v.toNat % 2 ^ ft.bits
    (u = 0x03 → int (fun k p q => upperHalf n k p q)) ∧
    (u = 0x07 → int (fun _ p q => p &&& ~~~q)) ∧
    (u = 0x09 → int (fun k p q => p >>> (q.toNat % k))) ∧
    (u = 0x0A → int (fun k p q => p.sshiftRight (q.toNat % k))) ∧
    (u = 0x0B → int (fun _ p q => if atMost n p q then p else q)) ∧
    (u = 0x0C → int (fun _ p q => if atMost n p q then q else p)) ∧
    (u = 0x0D → got = x.wuS l d (BitVec.ofNat 64 ((List.range (if w32 then 32 else 64)).countP a.getLsbD))) ∧
    (u = 0x0E →
      let from_ := isP (l.code (w.extractLsb' 7 7).toNat)
      let to_ := isP (l.code d)
      got = if to_ then x.wuP l d (if from_ then pa else a != 0) else x.wuS l d (if from_ then (if pa then 1 else 0) else a)) ∧
    (u = 0x0F → ∀ cc, ICond.ofCode (m % 8) = some cc → got = x.wuP l d (condition w32 cc a b)) ∧
    (u = 0x10 → got = x.wuP l d (pa && pb)) ∧ (u = 0x11 → got = x.wuP l d (pa || pb)) ∧ (u = 0x12 → got = x.wuP l d (pa ^^ pb)) ∧
    (u = 0x13 → float .add 0) ∧ (u = 0x14 → float .sub 0) ∧ (u = 0x15 → float .mul 0) ∧ (u = 0x16 → float .fma (x.uS l d)) ∧
    (u = 0x17 → got = x.wuS l d (BitVec.ofNat 64 (fminmax false ft (low a) (low b)))) ∧
    (u = 0x18 → got = x.wuS l d (BitVec.ofNat 64 (fminmax true ft (low a) (low b)))) ∧
    (u = 0x19 → ∀ cc, FCond.ofCode (m % 8) = some cc →
      let r := fcompare cc (ft.value (low a)) (ft.value (low b))
      got = { x.wuP l d r.1 with cstat := if r.2 then x.cstat ||| 0x10 else x.cstat }) ∧
    (∀ vt, VTy.ofCode (m / 2) = some vt →
      let mode : RMode := if m % 2 = 1 then .sr else .rne
      let ln (v : Vec) (i : Nat) : Nat := lane v vt.width i
      let v := valOf vt
      let gives (draws : Nat) (f : List Nat → Nat → Nat) : Prop :=
        let rs := drawsFor mode draws x.csrng
        ∃ z : Vec, got = { x.wuV l d z with csrng := rs.2 } ∧ ∀ i, i < vt.lanes → ln z i = f rs.1 i % 2 ^ vt.width
      let arith (op : FOp) (r : Int → Int → Int → Int) : Prop := gives (if vt.isF then vt.lanes else 0) (fun rs i =>
        let p := ln va i
        let q := ln vb i
        let c := ln (x.uV l d) i
        if vt.isF then (farith op vt.fmt p q c mode false (rs.getD i 0)).1 else intLane vt false (r (v p) (v q) (v c)))
      (u = 0x1A → arith .add (fun p q _ => p + q)) ∧ (u = 0x1B → arith .sub (fun p q _ => p - q)) ∧
      (u = 0x1C → arith .mul (fun p q _ => p * q)) ∧ (u = 0x1D → arith .fma (fun p q c => p * q + c)) ∧
      (u = 0x1E → gives 0 (fun _ i => combined .min vt .rne false 0 (ln va i) (ln vb i))) ∧
      (u = 0x1F → gives 0 (fun _ i => combined .max vt .rne false 0 (ln va i) (ln vb i))) ∧
      (u = 0x20 → gives 0 (fun _ i => ln va i &&& ln vb i)) ∧ (u = 0x21 → gives 0 (fun _ i => ln va i ||| ln vb i)) ∧
      (u = 0x22 → gives 0 (fun _ i => ln va i ^^^ ln vb i)) ∧
      (u = 0x23 → gives 0 (fun _ i => intLane vt false (v (ln va i) * 2 ^ (ln vb i % vt.width)))) ∧
      (u = 0x24 → gives 0 (fun _ i => intLane vt false (v (ln va i) / 2 ^ (ln vb i % vt.width)))) ∧
      (u = 0x25 → gives 0 (fun _ _ => a.toNat)) ∧ (u = 0x26 → gives 0 (fun _ i => ln va i)) ∧
      (u = 0x27 →
        let r := laneReduce .add vt mode false (BitVec.allOnes 64) va x.csrng
        got = { x.wuS l d r.1 with csrng := r.2 }))

/-- R232, R270, R394: the memory micro-ops. Their space is quad memory or the heap; there they are checked, read and store as
`ld`, `st`, `vld` and `vst` do, and the sequence goes on. -/
def Sys2Proof.Claims.CombMicroMemory : Prop :=
  ∀ (s : State) (l : Live), (s.ctx s.cur).live = some l →
    let c := s.cur
    let x := s.ctx c
    let e := NMap.get ({} : Binding) x.binds l.f.k
    let at_ := e.start + l.f.upc
    let w := NMap.get 0 (s.core c.coreId).comb (512 * c.slot + at_)
    let u := (w.extractLsb' 26 6).toNat
    let z := (w.extractLsb' 24 2).toNat
    let n : Nat := 2 ^ z
    let d := (w.extractLsb' 14 7).toNat
    let vec : Bool := decide (u = 0x2A) || decide (u = 0x2B)
    let store : Bool := decide (u = 0x29) || decide (u = 0x2B)
    let acc : Acc := if store then .write else .read
    let ea := leaAdd (x.uS l (w.extractLsb' 7 7).toNat) ((x.uS l (w.extractLsb' 0 7).toNat).toNat * (if vec then 64 else n))
    let a := (ea.extractLsb' 0 48).toNat
    let alias_ : Prop := 0x00F00000 ≤ a ∧ a ≤ 0x00FFFFFF
    let quad : Prop := a ≤ 0x00BFFFFF ∨ alias_
    let heap : Prop := 0x100000000 ≤ a ∧ a ≤ 0x7FFFFFFFFFFF
    let device : Prop := 0x02000000 ≤ a ∧ a ≤ 0x0200FFFF
    let stops (r : Stop) : Prop := exec .combMicroOp s = .next (s.stopped c r)
    let lanesOf : List Word := (List.range (64 / n)).map (fun (i : Nat) => leaAdd ea (i * n))
    let op : ManyOp := ⟨n, 0, .vector, lanesOf, []⟩
    let next (y : Ctx) : Prop := microNext s (exec .combMicroOp s) e.len (l.f.upc + 1) y
    let lands (ls : List Loc) (vals : List Nat) : Prop := ∃ t, exec .combMicroOp s = .next t ∧ storesLand s t n ls vals ∧ ∃ m,
      let y := posting s n ls vals m
      (l.f.upc + 1 < e.len → t.ctx c = { y with
        prog := {}, live := some { l with f := { l.f with cnt := l.f.cnt + 1, upc := l.f.upc + 1 } } }) ∧
      (e.len ≤ l.f.upc + 1 → wentOn x (t.ctx c) (s.nextPc c) ∧ t.ctx c = ({ y with live := none } : Ctx).placedAs (t.ctx c))
    let place (ea : Word) : Except Stop Loc := s.place c (if vec then .vector else .scalar n) ea n acc
    l.f.cnt ≠ 1024 → NSet.mem (s.core c.coreId).combPois ((512 * c.slot + at_) / 2) = false → 0x28 ≤ u → u ≤ 0x2B →
    c.core < 48 →
      (¬ (quad ∨ heap) → stops (if x.priv = false ∧ device then .raise ⟨.permission, ea, BitVec.ofNat 64 acc.code, 0⟩
        else .cause .addressForm ea)) ∧
      (quad ∨ heap →
        (vec = false → ∀ r, place ea = .error r → stops r) ∧
        (u = 0x28 → ∀ p, place ea = .ok p →
          (∀ r, s.load c p n = .error r → stops r) ∧
          (∀ v, s.load c p n = .ok v → next (x.wuS l d
            (if w.getLsbD 23 then BitVec.ofNat 64 v else (BitVec.ofNat (8 * n) v).signExtend 64)))) ∧
        (u = 0x29 → holdsLine s → ∀ p, place ea = .ok p →
          (∀ r, s.storesReady c n [p] = .error r → stops r) ∧
          (s.storesReady c n [p] = .ok () → lands [p] [(x.uS l d).toNat])) ∧
        (u = 0x2A → readsFail s op stops ∧
          ∀ (ls : List Loc) (vs : List Nat), ls.length = lanesOf.length → vs.length = lanesOf.length →
            (∀ j, j < lanesOf.length → some (place (lanesOf.getD j 0)) = ls[j]?.map .ok) →
            (∀ j, j < lanesOf.length → s.load c (ls.getD j (.device 0)) n = .ok (vs.getD j 0)) →
            next (x.wuV l d (lanes (8 * n) (64 / n) (fun i => vs.getD i 0)))) ∧
        (u = 0x2B → holdsLine s →
          (∀ k, k < lanesOf.length → (∀ j, j < k → ∃ p, place (lanesOf.getD j 0) = .ok p) → ∀ r,
            place (lanesOf.getD k 0) = .error r → stops r) ∧
          ∀ ls : List Loc, ls.length = lanesOf.length →
            (∀ j, j < lanesOf.length → some (place (lanesOf.getD j 0)) = ls[j]?.map .ok) →
            (∀ r, s.storesReady c n ls = .error r → stops r) ∧
            (s.storesReady c n ls = .ok () → lands ls ((List.range (64 / n)).map (fun i => lane (x.uV l d) (8 * n) i)))))

/-- R387 to R404: comb tables, invocations and micro-operations. -/
def Obligations.CombSequences : Prop := CombTables ∧ CombRules ∧ CombInvocation ∧ CombMicroOperations ∧ CombOperands ∧ CombMicroValues ∧ CombMicroMemory

/-! ### Channels and foragers (R304 to R325) -/

/-- The OWNER code of a context (R304). -/
def Sys2Proof.Claims.ownerOf (c : CtxId) : Nat := c.slot * 64 + c.core

/-- The record of a port with nothing held and no owner. -/
def Sys2Proof.Claims.vacant (x : Port) : Port :=
  { x with st := .idle, owner := 0, held := none, pending := 0, gone := false, partner := none, bulk := none }

/-- What the NI of the acting context's tile gives for a vtile (R379): its tile, and the tiles as its translation leaves
them. -/
abbrev Sys2Proof.Claims.reaches (s : State) (v : VtId) (t : Nat) : Prop :=
  (s.translateVt (s.vtile s.cur.vt).ptile v).2 = some t

@[inherit_doc reaches]
abbrev Sys2Proof.Claims.reached (s : State) (v : VtId) : NMap Tile := (s.translateVt (s.vtile s.cur.vt).ptile v).1.tiles

/-- A rendezvous of the acting context on port q has issued (R307): its port is OWN, the notice n is under way to the peer's
tile, the context has blocked on w, and nothing else has changed but the NI's translations; a commitment it held on the port
is over. -/
def Sys2Proof.Claims.offers (s : State) (r : Step) (q : Nat) (b : Body) (w : Wait) (bulk : Option Bulk) : Prop :=
  let c := s.cur
  let x := s.ctx c
  let p : PortId := ⟨c.vt, q⟩
  ∀ tl, reaches s (s.port p).peer.vt tl →
  ∃ t, r = .next t ∧
    t.net = s.net ++ [{ src := p, dst := (s.port p).peer, body := b, ctx := some c, tile := tl }] ∧
    t.port p = { vacant (s.port p) with st := .own, owner := ownerOf c, bulk := bulk } ∧
    (∀ p', p' ≠ p → t.port p' = s.port p') ∧
    t.ctx c = blocked { x with commit := if x.commit = some q then none else x.commit } .channel w none ∧
    (∀ d, d ≠ c → t.ctx d = s.ctx d) ∧ (∀ j, t.core j = s.core j) ∧
    t.mem = s.mem ∧ t.parts = s.parts ∧ t.tiles = reached s (s.port p).peer.vt ∧ t.time = s.time

/-- No withdrawn notice stands on port q. -/
abbrev Sys2Proof.Claims.portFree (s : State) (q : Nat) : Prop := (s.port ⟨s.cur.vt, q⟩).gone = false

/-- R305, R306: the checks of a port instruction, for an ordinary port. A port in MOVE counts as owned (log entry 31), and word 5 of
channel-denied is the peer's port (log entry 76): the model's readings. -/
def Sys2Proof.Claims.PortChecks : Prop :=
  ∀ (s : State) (c : CtxId) (q : Nat) (d : Dir) (n : Option Nat),
    let p := s.port ⟨c.vt, q⟩
    let got := s.checkPort c q (some (d, n))
    let peer := s.checkPeer c q
    let w := p.peer.vt
    q ≠ 255 →
    (p.decl = false ∨ p.dir ≠ d ∨ (∃ k, n = some k ∧ p.width ≠ k) →
      got = .error (.cause .channelMisuse (BitVec.ofNat 64 q))) ∧
    (p.decl = true → p.dir = d → (n = none ∨ n = some p.width) →
      (p.st = .own ∨ p.st = .commit ∨ p.st = .move → p.owner ≠ ownerOf c →
        got = .error (.cause .channelMisuse (BitVec.ofNat 64 q))) ∧
      (p.st = .idle ∨ p.st = .held ∨ p.owner = ownerOf c →
        (∀ k, (s.ctx c).commit = some k → k ≠ q → got = .error (.cause .channelMisuse (BitVec.ofNat 64 k))) ∧
        ((s.ctx c).commit = none ∨ (s.ctx c).commit = some q → got = .ok ()))) ∧
    (c.vt.part = w.part ∧ c.vt.col = w.col → peer = .ok ()) ∧
    (∀ k e, (k, e) ∈ (s.vtile c.vt).perms → e.getLsbD 0 = true → (e.extractLsb' 16 4).toNat = w.part →
      (e.getLsbD 1 = true ∨ (e.extractLsb' 8 6).toNat = w.col) → peer = .ok ()) ∧
    (¬ (c.vt.part = w.part ∧ c.vt.col = w.col) → (s.vtile c.vt).perms = [] →
      peer = .error (.raise ⟨.channelDenied, BitVec.ofNat 64 q,
        BitVec.ofNat 64 (w.x + w.y * 2 ^ 16 + w.part * 2 ^ 32 + w.col * 2 ^ 40), BitVec.ofNat 64 p.peer.port⟩))

/-- R305, R309, R311, R318: `chs`, `chbs` and `vsift` check, release (`vsift` does not) and offer: a register message, a bulk
message, the sifted lanes packed low. One that has issued only waits for its release, and its port is its own from its issue on
(the model's reading, log entry 32). -/
def Sys2Proof.Claims.ChannelSends : Prop :=
  (∀ (s : State) (o : ChReg), (Instr.chs o).wf = true →
    let c := s.cur
    let q := o.port.toNat
    let n := o.nM1.toNat + 1
    let ws := (List.range n).map (fun i => (s.ctx c).rg (o.r.toNat + i))
    let check := s.checkPort c q (some (.out, some n))
    let x := s.ctx c
    let issued : Prop := x.prog ≠ {} ∧ x.prog.entry = false
    (∀ e, ¬ issued → check = .error e → exec (.chs o) s = .next (s.stopped c e)) ∧
    (∀ e, ¬ issued → check = .ok () → s.checkPeer c q = .error e → exec (.chs o) s = .next (s.stopped c e)) ∧
    (¬ issued → check = .ok () → s.checkPeer c q = .ok () → ¬ (x.q = 0 ∧ (s.core c.coreId).h = 0) → x.prog = {} → q ≠ 255 →
      portFree s q → ∃ t, exec (.chs o) s = .next t ∧ t.port ⟨c.vt, q⟩ = { vacant (s.port ⟨c.vt, q⟩) with
        st := .own, owner := ownerOf c } ∧ (t.ctx c).prog ≠ {} ∧ t.net = s.net) ∧
    (check = .ok () → s.checkPeer c q = .ok () → quiet s → q ≠ 255 → portFree s q →
      (s.vtile (s.port ⟨c.vt, q⟩).peer.vt).exist = true →
      offers s (exec (.chs o) s) q (.offer (.offer ws false)) (.chs q) none)) ∧
  (∀ (s : State) (o : ChBs), (Instr.chbs o).wf = true →
    let c := s.cur
    let q := o.port.toNat
    let ptr := (s.ctx c).rg o.a.toNat
    let len := (s.ctx c).rg o.b.toNat
    let check := s.checkPort c q (some (.bout, none))
    let issued : Prop := (s.ctx c).prog ≠ {} ∧ (s.ctx c).prog.entry = false
    (∀ e, ¬ issued → check = .error e → exec (.chbs o) s = .next (s.stopped c e)) ∧
    (∀ e, ¬ issued → check = .ok () → s.checkPeer c q = .error e → exec (.chbs o) s = .next (s.stopped c e)) ∧
    (¬ issued → check = .ok () → s.checkPeer c q = .ok () →
      (ptr.extractLsb' 48 7 ≠ 0 → exec (.chbs o) s = .next (s.stopped c (.cause .addressForm ptr))) ∧
      (ptr.extractLsb' 48 7 = 0 → ptr.extractLsb' 0 3 ≠ 0 →
        exec (.chbs o) s = .next (s.stopped c (.cause .misaligned ptr))) ∧
      (ptr.extractLsb' 48 7 = 0 → ptr.extractLsb' 0 3 = 0 → quiet s → q ≠ 255 → portFree s q →
        (s.vtile (s.port ⟨c.vt, q⟩).peer.vt).exist = true →
        offers s (exec (.chbs o) s) q (.offer (.bulk ptr len)) (.chbs q o.d.toNat)
          (some { src := ptr, dst := 0, len := len.toNat, clip := false })))) ∧
  (∀ (s : State) (o : VSift), (Instr.vsift o).wf = true →
    let c := s.cur
    let x := s.ctx c
    let q := ((x.rg o.c.toNat).setWidth 8).toNat
    let check := s.checkPort c q (some (.out, some 8))
    let is := (List.range o.vt.lanes).filter (fun i => (decide (o.om = 0) || (x.rg o.om.toNat).getLsbD i) &&
      siftLane o.vt (ln o.vt o.a x i) (lowBits o.vt.width (x.rg o.b.toNat)))
    (∀ e, check = .error e → exec (.vsift o) s = .next (s.stopped c e)) ∧
    (∀ e, check = .ok () → s.checkPeer c q = .error e → exec (.vsift o) s = .next (s.stopped c e)) ∧
    (check = .ok () → s.checkPeer c q = .ok () → q ≠ 255 → portFree s q →
      (s.vtile (s.port ⟨c.vt, q⟩).peer.vt).exist = true →
      ∃ (v : Vec) (m : Nat),
        (∀ k, k < o.vt.lanes → lane v o.vt.width k = match is[k]? with
          | some i => ln o.vt o.a x i
          | none => 0) ∧
        (∀ i, m.testBit i = decide (i ∈ is)) ∧
        offers s (exec (.vsift o) s) q
          (.offer (.offer ((List.range 8).map (fun j => (v >>> (64 * j)).setWidth 64)) false))
          (.vsift q o.d.toNat o.a.toNat o.vt m) none))

/-- R307, R309, R311, R312, R325: `chr` and `chbr` take the offer their port holds, or give notice that they are ready and
wait. A poisoned message writes nothing and raises poison-consumed. That the receiver of a bulk message whose source is unfit raises
address-form and a `chbr` whose range fails keeps its port is the model's reading (log entry 87). -/
def Sys2Proof.Claims.ChannelReceives : Prop :=
  (∀ (s : State) (o : ChReg), (Instr.chr o).wf = true →
    let c := s.cur
    let q := o.port.toNat
    let n := o.nM1.toNat + 1
    let p : PortId := ⟨c.vt, q⟩
    let check := s.checkPort c q (some (.inp, some n))
    (∀ e, check = .error e → exec (.chr o) s = .next (s.stopped c e)) ∧
    (check = .ok () → roomForAll (s.core c.coreId) → q ≠ 255 → portFree s q →
      (s.vtile (s.port p).peer.vt).exist = true → (s.ctx c).commit = none →
      ((s.port p).held = none → s.mayPeer c.vt (s.port p).peer.vt = true →
        offers s (exec (.chr o) s) q (.ready .ready) (.chr q o.r.toNat n) none) ∧
      (∀ ws tl, (s.port p).held = some (.offer ws false) → reaches s (s.port p).peer.vt tl →
        ∃ s0 s1 k', s0.net = s.net ++ [{ src := p, dst := (s.port p).peer, body := .ack, tile := tl }] ∧
          s0.port p = vacant (s.port p) ∧ (∀ p', p' ≠ p → s0.port p' = s.port p') ∧
          s0.tiles = reached s (s.port p).peer.vt ∧
          { s0 with net := s.net, vtiles := s.vtiles, tiles := s.tiles } = s ∧
          begun (s.core c.coreId) k' ∧ coreIs s0 s1 { k' with
            cache := k'.cache.filter (·.gal), stale := s.overtaken c (fun _ => true) ++ k'.stale } ∧
          completesVia s s1 (exec (.chr o) s) (fun y => y.wgs o.r.toNat ws)))) ∧
  (∀ (s : State) (o : ChBr), (Instr.chbr o).wf = true →
    let c := s.cur
    let q := o.port.toNat
    let p : PortId := ⟨c.vt, q⟩
    let x := s.port p
    let ptr := (s.ctx c).rg o.a.toNat
    let check := s.checkPort c q (some (.bin, none))
    (∀ e, check = .error e → exec (.chbr o) s = .next (s.stopped c e)) ∧
    (check = .ok () →
      (ptr.extractLsb' 48 7 ≠ 0 → exec (.chbr o) s = .next (s.stopped c (.cause .addressForm ptr))) ∧
      (ptr.extractLsb' 48 7 = 0 → ptr.extractLsb' 0 3 ≠ 0 →
        exec (.chbr o) s = .next (s.stopped c (.cause .misaligned ptr))) ∧
      (ptr.extractLsb' 48 7 = 0 → ptr.extractLsb' 0 3 = 0 → portFree s q → (s.vtile x.peer.vt).exist = true →
        (s.ctx c).commit = none →
        (x.held = none → s.mayPeer c.vt x.peer.vt = true →
          offers s (exec (.chbr o) s) q (.ready (.bready ptr x.max)) (.chbr q o.d.toNat)
            (some { src := 0, dst := ptr, len := 0, clip := false })) ∧
        (∀ sp len tl, x.held = some (.bulk sp len) → reaches s x.peer.vt tl →
          (bulkRange c ptr (min len.toNat x.max) true = false →
            exec (.chbr o) s = .next (s.stopped c (.cause .addressForm ptr))) ∧
          (bulkRange c ptr (min len.toNat x.max) true = true →
            let b : Bulk := { src := 0, dst := absolute c.core ptr, len := min len.toNat x.max, clip := decide (x.max < len.toNat) }
            let fit := s.sourceOk x.peer b.len
            ∃ t, exec (.chbr o) s = .next t ∧
              t.net = s.net ++ [{ src := p, dst := x.peer, body := .start { b with unfit := !fit }, ctx := some c, tile := tl }] ∧
              t.port p = (if fit then { vacant x with st := .move, owner := ownerOf c, pending := b.len, bulk := some b }
                else { vacant x with st := .own, owner := ownerOf c, bulk := some b }) ∧
              (∀ p', p' ≠ p → t.port p' = s.port p') ∧
              t.ctx c = blocked (s.ctx c) .channel (.chbr q o.d.toNat) none ∧ (∀ d, d ≠ c → t.ctx d = s.ctx d) ∧
              t.mem = s.mem ∧ t.cores = s.cores ∧ t.parts = s.parts)))))

/-- R301 to R318: the checks of a port, sends and receives. -/
def Obligations.Channels : Prop := PortChecks ∧ ChannelSends ∧ ChannelReceives

/-- The word of `chq` for an ordinary port (R314). -/
def Sys2Proof.Claims.portWord (s : State) (c : CtxId) (q : Nat) : Word :=
  let x := s.port ⟨c.vt, q⟩
  let dir : Nat := match x.dir with
    | .inp => 0
    | .out => 1
    | .bin => 2
    | .bout => 3
  let held := x.held.isSome && !x.gone
  let mine := decide ((s.ctx c).commit = some q)
  let other := (decide (x.st = .own) || decide (x.st = .commit)) && decide (x.owner ≠ ownerOf c)
  BitVec.ofNat 64 (x.decl.toNat + dir * 2 + x.width * 8 + held.toNat * 256 + mine.toNat * 512 + other.toNat * 1024 +
    (if x.dir = .bin then x.max * 2 ^ 32 else 0))

/-- R314 to R316: `chq` reads the state of a port; `alt` takes the first ready alternative in its rotation, commits its port
and moves START past it; without one it waits, with its timeout where that alternative is enabled. A notice marked withdrawn is
neither HELD nor ready (the model's reading, log entry 34). -/
def Sys2Proof.Claims.PortQueriesAndAlternatives : Prop :=
  (∀ (s : State) (o : ChQ), o.port ≠ 255 →
    completes s (exec (.chq o) s) (fun x => x.wg o.d.toNat (portWord s s.cur o.port.toNat))) ∧
  (∀ (s : State) (o : Alt),
    let c := s.cur
    let x := s.ctx c
    let ports := x.rg o.a.toNat
    let guard := x.rg o.b.toNat
    let lim := (x.rg o.c.toNat).toNat
    let st := (x.calt.extractLsb' 0 4).toNat
    let portNo (i : Nat) : Nat := (ports.extractLsb' (8 * i) 8).toNat
    let check := s.altCheck c ports guard
    let ready (i : Nat) : Bool := guard.getLsbD i && s.altReady c ports (decide (lim = 0)) i
    (guard.extractLsb' 0 9 = 0 → exec (.alt o) s = .next (s.stopped c (.cause .channelMisuse 0x100))) ∧
    (∀ e, check = .error e → exec (.alt o) s = .next (s.stopped c e)) ∧
    (check = .ok () → (∀ i, i < 9 → ready i = false) →
      exec (.alt o) s = .next (s.putCtx c (blocked x .alt (.alt o.d.toNat ports guard)
        (if guard.getLsbD 8 then some lim else none)))) ∧
    (∀ k, check = .ok () → k < 9 → ready ((st + k) % 9) = true → (∀ j, j < k → ready ((st + j) % 9) = false) →
      let i := (st + k) % 9
      let q := portNo i
      let p : PortId := ⟨c.vt, q⟩
      let f (y : Ctx) : Ctx :=
        { y with calt := y.calt.extractLsb' 4 60 ++ BitVec.ofNat 4 ((i + 1) % 9) }.wg o.d.toNat (BitVec.ofNat 64 i)
      (i = 8 → completes s (exec (.alt o) s) f) ∧
      (∀ tl, i ≠ 8 → q ≠ 255 → (s.vtile (s.port p).peer.vt).exist = true → reaches s (s.port p).peer.vt tl →
        ∃ s', s'.net = s.net ++ [{ src := p, dst := (s.port p).peer, body := .commit c, tile := tl }] ∧
          s'.port p = { s.port p with st := .commit, owner := ownerOf c } ∧ (∀ p', p' ≠ p → s'.port p' = s.port p') ∧
          (∀ d, s'.ctx d = if d = c then { x with commit := some q } else s.ctx d) ∧
          s'.tiles = reached s (s.port p).peer.vt ∧
          { s' with net := s.net, vtiles := s.vtiles, ctxs := s.ctxs, tiles := s.tiles } = s ∧
          completesVia s s' (exec (.alt o) s) f)) ∧
    (∀ i, i < 8 → portNo i ≠ 255 → s.altReady c ports false i =
      (decide ((s.port ⟨c.vt, portNo i⟩).st = .held) && !(s.port ⟨c.vt, portNo i⟩).gone &&
        (match (s.port ⟨c.vt, portNo i⟩).held, (s.port ⟨c.vt, portNo i⟩).dir with
        | some (.offer _ _), .inp => true
        | some (.bulk _ _), .bin => true
        | some .ready, .out => true
        | some (.bready _ _), .bout => true
        | _, _ => false))))

/-- `spawn` and `spawnt` (R319). -/
def Sys2Proof.Claims.spawnOf (i : Instr) : Option (GReg × GReg × Option GReg) :=
  match i with
  | .spawn o => some (o.a, o.b, none)
  | .spawnt o => some (o.a, o.b, some o.d)
  | _ => none

/-- R319, R320: `spawn` and `spawnt` offer a forager with the payload g1 to g8 to a vtile of their colony; a coordinate outside
the grid is channel-misuse; at the quota `spawn` waits and `spawnt` answers 2. -/
def Sys2Proof.Claims.Spawning : Prop :=
  ∀ (s : State) (i : Instr) (a b : GReg) (d : Option GReg), spawnOf i = some (a, b, d) →
    let c := s.cur
    let x := s.ctx c
    let w := x.rg a.toNat
    let col := s.colony c.vt.part c.vt.col
    let dst : VtId := ⟨c.vt.part, c.vt.col, (w.extractLsb' 0 9).toNat, (w.extractLsb' 16 9).toNat⟩
    let f : Forager := { entry := x.rg b.toNat, payload := [x.rg 1, x.rg 2, x.rg 3, x.rg 4, x.rg 5, x.rg 6, x.rg 7, x.rg 8]
                         poison := false, origin := .forager, src := some c.vt }
    let full := (s.part c.vt.part).fquota ≤ (s.part c.vt.part).fcount
    let inside := dst.x < col.gridX ∧ dst.y < col.gridY
    (¬ inside → exec i s = .next (s.stopped c (.cause .channelMisuse 0x100))) ∧
    (inside → quiet s → full →
      (∀ r, d = some r → ∃ s', sameButCores s s' ∧ completesVia s s' (exec i s) (fun y => y.wg r.toNat 2)) ∧
      (d = none → ∃ s', sameButCores s s' ∧
        exec i s = .next ((s'.putCtx c (blocked x .quota (.spawnQuota dst f) none)).modPart c.vt.part (fun q => { q with
          quotaQ := q.quotaQ ++ [c] })))) ∧
    (∀ tl, inside → quiet s → ¬ full → reaches s dst tl →
      ∃ t, exec i s = .next t ∧
        t.net = s.net ++ [{ src := ⟨c.vt, 0⟩, dst := ⟨dst, 0⟩, body := .forager f (d.map (·.toNat)), ctx := some c
                            tile := tl }] ∧
        t.ctx c = { x with st := .ready, wait := none, lim := none, prog := { need := .offered } } ∧
        (∀ e, e ≠ c → t.ctx e = s.ctx e) ∧ (∀ j, t.core j = s.core j) ∧
        t.tiles = reached s dst ∧ { t with net := s.net, ctxs := s.ctxs, cores := s.cores, tiles := s.tiles } = s)

/-- R314 to R320: port queries, alternatives and spawns. -/
def Obligations.AlternativesAndSpawns : Prop := PortQueriesAndAlternatives ∧ Spawning

/-- The port belongs to a context whose core a thermal migration moves (R380). -/
abbrev Sys2Proof.Claims.onTheMove (s : State) (p : PortId) : Prop :=
  ((s.port p).st = .own ∨ (s.port p).st = .move) ∧ (s.core (ownerCtx p.vt (s.port p).owner).coreId).moving = true

/-- The oldest packet for port p arrives: nothing holds it on its way, its tile serves its vtile, and the port is not that of
a core under migration (R307, R379, R380). -/
abbrev Sys2Proof.Claims.arrives (s : State) (p : PortId) (k : Packet) : Prop :=
  s.headTo p = some k ∧ k.stays = false ∧ s.lands k = true ∧ ¬ onTheMove s p

/-- s without packet k, and with x for port p. -/
def Sys2Proof.Claims.portIs (s : State) (k : Packet) (p : PortId) (x : Port) : State := (s.dropPacket k).modPort p (fun _ => x)

/-- R305, R307, R312, R316, R323: what arrives at a port. Only the oldest packet of a port arrives, as the event of its kind;
one that is held on its way does not, nor one for a core under migration, and at a tile that does not serve its vtile it goes to the
park queue. An offer waits at an idle port that matches it and is refused at one
that does not; the acknowledgement completes the sender; a commitment names its context at the sender; a refusal is
channel-misuse; a withdrawn notice is gone; a start begins the data steps, and one that says that the sender's range has failed raises address-form
there. The discarded ready notice and the mark of a withdrawn one are log entry 34, the start of an unfit source log entry 87 (the
model's readings). -/
def Sys2Proof.Claims.Arrivals : Prop :=
  (∀ (s : State) (p : PortId), s.headTo p = none →
    exec (.offerArrival p) s = .next s ∧ exec (.readyNoticeArrival p) s = .next s ∧
    exec (.acknowledgementArrival p) s = .next s ∧ exec (.startArrival p) s = .next s ∧
    exec (.commitNoticeArrival p) s = .next s ∧ exec (.releaseNoticeArrival p) s = .next s ∧
    exec (.withdrawalArrival p) s = .next s ∧ exec (.refusalArrival p) s = .next s) ∧
  (∀ (s : State) (p : PortId) (k : Packet) (n : Notice), s.headTo p = some k → k.body = .offer n → (k.stays = true → exec (.offerArrival p) s = .next s) ∧
    (k.stays = false → s.lands k = false →
    exec (.offerArrival p) s = .next (if s.parkRoom p.vt.part then (s.dropPacket k).parkPacket k else s)) ∧
    (s.lands k = true → onTheMove s p → exec (.offerArrival p) s = .next s) ∧
    exec (.acknowledgementArrival p) s = .next s) ∧
  (∀ (s : State) (p : PortId) (k : Packet) (n : Notice), arrives s p k → k.body = .offer n → (s.port p).gone = false →
    let x := s.port p
    let fits : Bool := x.decl && decide (x.peer = k.src) && (match n with
      | .offer ws _ => decide (x.dir = .inp) && decide (x.width = ws.length)
      | .bulk _ _ => decide (x.dir = .bin)
      | _ => false)
    let n' := match n with
      | .offer ws po => Notice.offer ws (po || k.poison)
      | n => n
    (fits = false → exec (.offerArrival p) s = .next ((s.dropPacket k).send { src := p, dst := k.src, body := .refuse })) ∧
    (fits = true → x.st = .idle →
      exec (.offerArrival p) s = .next (portIs s k p { vacant x with st := .held, held := some n' })) ∧
    (∀ q r m ws po, fits = true → x.st = .own → n' = .offer ws po → (s.ctx (ownerCtx p.vt x.owner)).wait = some (.chr q r m) →
      exec (.offerArrival p) s = .next (((portIs s k p (vacant x)).acknowledge p).received (ownerCtx p.vt x.owner) p.port r
        ws po))) ∧
  (∀ (s : State) (p : PortId) (k : Packet) (n : Notice), arrives s p k → k.body = .ready n → (s.port p).gone = false →
    let x := s.port p
    let fits : Bool := decide (x.st = .idle) && x.decl && decide (x.peer = k.src) && (match n with
      | .ready => decide (x.dir = .out)
      | .bready _ _ => decide (x.dir = .bout)
      | _ => false)
    (fits = true → exec (.readyNoticeArrival p) s = .next (portIs s k p { vacant x with st := .held, held := some n })) ∧
    (fits = false → exec (.readyNoticeArrival p) s = .next (s.dropPacket k))) ∧
  (∀ (s : State) (p : PortId) (k : Packet), arrives s p k → k.body = .ack →
    let x := s.port p
    let c := ownerCtx p.vt x.owner
    (x.st ≠ .own → exec (.acknowledgementArrival p) s = .next (s.dropPacket k)) ∧
    (∀ q, x.st = .own → (s.ctx c).wait = some (.chs q) →
      exec (.acknowledgementArrival p) s = .next ((portIs s k p (vacant x)).complete c)) ∧
    (∀ q d v vt m, x.st = .own → (s.ctx c).wait = some (.vsift q d v vt m) →
      exec (.acknowledgementArrival p) s = .next (((portIs s k p (vacant x)).modCtx c (fun y =>
        (y.wv v (laneMerge (BitVec.ofNat 64 m) vt.width (y.rv v) (fun _ => 0))).wg d (BitVec.ofNat 64 m))).complete c))) ∧
  (∀ (s : State) (p : PortId) (k : Packet) (c : CtxId), arrives s p k → k.body = .commit c →
    exec (.commitNoticeArrival p) s = .next (portIs s k p
      (if (s.port p).st = .own then { s.port p with partner := some c } else s.port p))) ∧
  (∀ (s : State) (p : PortId) (k : Packet), arrives s p k → k.body = .release →
    exec (.releaseNoticeArrival p) s = .next (portIs s k p { s.port p with partner := none })) ∧
  (∀ (s : State) (p : PortId) (k : Packet), arrives s p k → k.body = .withdraw →
    ((s.port p).gone = false → exec (.withdrawalArrival p) s = .next (s.dropPacket k)) ∧
    ((s.port p).gone = true → (s.port p).st = .held →
      exec (.withdrawalArrival p) s = .next (portIs s k p (vacant (s.port p))))) ∧
  (∀ (s : State) (p : PortId) (k : Packet), arrives s p k → k.body = .refuse →
    let c := ownerCtx p.vt (s.port p).owner
    ((s.port p).st ≠ .own → exec (.refusalArrival p) s = .next (s.dropPacket k)) ∧
    ((s.port p).st = .own → exec (.refusalArrival p) s = .next ((portIs s k p (vacant (s.port p))).take c
      ⟨.channelMisuse, BitVec.ofNat 64 p.port, 0, 0⟩ (s.ctx c).pc))) ∧
  (∀ (s : State) (p : PortId) (k : Packet) (b mine : Bulk), arrives s p k → k.body = .start b → (s.port p).st = .own →
    (s.port p).bulk = some mine →
    let c := ownerCtx p.vt (s.port p).owner
    (b.unfit = false → b.len ≠ 0 → exec (.startArrival p) s = .next (portIs s k p { s.port p with
      st := .move, pending := b.len, partner := none, bulk := some { b with src := absolute c.core mine.src } })) ∧
    (b.unfit = true → exec (.startArrival p) s = .next ((portIs s k p
      (if (s.port k.src).st = .own then
        { vacant (s.port p) with st := .held, held := some (.bready b.dst (s.port k.src).max) }
      else vacant (s.port p))).take c ⟨.addressForm, mine.src, 0, 0⟩ (s.ctx c).pc)))

/-- R293, R313: a data step of a bulk transfer whose last word lies in quad memory at both ends moves it, in its turn at the
copy engine of the sender's quad once the ports of both banks take it, and ends the transfer: both ports are idle. A transfer that is not under way has no step. -/
def Sys2Proof.Claims.BulkSteps : Prop :=
  (∀ (s : State) (p : PortId), (s.port p).bulk = none ∨ (s.port p).st ≠ .move ∨ (s.port (s.port p).peer).st ≠ .move →
    exec (.bulkDataStep p) s = .next s) ∧
  (∀ (s : State) (p : PortId) (b : Bulk) (x y : Nat),
    let q := (s.port p).peer
    (s.port p).bulk = some b → (s.port p).st = .move → (s.port p).dir = .bout → b.halted = false → (s.port q).st = .move →
    let a := (ownerCtx p.vt (s.port p).owner).coreId
    s.runs a = true → s.running q.vt = true → s.copyTurn (s.quadOf a) (4 + p.port) = true → (s.port p).pending = 8 → b.len = 8 → p ≠ q →
    b.src = BitVec.ofNat 64 x → b.dst = BitVec.ofNat 64 y → x % 8 = 0 → y % 8 = 0 → x + 8 ≤ 0xC00000 → y + 8 ≤ 0xC00000 →
    s.portOpen p.vt x (.bulk p 0) = true → s.portOpen q.vt y (.bulk p 0) = true →
    (s.core (ownerCtx q.vt (s.port q).owner).coreId).moving = false →
    ∃ t, exec (.bulkDataStep p) s = .next t ∧
      (∀ j, j < 8 → NMap.get 0 t.mem (sramKey q.vt y + j) = NMap.get 0 s.mem (sramKey p.vt x + j)) ∧
      (∀ j, ¬ (sramKey q.vt y ≤ j ∧ j < sramKey q.vt y + 8) → NMap.get 0 t.mem j = NMap.get 0 s.mem j) ∧
      t.port p = vacant (s.port p) ∧ t.port q = vacant (s.port q))

/-- R319 to R322, R349, R380: a forager that arrives at a vtile with room is queued, counted and its sender answered, unless a
thermal migration moves the sender's core; a full vtile answers 1, or lets the sender try again after 256 network cycles, 77 of
the time base (the model's reading, log entry 86); the head forager of a vtile starts in an empty slot with its payload
in g1 to g8. -/
def Sys2Proof.Claims.Foragers : Prop :=
  (∀ (s : State) (v : VtId) (k : Packet) (f : Forager) (tell : Option Nat) (c : CtxId),
    s.net.find? (fun k => decide (k.dst.vt = v) && !k.stays && (match k.body with
      | .forager _ _ => true
      | _ => false)) = some k → k.body = .forager f tell → k.ctx = some c →
    ((s.core c.coreId).moving = true → exec (.foragerArrival v) s = .next s) ∧
    ((s.core c.coreId).moving = false → s.lands k = true → s.foragerParked v = false →
    let x := s.vtile v
    let f' := { f with poison := f.poison || k.poison }
    let queued (x' : VTile) : State := ((s.dropPacket k).putVt v x').countForager v.part
    let answers (u : State) (n : Word) : Prop := exec (.foragerArrival v) s = .next ((match tell with
      | some d => u.modCtx c (fun y => y.wg d n)
      | none => u).complete c)
    (x.arrivals.length < 64 → x.spill = [] → answers (queued { x with arrivals := x.arrivals ++ [f'] }) 0) ∧
    (64 ≤ x.arrivals.length → x.spill.length < x.spcap → answers ((queued { x with spill := x.spill ++ [f'] }).sysWrite v.part 128) 0) ∧
    (64 ≤ x.arrivals.length → x.spcap ≤ x.spill.length →
      (tell ≠ none → answers (s.dropPacket k) 1) ∧
      (tell = none → exec (.foragerArrival v) s =
        .next ((s.dropPacket k).putCtx c (blocked (s.ctx c) .channel (.spawnFull v f') (some 77))))))) ∧
  (∀ (s : State) (v : VtId), s.net.all (fun k => decide (k.dst.vt ≠ v)) = true → exec (.foragerArrival v) s = .next s) ∧
  (∀ (s : State) (v : VtId), (s.vtile v).arrivals = [] → exec (.foragerStart v) s = .next s) ∧
  (∀ (s : State) (v : VtId) (f : Forager) (r : List Forager) (c : CtxId), (s.vtile v).arrivals = f :: r →
    s.foragerSlot v = some c → s.running v = true → (s.core c.coreId).moving = false → roomForAll (s.core c.coreId) →
    f.payload.length = 8 → f.poison = false →
    ∃ t k', exec (.foragerStart v) s = .next t ∧ begun (s.core c.coreId) k' ∧
      t.core c.coreId = { k' with cache := k'.cache.filter (·.gal), stale := s.overtaken c (fun _ => true) ++ k'.stale } ∧
      (∀ d, d ≠ c → t.ctx d = s.ctx d) ∧
      (t.ctx c).st = .ready ∧ (t.ctx c).pc = f.entry ∧ (t.ctx c).priv = s.curatorVt v ∧ (t.ctx c).origin = f.origin ∧
      (∀ r : GReg, (t.ctx c).rg r.toNat = if 1 ≤ r.toNat ∧ r.toNat ≤ 8 then f.payload.getD (r.toNat - 1) 0 else 0) ∧
      (∀ r : PReg, (t.ctx c).rp r.toNat = decide (r = 0)) ∧ (∀ r : VReg, (t.ctx c).rv r.toNat = 0) ∧
      (t.ctx c).csrng = 1 ∧ (t.ctx c).posted = (s.ctx c).posted ∧
      ((s.vtile v).spill = [] → (t.vtile v).arrivals = r))

/-- R305 to R324: what arrives at ports and vtiles, and bulk steps. -/
def Obligations.ArrivalsAndBulk : Prop := Arrivals ∧ BulkSteps ∧ Foragers

/-! ### Events of the memories, of contexts, of the fault port and of probes -/

/-- R59, R335, R337: what completing an instruction does: its context has gone on to NextPC, and nothing else has changed. -/
def Sys2Proof.Claims.GoingOn : Prop :=
  (∀ (s : State) (c : CtxId),
    (∀ d, d ≠ c → (s.complete c).ctx d = s.ctx d) ∧ { s.complete c with ctxs := s.ctxs } = s ∧
    wentOn (s.ctx c) ((s.complete c).ctx c) (s.nextPc c) ∧
    (s.complete c).ctx c = (s.ctx c).placedAs ((s.complete c).ctx c)) ∧
  (∀ (s : State) (c : CtxId) (l : Nat × Vec), s.fetch c = .ok l → l.1 = (s.ctx c).pc.toNat / 64 * 64 ∧
    ((s.ctx c).member = none → ((s.holdLine c l).ctx c).line = some l ∧ (∀ d, d ≠ c → (s.holdLine c l).ctx d = s.ctx d)))

/-- R56 to R61, R228, R335: where an instruction that completes goes on, and what a fetch reads. -/
def Obligations.SequencingAndFetch : Prop := NextPc ∧ FetchReadsTheStore ∧ GoingOn

/-- R230, R236, R237, R245, R250, R251, R254, R284: posted stores reach their banks in the order of their home, write-throughs
and fills reach home, the result of an atomic reaches its context, a granule is zeroed. What is not ready performs nothing; at a
granule that is being zeroed it is noted as arrived. Words that are valid in the cache are the core's own; a line is kept as a
gallery line where every load that waits for it reaches it through a gallery page (the model's reading, log entry 24). -/
def Obligations.MemoryEvents : Prop :=
  (∀ (s : State) (c : CtxId) (j : Nat) (p : Posted), (s.ctx c).posted[j]? = some p →
    let ready : Prop := s.portOpen c.vt p.addr (.store c p.home) = true ∧
      (∀ q ∈ (s.ctx c).posted.take j, q.home ≠ p.home) ∧ s.movingAt c.vt p.addr = none
    let gone := s.modQuad (s.portOf c.vt p.addr) (fun x => { x with
      held := dropFirst (fun a => decide (a = .store c p.home)) x.held })
    (ready → ∃ t, exec (.postedStorePerformed c j) s = .next t ∧
      storedSram (gone.modCtx c (fun x => { x with posted := x.posted.eraseIdx j })) t c.vt p.addr p.bytes.length
        (bytesVal p.bytes)) ∧
    (¬ ready → exec (.postedStorePerformed c j) s = .next s)) ∧
  (∀ (s : State) (k : CoreId) (line : Nat) (w : Through) (r : List Through), (s.core k).through = w :: r → w.line = line →
    let a : Arrival := .through k line
    let first := s.cleared (line / 1024) = true ∧ s.homeFree (line * 64) = true
    (first → exec (.writeThroughPerformed k line) s =
      .next (({ s with zeroing := NSet.ins s.zeroing (line / 1024) } : State).holdHome (line * 64) a)) ∧
    (¬ first → s.homeOpen (line * 64) k.vt.part a = false →
      exec (.writeThroughPerformed k line) s = .next (s.arrive (line * 64) a)) ∧
    (s.cleared (line / 1024) = false → s.homeOpen (line * 64) k.vt.part a = true →
      ∃ t, exec (.writeThroughPerformed k line) s = .next t ∧ t.core k = { s.core k with through := r } ∧
        (∀ a, NMap.get 0 t.mem a =
          if line * 64 ≤ a ∧ a < line * 64 + 64 ∧ w.mask.getLsbD ((a - line * 64) / 8) = true then
            BitVec.ofNat 8 (w.data.toNat / 256 ^ (a - line * 64)) else NMap.get 0 s.mem a) ∧
        (w.mask = 0xFF → NSet.mem t.poisLine line = false))) ∧
  (∀ (s : State) (k : CoreId) (line : Nat),
    let cs := s.fillWaiters k line
    let pages := s.fillPages k line
    let f := s.homeLine line
    let a : Arrival := .fill k line
    let word (d : Vec) (w : Nat) : Nat := d.toNat / 2 ^ (64 * w) % 2 ^ 64
    let old := (s.core k).find line
    let own (w : Nat) : Bool := old.any (fun x => x.valid.getLsbD w)
    let kept : Core := { s.core k with stale := (s.core k).stale.filter (fun e =>
      decide (e.2 ≠ line) || !cs.any (fun c => decide (c.slot = e.1))) }
    (f = if s.cleared (line / 1024) then ⟨line, 0, 0, 0⟩
      else ⟨line, BitVec.ofNat 512 (rdBytes s.mem (line * 64) 64), if NSet.mem s.poisLine line then 0xFF else 0,
        if NSet.mem s.badLine line then 0xFF else 0⟩) ∧
    (cs = [] → exec (.cacheFill k line 0) s = .next s) ∧
    (cs ≠ [] → (s.core k).takesFill line = false → exec (.cacheFill k line 0) s = .next (s.servedHome (line * 64) a)) ∧
    (cs ≠ [] → (s.core k).takesFill line = true → s.homeOpen (line * 64) k.vt.part a = false →
      exec (.cacheFill k line 0) s = .next (s.arrive (line * 64) a)) ∧
    (cs ≠ [] → (s.core k).takesFill line = true → s.homeOpen (line * 64) k.vt.part a = true →
      ∃ (t : State) (g : Fill), exec (.cacheFill k line 0) s = .next t ∧ t.mem = s.mem ∧ g.line = line ∧
        (∀ w, w < 8 →
          (own w = false → word g.data w = word f.data w ∧ g.pois.getLsbD w = f.pois.getLsbD w ∧
            g.bad.getLsbD w = f.bad.getLsbD w) ∧
          (∀ x, old = some x → own w = true → word g.data w = word x.data w ∧ g.pois.getLsbD w = x.pois.getLsbD w ∧
            g.bad.getLsbD w = false)) ∧
        (∀ c, t.ctx c = if c ∈ cs then { s.ctx c with prog := { (s.ctx c).prog with
            need := .none, fills := (s.ctx c).prog.fills.filter (fun h => decide (h.line ≠ line)) ++ [g] } } else s.ctx c) ∧
        (f.bad ≠ 0 ∨ pages = [] → t.core k = kept) ∧
        (f.bad = 0 → pages ≠ [] → ∃ ln, (t.core k).find line = some ln ∧ ln.valid = 0xFF ∧
          ln.dirty = old.elim 0 (·.dirty) ∧
          ln.gal = (pages.all id && old.all (fun x => decide (x.valid = 0) || x.gal)) ∧
          ∀ w, w < 8 → word ln.data w = word g.data w ∧ ln.pois.getLsbD w = g.pois.getLsbD w))) ∧
  (∀ (s : State) (c : CtxId) (r : AtomRes), (s.ctx c).prog.res = some r →
    ((s.ctx c).prog.need = .result → r.acq = false → exec (.atomicResultReturn c) s =
      .next ((s.putCtx c ((s.ctx c).wg r.d r.val)).complete c)) ∧
    ((s.ctx c).prog.need = .result → r.acq = true → roomForAll (s.core c.coreId) →
      exec (.atomicResultReturn c) s = .next (((s.acquire c).modCtx c (fun x => x.wg r.d r.val)).complete c)) ∧
    ((s.ctx c).prog.need ≠ .result → (s.ctx c).prog.need ≠ .acquire → exec (.atomicResultReturn c) s = .next s)) ∧
  (∀ (s : State) (g : Nat),
    (NSet.mem s.zeroing g = false → exec (.granuleZeroingComplete g) s = .next s) ∧
    (NSet.mem s.zeroing g = true → s.cleared g = false → exec (.granuleZeroingComplete g) s =
      .next { s with zeroing := NSet.erase s.zeroing g }) ∧
    (NSet.mem s.zeroing g = true → s.cleared g = true → ∃ t, exec (.granuleZeroingComplete g) s = .next t ∧ NSet.mem t.zeroing g = false ∧
      t.cleared g = false ∧
      (∀ a, NMap.get 0 t.mem a = if g * 65536 ≤ a ∧ a < (g + 1) * 65536 then 0 else NMap.get 0 s.mem a) ∧
      t.ctxs = s.ctxs ∧ t.cores = s.cores)) ∧
  (∀ (s : State) (v : VtId) (a e : Nat), a ≤ 0x00BFFFFF →
    (e = 0 → exec (.scrubRead v a e) s = .next s) ∧
    ((s.vtile v).exist = true → s.quadAwake v a = true →
      (e = 2 → ∃ t, exec (.scrubRead v a 2) s = .next t ∧ t.sramPois v a = true ∧ t.mem = s.mem ∧ t.tests ≠ []) ∧
      (e = 1 → ∃ t, exec (.scrubRead v a 1) s = .next t ∧ t.pois = s.pois ∧ t.mem = s.mem ∧ t.tests ≠ [])))

/-- The walk of a leaf at level n in entry e with its run from physical address first, for a partition, is malformed (R359). -/
def Sys2Proof.Claims.leafBad (s : State) (part : Nat) (e : BitVec 64) (n first : Nat) : Prop :=
  let sz := (e.extractLsb' 2 4).toNat
  let run := if sz = 9 then 1 else 4 ^ (sz % 3)
  let frame := (e.extractLsb' 12 29).toNat
  10 ≤ sz ∨ sz / 3 ≠ n ∨ e.extractLsb' 41 15 ≠ 0 ∨ (e.getLsbD 6 = false ∧ e.getLsbD 7 = true) ∨ frame % 4 ^ sz ≠ 0 ∨
  (∃ i, i < run ∧
    let o := BitVec.ofNat 64 (s.homeBytes (first + 8 * i) 8)
    o.extractLsb' 11 45 ≠ e.extractLsb' 11 45 ∨ o.extractLsb' 0 9 ≠ e.extractLsb' 0 9) ∨
  (∃ p, p < 4 ^ sz ∧ s.granOk part ((frame + p) / 16) = false)

/-- R357 to R359, R363: what a walk answers at a leaf, and where it starts: at the vtile's root, or at the level below the
cached pointer entry of the lowest level that covers the address. -/
def Sys2Proof.Claims.WalkedLeaves : Prop :=
  (∀ (s : State) (part va n t via : Nat), n < 6 → t % 512 = 0 →
    let pa := t + 8 * (va / 2 ^ (6 * n + 12) % 64)
    let e := BitVec.ofNat 64 (s.homeBytes pa 8)
    let sz := (e.extractLsb' 2 4).toNat
    let run := if sz = 9 then 1 else 4 ^ (sz % 3)
    let first := t + 8 * (va / 2 ^ (6 * n + 12) % 64 / run * run)
    let got := s.walkFrom part va (n + 1) t via
    (s.granOk part (t / 65536) = false → got = .fault .permission via) ∧
    (s.granOk part (t / 65536) = true →
      (s.entryOk pa = false → got = .fault .permission 0) ∧
      (s.entryOk pa = true → e.getLsbD 0 = true → e.getLsbD 1 = true →
        (leafBad s part e n first → got = .fault .permission e.toNat) ∧
        (¬ leafBad s part e n first → got = .leaf e.toNat n first)))) ∧
  (∀ (s : State) (v : VtId) (va : Nat), (s.vtile v).root ≠ 0 →
    let hit (l : Nat) : Option Ptr := (s.vtile v).ptrs.find? (fun q => decide (q.lvl = l) && decide (q.pre = va / 2 ^ (6 * l + 12)))
    ((∀ l, 1 ≤ l → l ≤ 5 → hit l = none) → s.walk v va = s.walkFrom v.part va 6 ((s.vtile v).root * 512) 0) ∧
    (∀ l q, 1 ≤ l → l ≤ 5 → hit l = some q → (∀ k, 1 ≤ k → k < l → hit k = none) →
      s.walk v va = s.walkFrom v.part va l (((BitVec.ofNat 64 q.e).extractLsb' 9 32).toNat * 512) q.e))

/-- R360 to R363: what a walk for an access does that finds a leaf which permits it: A is set, and D for a write, by a write at
home that fires the monitors on the entry; the translation stands first in the core's and the tile's cache, which keep their
sizes, and the access finds it there; one that is refused sets and installs nothing. A lookup reads the core's cache before
the tile's. -/
def Sys2Proof.Claims.Installation : Prop :=
  (∀ (s : State) (k : CoreId) (va : Nat) (acc : Acc) (user : Bool),
    let got := s.walkFor k va acc user
    (∀ c e, s.walk k.vt va = .fault c e → got = (s, .error (c, e))) ∧
    (∀ e n first, s.walk k.vt va = .leaf e n first →
      (permitted e va acc user = false → got = (s, .error (.permission, e))) ∧
      (permitted e va acc user = true → ∃ t u, got = (t, .ok u) ∧
        let w := decide (acc = .write ∨ acc = .atomic)
        let b := s.homeBytes first 8
        (∀ a, NMap.get 0 t.mem a = if first ≤ a ∧ a < first + 8 then
          BitVec.ofNat 8 ((b ||| 0x200 ||| (if w then 0x400 else 0)) / 256 ^ (a - first)) else NMap.get 0 s.mem a) ∧
        (∀ c p, (s.ctx c).mon.phys = some p → (s.ctx c).mon.armed = true → s.stands c.vt = true → first / 8 * 8 ≤ p →
          p < first + 8 → (t.ctx c).mon.fired = true) ∧
        (t.core k).tlb.head? = some u ∧ (t.core k).tlb.length ≤ 48 ∧ (∀ j, j ≠ k → (t.core j).tlb = (s.core j).tlb) ∧
        (t.vtile k.vt).tlb.head? = some u ∧ (t.vtile k.vt).ptrs.length ≤ 128 ∧
        ((∀ i, ((s.vtile k.vt).tlb.filter (fun x => decide (x.set = i))).length ≤ 8) →
          ∀ i, ((t.vtile k.vt).tlb.filter (fun x => decide (x.set = i))).length ≤ 8) ∧
        (w = true → u.dc = true)))) ∧
  (∀ (s : State) (k : CoreId) (va : Nat) (acc : Acc) (user : Bool),
    let fits (u : TEntry) : Bool := decide (u.vpn ≤ va / 4096) && decide (va / 4096 < u.vpn + 4 ^ u.sz) &&
      (u.g == va.testBit 47) && (!user || u.us) && (match acc with
      | .read => u.rd
      | .fetch => u.rd
      | .write => u.wr && u.dc
      | .atomic => u.rd && u.wr && u.dc)
    s.lookup k va acc user = match (s.core k).tlb.find? fits with
      | some u => some u
      | none => (s.vtile k.vt).tlb.find? fits)

/-- R355 to R365: which accesses a leaf permits; what a walk answers at an absent root, an absent entry and a pointer; and
PAGE_WALK, which ends the misses of a page once its tables have been read: the instruction that missed goes on, or its cause is
raised with the entry. -/
def Sys2Proof.Claims.Walks : Prop :=
  (∀ (e : BitVec 64) (va : Nat) (acc : Acc) (user : Bool), permitted e.toNat va acc user =
    ((e.getLsbD 11 == va.testBit 47) && !(e.getLsbD 11 && e.getLsbD 7) &&
      (match acc with
      | .read => e.getLsbD 6
      | .fetch => e.getLsbD 6
      | .write => e.getLsbD 7
      | .atomic => e.getLsbD 6 && e.getLsbD 7) && (!user || e.getLsbD 8))) ∧
  (∀ (s : State) (v : VtId) (va : Nat), (s.vtile v).root = 0 → s.walk v va = .fault .pageAbsent 0) ∧
  (∀ (s : State) (part va n t via : Nat),
    let pa := t + 8 * (va / 2 ^ (6 * n + 12) % 64)
    let e := BitVec.ofNat 64 (s.homeBytes pa 8)
    s.granOk part (t / 65536) = true → s.entryOk pa = true →
    (e.getLsbD 0 = false → s.walkFrom part va (n + 1) t via = .fault .pageAbsent e.toNat) ∧
    (e.getLsbD 0 = true → e.getLsbD 1 = false → n ≠ 0 → e.extractLsb' 41 15 = 0 → e.extractLsb' 2 7 = 0 →
      s.walkFrom part va (n + 1) t via = s.walkFrom part va n ((e.extractLsb' 9 32).toNat * 512) e.toNat) ∧
    (e.getLsbD 0 = true → e.getLsbD 1 = false → (n = 0 ∨ e.extractLsb' 41 15 ≠ 0 ∨ e.extractLsb' 2 7 ≠ 0) →
      s.walkFrom part va (n + 1) t via = .fault .permission e.toNat)) ∧
  (∀ (s : State) (v : VtId) (m : Miss), (s.vtile v).misses = [m] → m.ctx.vt = v → m.by_ = .instr → m.failed = false →
    let vpn := m.va / 4096
    let path := s.walkPath v (vpn * 4096)
    let ended (t : State) : State := t.modVt v (fun x => { x with misses := x.misses.filter (fun n => decide (n ≠ m)) })
    (∀ s1, State.walkRows (.walk v vpn 0) v.part path s = (s1, false) → exec (.pageWalk v vpn) s = .next s1) ∧
    (∀ s1, State.walkRows (.walk v vpn 0) v.part path s = (s1, true) →
      let s2 := path.foldl (fun (u : State) l => u.tallyRead (l * 64) 64) s1
      (∀ t e, s2.walkFor m.ctx.coreId m.va m.acc m.user = (t, .ok e) → exec (.pageWalk v vpn) s = .next (ended t)) ∧
      (∀ t k e, s2.walkFor m.ctx.coreId m.va m.acc m.user = (t, .error (k, e)) → exec (.pageWalk v vpn) s =
        .next ((ended t).take m.ctx ⟨k, m.tval, BitVec.ofNat 64 m.acc.code, BitVec.ofNat 64 e⟩ (t.ctx m.ctx).pc))) ∧
    (∀ p, p ≠ vpn → exec (.pageWalk v p) s = .next s))

/-- R355 to R365: walks, leaves, and translation caches. -/
def Obligations.Translation : Prop := WalkedLeaves ∧ Installation ∧ Walks

/-- R11, R26, R80, R222, R278, R315, R341, R415, R418, R421: what counts and waits bring about at contexts: limits that have
passed, the watchdog, an asynchronous cause at a boundary, the tree of a co-resident colony, a wide move, a plain write to the
device window. Where nothing is due nothing changes. That the tree releases only while some participant has arrived is the model's
reading (log entry 91). -/
def Obligations.ContextEvents : Prop :=
  (∀ (s : State) (c : CtxId),
    let x := s.ctx c
    (x.wait ≠ some .idle ∨ x.lim ≠ some 0 → exec (.idleTimeout c) s = .next s) ∧
    (x.wait = some .idle → x.lim = some 0 → exec (.idleTimeout c) s = .next (s.complete c)) ∧
    (∀ d, x.wait = some (.mwait d) → x.lim = some 0 → roomForAll (s.core c.coreId) →
      ∃ t k', exec (.mwaitLimitExpiry c) s = .next t ∧ begun (s.core c.coreId) k' ∧
        t.core c.coreId = { k' with cache := k'.cache.filter (·.gal), stale := s.overtaken c (fun _ => true) ++ k'.stale } ∧
        (∀ e, e ≠ c → t.ctx e = s.ctx e) ∧
        wentOn x (t.ctx c) (s.nextPc c) ∧
        t.ctx c = (({ x with mon := { x.mon with armed := false, fired := false } } : Ctx).wg d 1).placedAs (t.ctx c)) ∧
    (x.lim ≠ some 0 → exec (.mwaitLimitExpiry c) s = .next s ∧ exec (.altTimeout c) s = .next s ∧
      exec (.swarmFormationTimeout c) s = .next s ∧ exec (.spawnRetry c) s = .next s) ∧
    (∀ d n, x.wait = some (.swl d n) ∨ x.wait = some (.swj d n) → x.lim = some 0 →
      exec (.swarmFormationTimeout c) s = .next ((s.modCtx c (fun y => y.wg d 2)).complete c)) ∧
    (∀ d p g, x.wait = some (.alt d p g) → x.lim = some 0 → g.getLsbD 8 = true →
      (∀ i, i < 8 → g.getLsbD i = true → s.altReady c p true i = false) → (x.calt.extractLsb' 0 4).toNat ≤ 8 →
      exec (.altTimeout c) s = .next ((s.modCtx c (fun y => ({ y with
        calt := y.calt &&& ~~~0xF } : Ctx).wg d 8)).complete c)) ∧
    (∀ v f s1 tl, x.wait = some (.spawnFull v f) → x.lim = some 0 → s.translateVt (s.vtile c.vt).ptile v = (s1, some tl) →
      exec (.spawnRetry c) s = .next (({ s1 with net := s1.net ++ [{ src := ⟨c.vt, 0⟩, dst := ⟨v, 0⟩, body := .forager f none
                                                                     ctx := some c, tile := tl }] } : State).modCtx c
        (fun y => { y with st := .ready, wait := none, lim := none, prog := { need := .offered } }))) ∧
    (x.cwdog.extractLsb' 32 32 ≠ 0 → x.cwdog.extractLsb' 0 32 = 1 → x.st = .ready ∨ x.st = .blocked → s.running c.vt = true →
      exec (.watchdogExpiry c) s = .next (s.modCtx c (fun y => { y with
        cwdog := y.cwdog.extractLsb' 32 32 ++ y.cwdog.extractLsb' 32 32
        pend := y.pend ++ [(.watchdog, (y.cwdog.extractLsb' 32 32).setWidth 64)] }))) ∧
    (x.cwdog.extractLsb' 0 32 ≠ 1 → exec (.watchdogExpiry c) s = .next s) ∧
    (x.pend = [] ∨ s.running c.vt = false → exec (.asyncCauseTaken c) s = .next s) ∧
    (∀ k v r, s.running c.vt = true → x.pend = (k, v) :: r → x.st = .ready → x.prog = {} → x.member = none → exec (.asyncCauseTaken c) s =
      .next ((s.modCtx c (fun y => { y with st := .ready, wait := none, lim := none, prog := {}, pend := r })).take c
        ⟨k, v, 0, 0⟩ (if k = .trap ∨ k = .breakpoint then s.nextPc c else x.pc))) ∧
    (x.st = .ready → x.prog ≠ {} → x.prog.entry = false → x.prog.need ≠ .matrix → exec (.asyncCauseTaken c) s = .next s) ∧
    (∀ off w, x.st ≠ .empty → x.cstat.getLsbD 10 = true →
      (off = 0x100 → exec (.plainRegisterWrite c off w) s =
        .next (s.modCtx c (fun y => { y with rtsel := w &&& 0xFFFFFFFF7FFF01FF }))) ∧
      (off = 0x108 ∨ off = 0x110 ∨ off = 0x118 ∨ off = 0x120 → exec (.plainRegisterWrite c off w) s =
        .next (s.modCtx c (fun y => { y with rtd := NMap.set 0 y.rtd ((off - 0x108) / 8) w })))) ∧
    (x.moveTo = none → exec (.extensionMoveComplete c) s = .next s) ∧
    (∀ k j, x.moveTo = some (k, j) → x.q = 0 → (s.core c.coreId).h = 0 →
      (s.core c.coreId).cache.all (fun y => decide (y.dirty = 0)) = true → (s.core ⟨c.vt, k⟩).h = 0 →
      (s.core ⟨c.vt, k⟩).cache = [] → exec (.extensionMoveComplete c) s =
        .next ((s.beginThrough c.coreId).moveCtx c ⟨c.vt, k, j⟩))) ∧
  (∀ (s : State) (v : VtId),
    ((s.vtile v).migs = [] ∨ s.closing v = true → exec (.migratingContextMove v) s = .next s) ∧
    (∀ c h r d, (s.vtile v).migs = (c, h) :: r → s.closing v = false → s.wideCount v ≠ 0 → s.wideSlot v = some d →
      s.matOf c = [] → exec (.migratingContextMove v) s =
        .next ((s.modVt v (fun x => { x with migs := r })).startMove c d)) ∧
    (∀ c h r, (s.vtile v).migs = (c, h) :: r → s.closing v = false → s.wideCount v = 0 →
      let s1 := (s.modVt v (fun x => { x with migs := r })).modCtx c (fun x => { x with st := .ready })
      exec (.migratingContextMove v) s = .next (s1.take c
        ⟨.extensionAbsent, BitVec.ofNat 64 h, (s1.vtile c.vt).mask, 0⟩ (s.ctx c).pc))) ∧
  (∀ (s : State) (p k : Nat),
    let ps := s.participants ⟨p, k, 0, 0⟩ 0 .colony
    let whole := s.gangs.all (fun e => decide (e.1.part ≠ p) || decide (e.1.col ≠ k) || decide (e.2.st = .resident))
    let here := ps.all (fun c => s.present c.vt)
    let some' := ps.any (fun c => (s.ctx c).arrColony)
    let u := s.endGen ⟨p, k, 0, 0⟩ 0 .colony
    ((s.colony p k).tree = none → exec (.colonyTreeRelease p k) s = .next s) ∧
    (∀ ch, (s.colony p k).tree = some ch →
      let goes := s.coResident p k && whole && here && some' && s.treeAnd ch
      (goes = false → exec (.colonyTreeRelease p k) s = .next s) ∧
      (goes = true → ∃ t, exec (.colonyTreeRelease p k) s = .next t ∧
        { t with tiles := u.tiles, dieUnmasked := u.dieUnmasked } = u ∧
        ∀ n, t.tile n =
          if u.tiles.any (fun e => decide (e.1 = n) && NSet.mem e.2.unmasked ch) = false then u.tile n
          else if (u.tile n).retired = true then
            { u.tile n with latch := false, unmasked := NSet.erase (u.tile n).unmasked ch }
          else { u.tile n with latch := match (u.tile n).vtile with
            | some v => u.running v && u.coResident v.part v.col && (u.ctxsOf v).all (fun c => (u.ctx c).arrColony)
            | none => false })))

/-- R88: the fault agent accepts the message that has been offered first: it enters the queue with the next SEQ; a full queue
takes none. -/
def Sys2Proof.Claims.FaultMessages : Prop :=
  ∀ (s : State) (p : Nat),
    let q := s.part p
    let n := if q.lastSeq + 1 < 2 ^ 32 then q.lastSeq + 1 else 1
    (q.offered = [] ∨ 65536 ≤ q.faultQ.length → exec (.faultMessageAccepted p) s = .next s) ∧
    (∀ m r, q.offered = m :: r → q.faultQ.length < 65536 →
      ∃ t, exec (.faultMessageAccepted p) s = .next t ∧ (t.part p).lastSeq = n ∧ (t.part p).offered = r ∧
        (t.part p).faultQ = q.faultQ ++ [{ m with seq := n }] ∧
        (m.eng = false → ∀ c, m.ctx = some c → m.kind = 0 → (s.ctx c).st = .parked → (s.ctx c).parked = {} →
          t.ctx c = { s.ctx c with parked := { seq := some n } }) ∧
        (m.eng = false → m.ctx = none → { t with parts := s.parts } = { s.sysWrite p 64 with parts := s.parts }))

/-- The agent's next command: the vtile context that sent it, its words, those behind it. -/
abbrev Sys2Proof.Claims.nextCommand (s : State) (p op : Nat) (c : CtxId) (ws : List Word) (r : List (CtxId × List Word)) : Prop :=
  (s.part p).cmdQ = (c, ws) :: r ∧ (ws.getD 0 0 &&& 0xFF).toNat = op

/-- R91, R92, R84: the curator's commands. Each acts on what it names once its checks have passed: a parked context resumes at
its PC, or at another; it is removed, or a command it has left behind is (the model's reading, log entry 38), once H has
room and no party of a bulk transfer that this ends is under migration; it takes a cause in its handler, once a frame can be
spilled; an empty slot is named by the SEQ of an open message (log entry 77); a held command restarts; a lost gang is restarted; a gang is summoned. A command
that fails a check is answered with the reason. An event that names another opcode changes nothing. -/
def Sys2Proof.Claims.CuratorCommands : Prop :=
  ∀ (s : State) (p op : Nat) (c : CtxId) (ws : List Word) (r : List (CtxId × List Word)), nextCommand s p op c ws r →
    let s1 := (s.modPart p (fun q => { q with cmdQ := r })).cmdTaken c
    let bad := s.cmdReason p ws
    let reject : State := s1.rejectCmd p ws bad
    let seq := ((ws.getD 0 0).extractLsb' 32 32).toNat
    let target := s.namedCtx p ((ws.getD 0 0).extractLsb' 20 6).toNat (ws.getD 1 0).toNat seq
    let gang : GangId := ⟨p, ((ws.getD 0 0).extractLsb' 20 6).toNat, ((ws.getD 1 0).extractLsb' 48 12).toNat⟩
    (op ≠ 1 → 1 ≤ op → op ≤ 6 → exec (.resume p) s = .next s) ∧ (op ≠ 2 → exec (.resumeAt p) s = .next s) ∧
    (op ≠ 3 → exec (.remove p) s = .next s) ∧ (op ≠ 4 → exec (.toHandler p) s = .next s) ∧
    (op ≠ 5 → exec (.restartGang p) s = .next s) ∧ (op ≠ 6 → exec (.summon p) s = .next s) ∧
    (bad ≠ 0 → ((op = 1 ∨ op = 0 ∨ 6 < op) → exec (.resume p) s = .next reject) ∧
      (op = 2 → exec (.resumeAt p) s = .next reject) ∧ (op = 3 → exec (.remove p) s = .next reject) ∧
      (op = 4 → exec (.toHandler p) s = .next reject) ∧ (op = 5 → exec (.restartGang p) s = .next reject) ∧
      (op = 6 → exec (.summon p) s = .next reject)) ∧
    (∀ d, bad = 0 → target = some d →
      (op = 1 →
        ((s1.ctx d).st = .parked ∧ (s1.ctx d).parked.seq = some seq → exec (.resume p) s = .next (s1.unpark d id)) ∧
        (¬ ((s1.ctx d).st = .parked ∧ (s1.ctx d).parked.seq = some seq) →
          exec (.resume p) s = .next (s1.restartEngine d seq))) ∧
      (op = 2 → exec (.resumeAt p) s =
        .next (s1.unpark d (fun x => { x with live := none, resume := none, pc := ws.getD 2 0 }))) ∧
      (op = 3 → (s.acquireRoom d = false ∨ s.cutMoves d = true → exec (.remove p) s = .next s) ∧
        (s.acquireRoom d = true → s.cutMoves d = false → s1.leftOpen d seq = none → exec (.remove p) s = .next (s1.removeProcess d)) ∧
        (∀ e, s.acquireRoom d = true → s.cutMoves d = false → s1.leftOpen d seq = some e → exec (.remove p) s = .next (s1.discardLeft d e))) ∧
      (op = 4 → s.spillWaits d = true → exec (.toHandler p) s = .next s) ∧
      (∀ ea, op = 4 → s.spillWaits d = false → s.spillMiss d = some ea → exec (.toHandler p) s = .next (s.missSpill d ea)) ∧
      (op = 4 → s.spillWaits d = false → s.spillMiss d = none →
        let s2 := (s1.dropMisses d).unpark d id
        let code := (ws.getD 2 0).toNat
        exec (.toHandler p) s = .next (s2.takeCode d code (ws.getD 3 0)
          (if code = 0x16 ∨ code = 0x17 then s2.nextPc d else (s2.ctx d).pc)))) ∧
    (∀ (d : CtxId) (f : Ctx → Ctx) (e : CtxId), (s.unpark d f).ctx e =
      if e = d then f { s.ctx d with st := .ready, parked := {}, line := none, prog := {} } else s.ctx e) ∧
    (bad = 0 → (op = 5 → exec (.restartGang p) s = .next (s1.restartGang gang)) ∧
      (op = 6 → exec (.summon p) s = .next (s1.summon gang).1))

/-- R88 to R94, R101, R350, R353: fault messages and the commands that answer them. -/
def Obligations.CuratorPort : Prop := FaultMessages ∧ CuratorCommands

/-- R326 to R330: a context whose probe count has run out launches a probe; a probe that has met an earlier one is abandoned;
one that comes back, once no gang it reached is being saved, with its initiator in a knot that nothing on its way releases, and
that is still one when the members of earlier knots are looked at again, is reported. That the probe is evaluated at its report,
waits for saved gangs and is withheld for what is on its way is the model's reading (log entry 47). -/
def Obligations.DeadlockProbes : Prop :=
  (∀ (s : State) (c : CtxId),
    (s.counts c = false ∨ (s.ctx c).probeLeft ≠ 0 → exec (.probeLaunch c) s = .next s) ∧
    (s.counts c = true → (s.ctx c).probeLeft = 0 →
      let s1 := s.modCtx c (fun x => { x with probeLeft := x.probeDelay })
      (s.probes.any (fun p => decide (p.init = c)) = false → exec (.probeLaunch c) s =
        .next { s1 with probes := s.probes ++ [⟨c, s.time, (s.vtile c.vt).ptile⟩] }) ∧
      (s.probes.any (fun p => decide (p.init = c)) = true → exec (.probeLaunch c) s = .next s1))) ∧
  (∀ (s : State) (c : CtxId), s.probes.any (fun p => decide (p.init = c)) = false →
    exec (.probeAbandoned c) s = .next s ∧ exec (.deadlockReport c) s = .next s) ∧
  (∀ (s : State) (c : CtxId) (p : Probe), s.probes.find? (fun p => decide (p.init = c)) = some p →
    let rest : State := { s with probes := s.probes.filter (fun q => decide (q ≠ p)) }
    let ended := rest.modCtx p.init (fun x => { x with probeLeft := x.probeDelay })
    (s.probeLost p = false → exec (.probeAbandoned c) s = .next s) ∧
    (s.probeLost p = true → exec (.probeAbandoned c) s = .next ended ∧ exec (.deadlockReport c) s = .next ended) ∧
    (∀ l, s.probeLost p = false → s.reached p = some l → l.all s.saved? = false → exec (.deadlockReport c) s = .next s) ∧
    (∀ l, s.probeLost p = false → s.reached p = some l → l.all s.saved? = true →
      let d := s.knotOf p.id l.length (s.suspects p.id l)
      let found := decide (c ∈ d) && !(s.ctx c).knot && s.noStart p.id d && !s.stirs d && s.confirmed p d
      (found = true → exec (.deadlockReport c) s = .next (rest.report p d)) ∧
      (found = false → exec (.deadlockReport c) s = .next rest)))

/-! ### Power and heat (R25, R434 to R442) -/

/-- t is s with x for a quad, and nothing else changed. -/
def Sys2Proof.Claims.quadIs (s t : State) (q : QuadId) (x : Quad) : Prop :=
  (∀ p, t.quad p = if p = q then x else s.quad p) ∧ (∀ n, { t.tile n with quads := [] } = { s.tile n with quads := [] }) ∧
  { t with tiles := s.tiles } = s

/-- The point of a quad whose cores ask for full speed or not: a change is made, unless the last is younger than 1 ms: then
it is held (R434, R435). -/
def Sys2Proof.Claims.requested (full : Bool) (x : Quad) : Quad :=
  let n := max (max (if full then 0 else 3) (x.granted.getD 0)) (if x.throttled then 2 else 0)
  if n = x.op then { x with pendOp := none }
  else if x.trans = 0 then { x with op := n, pendOp := none, trans := 600000, stall := 601 }
  else { x with pendOp := some n }

/-- Whether a core of a quad asks for full speed: it has a slot that is ready (R252, R273), joined or detached, or a
command in a queue (R434). -/
def Sys2Proof.Claims.asks (s : State) (q : QuadId) : Bool :=
  (s.coresOn q).any (fun k => k.slots.any (fun c => s.slotReady c || (s.ctx c).member.isSome) ||
    !((s.core k).copyQ.isEmpty && (s.core k).matQ.isEmpty))

/-- The host is told that a quad's throttling has changed (R449). -/
def Sys2Proof.Claims.toldThrottle (s : State) (q : QuadId) : State :=
  match (s.tile q.tile).owner with
  | none => s
  | some p => s.hostEvent p [5, BitVec.ofNat 64 (s.throttledQuads p), BitVec.ofNat 64 s.time]

/-- R427, R434, R435, R438: a grant is lowered one point at a time, and only as its partition's cap calls for it, or, where it
has none, the limit of the module, for which the activation windows are lengthened first; a quad runs at the
lower of its request and its grant, at most OP2 while throttled; a change stalls it for 600 cycles and one younger than 1 ms is
held until the timer has run. That a grant may be raised again at any time and to any point is the model's choice (log entry 49). -/
def Sys2Proof.Claims.OperatingPoints : Prop :=
  ∀ (s : State) (q : QuadId) (op : Nat),
    let x := s.quad q
    let old := x.granted.getD 0
    let becomes (r : Step) (y : Quad) : Prop := ∃ t, quadIs s t q y ∧ r = .next t
    (op ≤ 3 → q.quad < 12 → op ≤ old ∨ (op = old + 1 ∧ s.mayLower q = true) →
      becomes (exec (.operatingPointGrant q op) s) (requested (asks s q) { x with granted := some op })) ∧
    (3 < op ∨ old + 1 < op ∨ (old < op ∧ s.mayLower q = false) → exec (.operatingPointGrant q op) s = .next s) ∧
    ((s.tile q.tile).owner = none → s.mayLower q = false) ∧
    (∀ p w, (s.tile q.tile).owner = some p → (s.part p).cap = some w → s.draw p ≤ w → s.mayLower q = false) ∧
    (∀ p, (s.tile q.tile).owner = some p → (s.part p).cap = none → (s.mayLower q && !s.overLimit) = false) ∧
    (∀ b, b < s.form.stacks * 16 → (s.bank b).win ≠ 32 → (s.mayLower q && s.overLimit) = false) ∧
    (x.trans = 0 → x.pendOp.isSome = true →
      becomes (exec (.transitionTimerExpiry q) s) (requested (asks s q) x)) ∧
    (x.trans ≠ 0 ∨ x.pendOp = none → exec (.transitionTimerExpiry q) s = .next s) ∧
    (x.stall = 1 → becomes (exec (.operatingPointChangeEnd q) s) { x with stall := 0 }) ∧
    (x.stall ≠ 1 → exec (.operatingPointChangeEnd q) s = .next s)

/-- R436: a quad at its threshold is throttled from that sample on; readings above three degrees below it restart the hold
timer; a hold timer of 1 ms ends the throttling. -/
def Sys2Proof.Claims.Throttling : Prop :=
  ∀ (s : State) (q : QuadId),
    let x := s.quad q
    let thr := s.fw.threshold
    (∀ d, d ≤ 255 → q.quad < 12 → q.tile < s.form.tiles →
      let y : Quad := { x with
        reading := d, throttled := x.throttled || decide (thr ≤ d), hold := if d + 3 ≤ thr then x.hold else 0 }
      (x.throttled = true ∨ d < thr → ∃ t, exec (.thermalSample q d) s = .next t ∧ quadIs s t q y) ∧
      (x.throttled = false → thr ≤ d → ∃ u t, exec (.thermalSample q d) s = .next t ∧ quadIs s u q y ∧
        quadIs (toldThrottle u q) t q (requested (asks s q) y))) ∧
    (∀ d, 255 < d ∨ 12 ≤ q.quad ∨ s.form.tiles ≤ q.tile → exec (.thermalSample q d) s = .next s) ∧
    (x.throttled = true → 600000 ≤ x.hold → ∃ u t, exec (.holdTimerExpiry q) s = .next t ∧
      quadIs s u q { x with throttled := false, hold := 0 } ∧
      quadIs (toldThrottle u q) t q (requested (asks s q) { x with throttled := false, hold := 0 })) ∧
    (x.throttled = false ∨ x.hold < 600000 → exec (.holdTimerExpiry q) s = .next s)

/-- R427, R434 to R436: operating points and throttling. -/
def Obligations.PointsAndThrottling : Prop := OperatingPoints ∧ Throttling

/-- A core has a ready slot of its own, which no swarm member stands in (R335, R437). -/
def Sys2Proof.Claims.movable (s : State) (k : CoreId) : Prop :=
  ∃ c ∈ k.slots, s.slotReady c = true ∧ (s.ctx c).member = none

/-- R25, R181, R267, R280, R371, R400, R403, R437: the lowest core with a ready slot of a throttled quad moves, once its contexts
stand at a boundary, to an idle core of its kind in a quad
at least 10 degrees cooler, the coolest first; a tile begins no second move within 1 ms. At the end the table entries have
changed places, the caches of both cores are empty and the curator has been told; contexts keep all but their monitors, and
memory and translations are untouched. That a fill which has arrived for a core is read anew afterwards is the model's reading
(log entry 90 says how a monitor is armed again). -/
def Sys2Proof.Claims.ThermalMigration : Prop :=
  (∀ (s : State) (q : QuadId) (k : CoreId), s.hotCore q = some k →
    let v := s.vtile k.vt
    let mat := (s.core k).matPhase
    k ∈ s.coresOn q ∧ movable s k ∧ (∀ j ∈ s.coresOn q, movable s j → k.core ≤ j.core) ∧
    (∀ pc, s.coolCore q k = some pc → pc < 48 ∧ s.idleCore k.vt (s.lcAt k.vt pc) = true ∧
      s.wideCore k.vt (s.lcAt k.vt pc) = s.wideCore k.vt k.core ∧
      (s.quad ⟨q.tile, pc / 4⟩).reading + 10 ≤ (s.quad q).reading ∧
      (∀ p, p < 48 → s.idleCore k.vt (s.lcAt k.vt p) = true → s.wideCore k.vt (s.lcAt k.vt p) = s.wideCore k.vt k.core →
        (s.quad ⟨q.tile, pc / 4⟩).reading < (s.quad ⟨q.tile, p / 4⟩).reading ∨
        ((s.quad ⟨q.tile, pc / 4⟩).reading = (s.quad ⟨q.tile, p / 4⟩).reading ∧ pc ≤ p)) ∧
      ((s.quad q).throttled = true → s.running k.vt = true → ((s.stopOf k.vt).bind (·.t)) = none →
        (∀ n, (s.tile q.tile).lastMove = some n → n + 600000 ≤ s.time) → (s.core k).moving = false →
        (∀ m ∈ s.thermals, m.vt ≠ k.vt) → mat ≠ .effect → mat ≠ .completion → s.atBoundary k = true →
        ∃ t, exec (.thermalMigration q) s = .next t ∧
          t.thermals = s.thermals ++ [⟨k.vt, k.core, v.lpct.getD k.core k.core, pc⟩] ∧
          (t.core k).moving = true ∧ (t.core ⟨k.vt, s.lcAt k.vt pc⟩).moving = true ∧
          (t.tile q.tile).lastMove = some s.time ∧ t.ctxs = s.ctxs ∧ t.mem = s.mem ∧ t.vtiles = s.vtiles)) ∧
    ((s.quad q).throttled = false ∨ s.running k.vt = false ∨ s.coolCore q k = none ∨ (s.core k).moving = true ∨ s.atBoundary k = false ∨
        ((s.stopOf k.vt).bind (·.t)).isSome = true ∨ (∃ n, (s.tile q.tile).lastMove = some n ∧ s.time < n + 600000) →
      exec (.thermalMigration q) s = .next s)) ∧
  (∀ (s : State) (q : QuadId), s.hotCore q = none → exec (.thermalMigration q) s = .next s) ∧
  (∀ (s : State) (n : Nat) (m : Thermal), s.thermals = [m] → (s.vtile m.vt).ptile = n →
    let k : CoreId := ⟨m.vt, m.core⟩
    let l : CoreId := ⟨m.vt, s.lcAt m.vt m.dst⟩
    s.written? k = true → s.written? l = true →
    (s.quad ⟨n, m.src / 4⟩).stall = 0 → (s.quad ⟨n, m.dst / 4⟩).stall = 0 →
    let swapped := ((s.vtile m.vt).lpct.set m.core m.dst).set l.core m.src
    let empty (j : CoreId) : Core := { s.core j with cache := [], tlb := [], stale := s.fillsAt j, moving := false }
    ∃ t, exec (.thermalMigrationComplete n) s = .next t ∧ t.thermals = [] ∧
      (∀ j, t.core j = if j = k ∨ j = l then empty j else s.core j) ∧
      t.mem = s.mem ∧ (∀ v, t.vtile v = if v = m.vt then { s.vtile v with lpct := swapped } else s.vtile v) ∧
      (∀ j, t.tile j = if j = n then (s.tile n).moveSpares m.src m.dst else s.tile j) ∧
      (∀ c, c.coreId ≠ k → t.ctx c = s.ctx c) ∧
      (∀ c, { t.ctx c with mon := (s.ctx c).mon } = s.ctx c) ∧
      (t.part m.vt.part).offered = (s.part m.vt.part).offered ++ [{
        part := m.vt.part, col := m.vt.col, gang := (s.vtile m.vt).gang, vt := some m.vt, cause := 0x22, kind := 2
        val := BitVec.ofNat 64 m.core, w4 := BitVec.ofNat 64 m.src, w5 := BitVec.ofNat 64 m.dst, tile := n
        time := s.time }])

/-- R438, R440 to R442: an activation window moves by eighths of its nominal length, from it to four times it; a quad sleeps
after 6,000 cycles without work, wakes for what reaches it, runs again after 1,200 cycles, and is powered off only while its
tile holds no vtile and no access is outstanding at its port. Sleep keeps what the port holds and puts behind it what is on its
way. The number of banks is log entry 88, what counts as outstanding log entry 98. -/
def Sys2Proof.Claims.SleepAndWindows : Prop :=
  (∀ (s : State) (b n : Nat) (up : Bool), (s.bank b).win = n →
    (s.form.stacks * 16 ≤ b → exec (.activationWindowAdjust b up) s = .next s) ∧
    (b < s.form.stacks * 16 → ∃ t, exec (.activationWindowAdjust b up) s = .next t ∧ { t with banks := s.banks } = s ∧
      ∀ i, t.bank i = if i ≠ b then s.bank i
        else { s.bank b with win := if up then (if n < 32 then n + 1 else n) else if 8 < n then n - 1 else n })) ∧
  (∀ (s : State) (q : QuadId),
    let x := s.quad q
    let turns (r : Step) (y : Quad) : Prop := ∃ t, r = .next t ∧ quadIs s t q y
    let rests : Prop := ∀ k ∈ s.coresOn q, (s.core k).copyQ = [] ∧ (s.core k).matQ = [] ∧
      ∀ c ∈ k.slots, (s.ctx c).restful = true
    let noBulk : Prop := ∀ h ∈ s.copyHeads q, ∃ k, h.2 = .fifo k
    (x.power = .awake → 6000 ≤ x.idle → rests → noBulk →
      turns (exec (.quadSleep q) s) { x with power := .asleep, held := x.held ++ s.onWay q }) ∧
    (x.power ≠ .awake ∨ x.idle < 6000 ∨ ¬ rests ∨ ¬ noBulk → exec (.quadSleep q) s = .next s) ∧
    (x.power = .asleep → ¬ rests ∨ ¬ noBulk ∨ x.held ≠ [] → turns (exec (.quadWake q) s) { x with power := .waking, wake := 1200, idle := 0 }) ∧
    (∀ v c, x.power = .asleep → (s.tile q.tile).vtile = some v → c.vt = v → (s.ctx c).prog.need = .quad q.quad →
      turns (exec (.quadWake q) s) { x with power := .waking, wake := 1200, idle := 0 }) ∧
    (x.power ≠ .asleep → exec (.quadWake q) s = .next s) ∧
    (x.power = .waking → x.wake = 0 → turns (exec (.quadWakeComplete q) s) { x with power := .awake, idle := 0 }) ∧
    (x.power ≠ .waking ∨ x.wake ≠ 0 → exec (.quadWakeComplete q) s = .next s) ∧
    ((s.tile q.tile).vtile = none → s.outstanding q = 0 → q.quad < 12 → q.tile < s.form.tiles →
      turns (exec (.quadPowerOff q) s) { x with power := .off, idle := 0, wake := 0 }) ∧
    ((s.tile q.tile).vtile ≠ none ∨ s.outstanding q ≠ 0 → exec (.quadPowerOff q) s = .next s))

/-- R25, R267, R280, R371, R403, R437 to R443: thermal migration, activation windows and sleep. -/
def Obligations.MigrationAndSleep : Prop := ThermalMigration ∧ SleepAndWindows

/-! ### Tokens, records, keys, grades and remaps (R241, R242, R246, R425, R426, R428 to R430) -/

/-- R425, R426: a refill boundary. Recalls are settled first, then half of a borrower's refill repays, then what is left of
each refill is its partition's own, up to DEPTH: without debts, and with the one debt d of borrower b to lender l. -/
def Obligations.TokenRefill : Prop :=
  ∀ s : State,
    let due : Prop := s.refills < s.time / 600
    let owed (b l : Nat) : Nat := NMap.get 0 (s.part b).debt l
    (¬ due → exec .tokenRefill s = .next s) ∧
    (due → (∀ b l, b < 16 → l < 16 → owed b l = 0) → ∃ t, exec .tokenRefill s = .next t ∧
      t.refills = s.refills + 1 ∧ { t with refills := s.refills, parts := s.parts } = s ∧
      ∀ p, t.part p = if p < 16 then
        let q := s.part p
        { q with recalled := false, tokens := min (q.tokens + q.rate) q.depth } else s.part p) ∧
    (∀ b l, due → b < 16 → l < 16 → b ≠ l → owed b l ≠ 0 →
      (∀ i j, i < 16 → j < 16 → ¬ (i = b ∧ j = l) → owed i j = 0) →
      let d := owed b l
      let x := s.part b
      let y := s.part l
      ∃ t, exec .tokenRefill s = .next t ∧ t.refills = s.refills + 1 ∧
        { t with refills := s.refills, parts := s.parts } = s ∧
        (∀ p, p ≠ b → p ≠ l → t.part p = if p < 16 then
          let q := s.part p
          { q with recalled := false, tokens := min (q.tokens + q.rate) q.depth } else s.part p) ∧
        { t.part b with tokens := x.tokens, debt := x.debt } = { x with recalled := false } ∧
        (∀ j, j ≠ l → NMap.get 0 (t.part b).debt j = NMap.get 0 x.debt j) ∧
        (let back := if y.recalled then d else min d (x.rate / 2)
         t.part l = { y with recalled := false, tokens := min (max y.tokens (min (y.tokens + back) y.depth) + y.rate) y.depth } ∧
         owed b l = d ∧ NMap.get 0 (t.part b).debt l = d - back ∧
         (t.part b).tokens = if y.recalled then min (x.tokens - d + x.rate) x.depth
           else min (x.tokens + (x.rate - back : Nat)) x.depth))

/-- R429, R430: a record as it is closed: it follows the last in number, holds its hash, and every 60th is signed. -/
abbrev Sys2Proof.Claims.closed (s t : State) (p kind : Nat) : Prop :=
  let q := s.part p
  ∃ r : Record, r.seq = q.recSeq + 1 ∧ r.time = s.time ∧ r.kind = kind ∧ r.model = s.fw.model ∧ r.epoch = q.keyepoch.toNat ∧
    r.prev = q.lastHash ∧ r.totals = s.totals p ∧
    (r.signed = true ↔ kind = 1 ∨ kind = 3 ∨ (q.recSeq + 1) % 60 = 0) ∧
    t.part p = { q with
      records := q.records ++ [r], recSeq := q.recSeq + 1, lastHash := beNat (sha384 (r.bytes p)), logLast := s.time } ∧
    (∀ n, n ≠ p → t.part n = s.part n) ∧ { t with parts := s.parts } = s

/-- R428 to R430: records are 192 bytes and close at the partition's interval; with the ring full none does. -/
def Sys2Proof.Claims.AccessionRecords : Prop :=
  (∀ (r : Record) (p : Nat), (r.bytes p).length = 192 ∧ (r.entry p).length = 288) ∧
  (∀ (s : State) (p : Nat),
    let q := s.part p
    let due : Prop := q.valid = true ∧ q.logLast + q.logInt * 600000 ≤ s.time
    (¬ due → exec (.logIntervalClose p) s = .next s) ∧
    (due → q.records.length < 65536 → ∃ t, exec (.logIntervalClose p) s = .next t ∧ closed s t p 0) ∧
    (due → 65536 ≤ q.records.length → ∃ t, exec (.logIntervalClose p) s = .next t ∧
      (∀ n, t.part n = if n = p then { q with logLast := s.time } else s.part n) ∧ { t with parts := s.parts } = s))

/-- R241, R242, R246, R428: a key change takes the lines of a granule in use one at a time, which the usage
counters see, and the last of them makes the new key
the key, raises KEYEPOCH and tells the host; a grade change clears the granule's free side bits once its writes are done; a
remap copies line by line and then the spare channel serves. No byte of memory changes. The record of a key change that a full
ring drops is log entry 60, the grade change answered at its end log entry 54, the bytes that re-encryption counts log entry 23,
the lines that count log entry 58, the functions told of event 4 log entry 61 (the model's readings). -/
def Sys2Proof.Claims.MemoryUpkeep : Prop :=
  (∀ (s : State) (line : Nat),
    let g := line / 1024
    let e := NMap.get 0 s.granules g
    let p := (e.extractLsb' 0 4).toNat
    let q := s.part p
    let ready : Prop := e.getLsbD 4 = true ∧ s.cleared g = false ∧ q.newkey.isSome = true ∧ s.homeFree (line * 64) = true ∧
      NSet.mem q.rekeyed line = false
    (¬ ready → exec (.keyReencryptLine line) s = .next s) ∧
    let q' := ((s.tallyHbm g 5 64).tallyHbm g 6 64).part p
    (ready → ∃ u, (∀ n, u.part n = if n = p then { q' with rekeyed := NSet.ins q.rekeyed line } else s.part n) ∧
      { u with parts := s.parts } = s ∧
      (u.rekeyDone p = false → exec (.keyReencryptLine line) s = .next u) ∧
      (u.rekeyDone p = true → ∃ v w, exec (.keyReencryptLine line) s = .next (w.hostEvent p [3, (q.keyepoch + 1).setWidth 64]) ∧
        (∀ n, v.part n = if n = p then { q' with
          key := q.newkey, newkey := none, rekeyed := [], keyepoch := q.keyepoch + 1 } else s.part n) ∧
        { v with parts := s.parts } = s ∧
        (65536 ≤ q.records.length → w = v) ∧ (q.records.length < 65536 → closed v w p 2)))) ∧
  (∀ (s : State) (g : Nat),
    ((∀ r ∈ s.regrades, r.gran ≠ g) → exec (.gradeReencode g) s = .next s) ∧
    (∀ r, s.regrades = [r] → r.gran = g →
      (s.writesTo g = true ∨ NSet.mem s.zeroing g = true → exec (.gradeReencode g) s = .next s) ∧
      (s.writesTo g = false → NSet.mem s.zeroing g = false → r.grade < 4 → ∃ u : State,
        exec (.gradeReencode g) s = .next (u.answer r.func r.tag 0 []) ∧ u.regrades = [] ∧
        (let e := NMap.get 0 s.granules g
         let e' : BitVec 8 := e.extractLsb' 7 1 ++ BitVec.ofNat 2 r.grade ++ e.extractLsb' 0 5
         (∀ j, NMap.get 0 u.granules j = if j = g then e' else NMap.get 0 s.granules j)) ∧
        (∀ l, NMap.get 0 u.side l = if l / 1024 = g then 0 else NMap.get 0 s.side l) ∧
        { u with granules := s.granules, side := s.side, regrades := s.regrades } = s))) ∧
  (∀ (s : State) (k : Nat),
    ((∀ r ∈ s.remaps, r.stack ≠ k) → exec (.hbmRemapLineCopy k) s = .next s) ∧
    (∀ r, s.remaps = [r] → r.stack = k →
      (r.line + 1 < 2 ^ 26 → exec (.hbmRemapLineCopy k) s = .next { s with remaps := [{ r with line := r.line + 1 }] }) ∧
      (2 ^ 26 ≤ r.line + 1 → ∃ u : State, u.remaps = [] ∧
        (∀ j, NMap.get 0 u.spare j = if j = k then r.channel + 1 else NMap.get 0 s.spare j) ∧
        { u with remaps := s.remaps, spare := s.spare } = s ∧
        (let v := u.hostEvent 16 [4, BitVec.ofNat 64 k, BitVec.ofNat 64 r.channel]
         exec (.hbmRemapLineCopy k) s = .next (match r.tag with
          | some n => v.answer 16 n 0 []
          | none => v)))))

/-- R241, R242, R246, R428 to R430: accession records, key changes, grades and remaps. -/
def Obligations.RecordsAndUpkeep : Prop := AccessionRecords ∧ MemoryUpkeep

/-! ### Gangs: the stop, the save, placement, tests (R15 to R29, R95 to R104, R350 to R353, R418) -/

/-- The context waits for a page walk. -/
def Sys2Proof.Claims.awaitsWalk (x : Ctx) : Bool :=
  match x.prog.need with
  | .walk _ => true
  | _ => false

/-- R95 to R97, R101, R325, R372: a stop notice takes a count at least 4,096 cycles away and wakes its tiles; a tile that
misses three notices in a row has missed the save; at the count issue stops, the vtiles are absent, walks are abandoned and
routers hold the packets under way to them, which go to their save buffers; a router is swept once a token has come on every
input and it holds nothing for the set; buffers drain to the park queue, poisoned where a word is lost. No register and no byte
of memory changes at the notice. Which routers take part in sweeping, and when one is swept, is log entry 85 (the model's reading). -/
def Sys2Proof.Claims.StopNoticesAndFlush : Prop :=
  ∀ (s : State) (g : GangId),
    (s.haltOf g = none → (∀ n, exec (.stopNotice g n) s = .next s ∧ exec (.stopAckDeadline g n) s = .next s ∧
      exec (.flushTokenArrival g n) s = .next s ∧ ∀ l, exec (.saveBufferDrain g ⟨n, l⟩) s = .next s) ∧
      exec (.stopCount g) s = .next s ∧ exec (.saveTimeout g) s = .next s) ∧
    (∀ h, s.haltOf g = some h →
      (∀ n, h.t = none → s.time + 4096 ≤ n →
        let vs := (s.vtilesOf h.gangs).map (fun v => (v, (s.vtile v).ptile))
        ∃ t, exec (.stopNotice g n) s = .next t ∧ t.haltOf g = some { h with
            t := some n, tiles := vs, missed := [], misses := NMap.keep h.misses (fun k => NSet.mem h.missed k) } ∧
          t.ctxs = s.ctxs ∧ t.cores = s.cores ∧ t.mem = s.mem ∧
          (∀ e ∈ vs, ∀ q, q < 12 → (t.quad ⟨e.2, q⟩).power ≠ .asleep)) ∧
      (∀ n, h.t.isSome = true ∨ n < s.time + 4096 → exec (.stopNotice g n) s = .next s) ∧
      (∀ k v, (∃ n, h.t = some n ∧ h.halted = false ∧ n ≤ s.time + 1024) ∨ (h.t = none ∧ h.missed ≠ []) →
        NSet.mem h.late k = false → NSet.mem h.missed k = false →
        h.tiles.find? (fun e => decide (e.2 = k)) = some (v, k) →
        let h' := { h with misses := NMap.set 0 h.misses k (NMap.get 0 h.misses k + 1), missed := NSet.ins h.missed k }
        (NMap.get 0 h.misses k < 2 → ∃ t, exec (.stopAckDeadline g k) s = .next t ∧ { t with stops := s.stops } = s ∧
          t.haltOf g = some { h' with t := none }) ∧
        (2 ≤ NMap.get 0 h.misses k → ∃ t, exec (.stopAckDeadline g k) s = .next t ∧ (t.gang (s.gangOf v)).st = .lost ∧
          (t.tile k).testing = true ∧ ⟨k, .core⟩ ∈ t.tests ∧
          t.haltOf g = some { h' with late := NSet.ins h.late k } ∧ t.mem = s.mem ∧
          (t.part h.part).offered = (s.part h.part).offered ++ [{
            part := h.part, col := v.col, gang := (s.vtile v).gang, cause := 0x24, kind := 1, lost := true
            val := BitVec.ofNat 64 k, w4 := BitVec.ofNat 64 k, tile := k, time := s.time }])) ∧
      (∀ n, h.t = some n → h.halted = true ∨ s.time < n → exec (.stopCount g) s = .next s) ∧
      (∀ n, h.t = some n → h.halted = false → n ≤ s.time → (∀ m ∈ s.thermals, ∀ e ∈ h.tiles, e.1 ≠ m.vt) →
        ∃ t, exec (.stopCount g) s = .next t ∧ t.haltOf g = some { h with halted := true } ∧
          (∀ v, t.vtile v = if h.tiles.any (fun e => decide (e.1 = v)) = true then
              { s.vtile v with res := false, issue := false, misses := [] } else s.vtile v) ∧
          (∀ c, t.ctx c =
            if h.tiles.any (fun e => (s.vtile e.1).misses.any (fun m => m.ofCtx c)) && awaitsWalk (s.ctx c) then
              { s.ctx c with prog := {} } else s.ctx c) ∧
          t.mem = s.mem ∧ (∀ p ∈ t.probes, ∀ e ∈ h.tiles, e.1 ≠ p.init.vt) ∧
          (∀ k ∈ t.net, h.mine k = true → k.waits = false →
            ∃ r, k.router = some r ∧ 256 ≤ (t.tile r).saveBuf.length)) ∧
      (∀ r, h.halted = true → r < s.form.tiles →
        let n := min (NMap.get 0 h.tokens r + 1) (Config.routerInputs r)
        ∃ t, exec (.flushTokenArrival g r) s = .next t ∧
          t.haltOf g = some { h with
            tokens := NMap.set 0 h.tokens r n
            swept := if n = Config.routerInputs r ∧ (∀ k ∈ t.net, h.mine k = true → k.router ≠ some r) then NSet.ins h.swept r else h.swept } ∧
          t.ctxs = s.ctxs ∧ t.mem = s.mem) ∧
      (∀ r k rest l, h.halted = true → (s.tile r).saveBuf = k :: rest →
        let k' := { k with poison := k.poison || l, router := none }
        ∃ u : State, (∀ n, u.tile n = if n = r then { s.tile r with saveBuf := rest } else s.tile n) ∧ { u with tiles := s.tiles } = s ∧
          ((∀ f o, k.body ≠ .forager f o) → exec (.saveBufferDrain g ⟨r, l⟩) s = .next (u.parkPacket k').divert) ∧
          (∀ f o, k.body = .forager f o → exec (.saveBufferDrain g ⟨r, l⟩) s = .next (u.parkForager k' o).divert)) ∧
      (∀ r l, (s.tile r).saveBuf = [] ∨ h.halted = false → exec (.saveBufferDrain g ⟨r, l⟩) s = .next s))

/-- R98, R101, R350, R352: the save of a tile begins once it has settled and the flush has ended, and loses caches,
translations and lines but no register and no byte; with the last tile's part the stop ends: a gang swapped out quiescent is
absent, one that ran out its quantum joins the tail, one whose tile was retired the head, one that no longer fits waits outside
the queue; a tile not done in time loses its gang. The bytes that a save counts are log entry 65, and that gangs stopped for a
test return to the head of the queue is log entry 71 (the model's readings). -/
def Sys2Proof.Claims.SavesEndStops : Prop :=
  (∀ (s : State) (v : VtId), s.stopOf v = none →
    exec (.tileContextSave v) s = .next s ∧ exec (.tileSaveDone v) s = .next s) ∧
  (∀ (s : State) (v : VtId) (h : Halt), s.stopOf v = some h →
    (h.halted = false ∨ v ∈ h.saving → exec (.tileContextSave v) s = .next s) ∧
    (h.halted = true → v ∉ h.saving → (∃ n, (v, n) ∈ h.tiles) → s.settledVt v = true → s.flushed h = true →
      ∃ t, exec (.tileContextSave v) s = .next t ∧ t.haltOf (s.gangOf v) = some { h with saving := h.saving ++ [v] } ∧
        t.mem = s.mem ∧ t.pois = s.pois ∧
        (∀ c, c.vt ≠ v → t.ctx c = s.ctx c) ∧
        (∀ c, c.vt = v → { t.ctx c with line := (s.ctx c).line, yielded := (s.ctx c).yielded, prog := (s.ctx c).prog } = s.ctx c ∧
          (t.ctx c).line = none) ∧
        (∀ k, k.vt = v → (t.core k).cache = [] ∧ (t.core k).tlb = []) ∧
        (t.vtile v).tlb = [] ∧ (t.vtile v).ptrs = [] ∧ (t.tile (s.vtile v).ptile).ni = []) ∧
    (v ∉ h.saving ∨ v ∈ h.saved → exec (.tileSaveDone v) s = .next s) ∧
    (v ∈ h.saving → v ∉ h.saved → (∃ e ∈ h.tiles, e.1 ≠ v ∧ e.1 ∉ h.saved ∧ NSet.mem h.late e.2 = false) →
      ∃ t, exec (.tileSaveDone v) s = .next t ∧ t.haltOf (s.gangOf v) = some { h with saved := h.saved ++ [v] } ∧
        { t with stops := s.stops } = s.sysWrite v.part contextBytes)) ∧
  (∀ (s : State) (v : VtId) (h : Halt) (g : GangId), s.stops = [h] → h.gangs = [g] → s.gangOf v = g → v ∈ h.saving →
    v ∉ h.saved → (∀ e ∈ h.tiles, e.1 = v ∨ e.1 ∈ h.saved) → s.unitOf g = [g] → (s.part g.part).curcol ≠ g.col →
    (s.gang g).st = .resident →
    let rest := (s.part g.part).runq.filter (fun e => decide (e ≠ s.entryOf g))
    ∃ t, exec (.tileSaveDone v) s = .next t ∧ t.stops = [] ∧ (t.gang g).stopping = false ∧
      t.mem = (s.sysWrite v.part contextBytes).mem ∧ t.ctxs = s.ctxs ∧
      (∀ w ∈ s.vtilesOf [g], (t.vtile w).res = false ∧ (t.tile (s.vtile w).ptile).vtile ≠ some w) ∧
      (s.shortfall g.part [g] ≠ 0 → (t.gang g).st = .absent ∧ (t.gang g).summoned = true) ∧
      (s.shortfall g.part [g] = 0 →
        (g ∉ h.heads → h.why = .quiescent → (s.gang g).summoned = false → (t.gang g).st = .absent) ∧
        (g ∉ h.heads → h.why = .quantum → (t.gang g).st = .queued ∧ ((s.colony g.part g.col).cores = false →
          (t.part g.part).runq = rest ++ [s.entryOf g])) ∧
        ((g ∈ h.heads ∧ h.why ≠ .free) ∨ h.why = .retired → (t.gang g).st = .queued ∧
          ((s.colony g.part g.col).cores = false → (t.part g.part).runq = s.entryOf g :: rest)))) ∧
  (∀ (s : State) (h : Halt) (g : GangId) (n : Nat), s.stops = [h] → g ∈ h.gangs → h.t = some n →
    (h.halted = false ∨ s.time < n + (s.part h.part).saveto * 600 → exec (.saveTimeout g) s = .next s) ∧
    (h.halted = true → n + (s.part h.part).saveto * 600 ≤ s.time →
      ∃ t, exec (.saveTimeout g) s = .next t ∧ t.stops = [] ∧
        ∀ v k, (v, k) ∈ h.tiles → v ∉ h.saved → NSet.mem h.late k = false →
          (∀ e ∈ h.tiles, e.2 = k → e.1 = v) → s.gangOf v ∈ h.gangs →
          (t.gang (s.gangOf v)).st = .lost ∧ (t.tile k).testing = true))

/-- R95 to R102, R325, R350, R352, R372: a synchronised stop from its notice to its end. -/
def Obligations.SynchronisedStop : Prop := StopNoticesAndFlush ∧ SavesEndStops

/-- R15, R23, R100, R350 to R352, R418: vtiles are placed one to a tile, those that use FP64 on tiles with a wide core; the
head of the queue is placed if it fits, leaves the queue if it cannot ever, and waits outside it for a tree channel; in the
cycle before the start count the network finds the unit again, and at the count it is resident and issues; the lowest free channel goes to the colony that has waited longest. That the channel is taken at GANG_PLACEMENT, apart from and before the placement itself, is
log entry 43; that a gang which leaves the queue counts as having a held summons is log entry 108 (the model's choices). -/
def Sys2Proof.Claims.Placement : Prop :=
  (∀ (s : State) (vs : List VtId) (free : List Nat), free.Nodup →
    let wide := vs.filter (fun v => (s.vtile v).mask.getLsbD 0)
    ((s.assign vs free).isSome = true ↔
      wide.length ≤ (free.filter s.tileWide).length ∧ vs.length ≤ free.length) ∧
    ∀ l, s.assign vs free = some l → (l.map (·.1)).Perm vs ∧ (l.map (·.2)).Nodup ∧
      ∀ e ∈ l, e.2 ∈ free ∧ ((s.vtile e.1).mask.getLsbD 0 = true → s.tileWide e.2 = true)) ∧
  (∀ (s : State) (p n : Nat),
    let q := s.part p
    (q.runq = [] ∨ q.state ≠ 1 ∨ n < s.time + 2 → exec (.gangPlacement p n) s = .next s) ∧
    (∀ e r, q.runq = e :: r → q.state = 1 → s.time + 2 ≤ n →
      let u := s.entryGangs p e
      let c := s.colony p e.1
      (s.shortfall p u ≠ 0 → (∀ g ∈ u, s.entryOf g = e ∧ g.part = p) → u ≠ [] →
        ∃ t, exec (.gangPlacement p n) s = .next t ∧ (∀ g ∈ u, (t.gang g).st = .absent ∧ (t.gang g).summoned = true) ∧
          e ∉ (t.part p).runq ∧ t.vtiles = s.vtiles ∧ t.tiles = s.tiles ∧ t.mem = s.mem) ∧
      (s.shortfall p u = 0 → c.cores = true → c.tree = none →
        (∀ k, s.treeWait = [] → s.freeTree = some k → ∃ t, exec (.gangPlacement p n) s = .next t ∧ { t with colonies := s.colonies } = s ∧
          ∀ j, t.colony j.1 j.2 = if j = (p, e.1) then { c with tree := some k } else s.colony j.1 j.2) ∧
        (s.treeWait ≠ [] ∨ s.freeTree = none → ∃ u' : State, { u' with parts := s.parts, gangs := s.gangs } = s ∧ (u'.part p).runq = r ∧
          (∀ g ∈ u, (u'.gang g).st = .absent) ∧ exec (.gangPlacement p n) s = .next (u'.waitTree p e.1))) ∧
      (s.shortfall p u = 0 → c.cores = false ∨ c.tree.isSome = true →
        (s.assign (s.vtilesOf u) (s.freeTiles p) = none → exec (.gangPlacement p n) s = .next s) ∧
        (∀ l, s.assign (s.vtilesOf u) (s.freeTiles p) = some l → (l.map (·.1)).Nodup → (l.map (·.2)).Nodup →
          s.unitOf (u.headD ⟨p, e.1, 0⟩) = u →
          ∃ t, exec (.gangPlacement p n) s = .next t ∧ (t.part p).runq = r ∧ t.mem = s.mem ∧
            (∀ g ∈ u, t.gang g = { s.gang g with st := .queued, placing := true, start := some n }) ∧
            ∀ v k, (v, k) ∈ l → (t.vtile v).ptile = k ∧ (t.tile k).vtile = some v ∧ (t.vtile v).lpct = List.range 48 ∧
              (t.vtile v).res = (s.vtile v).res ∧ (t.vtile v).tlb = [] ∧ (t.tile k).ni = [])))) ∧
  (∀ (s : State) (g : GangId),
    let u := s.unitOf g
    let vs := s.vtilesOf u
    ((s.gang g).placing = false ∨ s.time + 1 < (s.gang g).start.getD 0 → exec (.gangStartCount g) s = .next s) ∧
    ((s.gang g).placing = true → (s.gang g).start.getD 0 = s.time + 1 → (∀ k ∈ (s.part g.part).parkQ, k.dst.vt ∉ vs) →
      ∃ t, exec (.gangStartCount g) s = .next t ∧ { t with vtiles := s.vtiles, tiles := s.tiles } = s ∧
        (∀ n, (t.tile n).ni = (s.tile n).ni.filter (fun e => decide (e.vt ∉ vs))) ∧
        ∀ v, t.vtile v = if v ∈ vs then { s.vtile v with res := true } else s.vtile v) ∧
    ((s.gang g).placing = true → (s.gang g).start.getD 0 ≤ s.time →
      (∀ k ∈ (s.part g.part).parkQ, k.dst.vt ∉ vs) → (∀ k, k.vt ∈ vs → (s.core k).copyQ = []) →
      ∃ t, exec (.gangStartCount g) s = .next t ∧ t.mem = s.mem ∧ t.ctxs = s.ctxs ∧
        (∀ v, t.vtile v = if v ∈ vs then { s.vtile v with res := true, issue := true } else s.vtile v) ∧
        (∀ j, t.gang j = if j ∈ u then { s.gang j with
          st := .resident, placing := false, start := none, since := s.time, expired := false, summoned := false }
          else s.gang j))) ∧
  (∀ s : State,
    (∀ n, s.freeTree = some n → n < 32 ∧ (∀ e ∈ s.colonies, e.2.tree ≠ some n) ∧
      ∀ m, m < n → ∃ e ∈ s.colonies, e.2.tree = some m) ∧
    (s.treeWait = [] ∨ s.freeTree = none → exec .treeChannelAssigned s = .next s) ∧
    (∀ p k r n, s.treeWait = (p, k) :: r → s.freeTree = some n → (s.part p).curcol ≠ k →
      ∃ t, exec .treeChannelAssigned s = .next t ∧ t.treeWait = r ∧ (t.colony p k).tree = some n ∧
        (t.part p).runq = (k, none) :: (s.part p).runq.filter (fun e => decide (e ≠ (k, none))) ∧
        (∀ g ∈ s.gangsOf p k, (t.gang g).st = .queued) ∧ t.mem = s.mem ∧ t.ctxs = s.ctxs))

/-- R20, R27, R102 to R104, R234, R242, R352: a gang's quantum ends; a pre-empted partition stops every gang and runs again on request; an
error starts a test of its unit, after a stop of the gang where the unit runs it, and what is lost is marked; a lasting fault takes a spare row, a wide
core's FP64 unit, the channel or the tile, whose mask bits are set unless its latch has still to count (R414). The loss of every line found wrong under
grade P is log entry 25 (the model's reading). -/
def Sys2Proof.Claims.QuantaPreemptionTests : Prop :=
  (∀ (s : State) (g : GangId),
    let x := s.gang g
    let due : Prop := x.st = .resident ∧ x.since + (s.part g.part).quantum * 600000 ≤ s.time
    (¬ due → exec (.quantumExpiry g) s = .next s) ∧
    (due → ∃ t, exec (.quantumExpiry g) s = .next t ∧ (t.gang g).expired = true ∧ t.mem = s.mem ∧ t.ctxs = s.ctxs ∧
      ((s.part g.part).runq = [] → (∀ j, t.gang j = if j = g then { x with expired := true } else s.gang j) ∧
        { t with gangs := s.gangs } = s))) ∧
  (∀ (s : State) (p : Nat),
    let q := s.part p
    (q.valid = false ∨ q.state ≠ 1 → exec (.partitionPreEmption p) s = .next s) ∧
    (q.valid = true → q.state = 1 → ∃ t, exec (.partitionPreEmption p) s = .next t ∧ (t.part p).state = 2 ∧
      (∀ g, g.part = p → (t.gang g).st = .resident → (t.gang g).stopping = true) ∧ t.mem = s.mem ∧ t.ctxs = s.ctxs) ∧
    (q.valid = false ∨ q.state ≠ 2 ∨ (∃ h ∈ s.stops, h.part = p) ∨ (s.upkeep.busy = true ∧ s.form ≠ .sw2304) →
      exec (.partitionResumption p) s = .next s) ∧
    (q.valid = true → q.state = 2 → (∀ h ∈ s.stops, h.part ≠ p) → s.upkeep.busy = false ∨ s.form = .sw2304 →
      q.heldSummons = [] → ∃ t, exec (.partitionResumption p) s = .next t ∧
        (∀ n, t.part n = if n = p then { q with state := 1 } else s.part n) ∧
        (∀ e ∈ t.hqs, e.2.part = p → e.2.stalled = false) ∧ { t with parts := s.parts, hqs := s.hqs } = s)) ∧
  (∀ (s : State) (n : Nat) (u : UnitId),
    let x := s.tile n
    let runs : Prop := u = .core ∨ ∃ w, u = .fp64 w
    (x.retired = true → exec (.errorInAUnit n u) s = .next s) ∧
    let row (l : Nat) : UnitId := .hbmRow (l * 64 / 2 ^ 36) (l * 64 / 256 % 16)
    (∀ l lost, x.retired = false → u = .hbmLine l lost → s.cleared (l / 1024) = true → exec (.errorInAUnit n u) s = .next s) ∧
    (∀ l lost, x.retired = false → u = .hbmLine l lost → s.cleared (l / 1024) = false →
      ∃ t, exec (.errorInAUnit n u) s = .next t ∧ ⟨0, row l⟩ ∈ t.tests ∧ { t with tests := s.tests, badLine := s.badLine } = s ∧
        ∀ j, NSet.mem t.badLine j = (NSet.mem s.badLine j || (decide (j = l) && (lost || s.parityOnly (l / 1024))))) ∧
    (∀ k w lost, x.retired = false → u = .combWord k w lost →
      ∃ t, exec (.errorInAUnit n u) s = .next t ∧ ⟨n, .sram (combArray k) (w / 16)⟩ ∈ t.tests ∧
        { t with tests := s.tests, cores := s.cores } = s ∧
        ∀ j, t.core j = if lost = true ∧ (∃ v, x.vtile = some v ∧ j = ⟨v, s.lcAt v k⟩) then
          { s.core j with combPois := NSet.ins (s.core j).combPois (w / 2) } else s.core j) ∧
    (x.retired = false → (∀ l b, u ≠ .hbmLine l b) → (∀ k w b, u ≠ .combWord k w b) →
      ∃ t, exec (.errorInAUnit n u) s = .next t ∧ ⟨n, u⟩ ∈ t.tests ∧ t.mem = s.mem ∧ t.ctxs = s.ctxs ∧
      (¬ runs → { t with tests := s.tests } = s) ∧
      (runs → (t.tile n).testing = true ∧
        (∀ v p, x.vtile = some v → x.owner = some p → (s.gang (s.gangOf v)).placing = false →
          ∀ g ∈ s.unitOf (s.gangOf v), (s.gang g).st = .resident → (t.gang g).stopping = true)))) ∧
  (∀ (s : State) (n : Nat) (u : UnitId) (lasting : Bool),
    let x := s.tile n
    let tests := s.tests.filter (fun e => decide (e ≠ ⟨n, u⟩))
    (⟨n, u⟩ ∉ s.tests → exec (.selfTestComplete n u lasting) s = .next s) ∧
    (⟨n, u⟩ ∈ s.tests →
      (∀ a b, u = .sram a b → s.stopUnder n = true → exec (.selfTestComplete n u lasting) s = .next s) ∧
      (∀ a b, u = .sram a b → s.stopUnder n = false →
        (lasting = false → exec (.selfTestComplete n u lasting) s = .next { s with tests := tests }) ∧
        (lasting = true → NMap.get 0 x.spares a < 4 → ∃ t, exec (.selfTestComplete n u lasting) s = .next t ∧ t.tests = tests ∧
          t.tile n = { x with spares := NMap.set 0 x.spares a (NMap.get 0 x.spares a + 1) } ∧
          { t with tests := s.tests, tiles := s.tiles } = s) ∧
        (lasting = true → 4 ≤ NMap.get 0 x.spares a →
          ∃ t, exec (.selfTestComplete n u lasting) s = .next t ∧ (t.tile n).retired = true)) ∧
      (∀ w, u = .fp64 w → x.vtile = none → lasting = true → ∃ t, exec (.selfTestComplete n u lasting) s = .next t ∧
        t.tests = tests ∧ (t.tile n).wide = x.wide.set w false) ∧
      (u = .core → x.vtile = none →
        (lasting = true → ∃ t, exec (.selfTestComplete n u lasting) s = .next t ∧ (t.tile n).retired = true ∧
          (x.retired = false → x.latch = false → (t.tile n).unmasked = [])) ∧
        (lasting = false → tests = [] → ∃ t, exec (.selfTestComplete n u lasting) s = .next t ∧ t.tests = [] ∧
          t.tile n = { x with testing := false })) ∧
      (u = .core ∨ (∃ w, u = .fp64 w) → x.vtile.isSome = true → exec (.selfTestComplete n u lasting) s = .next s) ∧
      (∀ a b, u = .hbmRow a b → exec (.selfTestComplete n u lasting) s = .next { s with tests := tests }) ∧
      (∀ a b, u = .hbmChannel a b →
        (lasting = false → exec (.selfTestComplete n u lasting) s = .next { s with tests := tests }) ∧
        (lasting = true → (∀ r ∈ s.remaps, r.stack ≠ a) → NMap.get 0 s.spare a = 0 →
          exec (.selfTestComplete n u lasting) s = .next { s with
            tests := tests, remaps := s.remaps ++ [⟨a, b, 0, none⟩] }))))

/-- R15, R20, R23, R27, R100, R103, R104, R350 to R352, R418: placement, quanta, pre-emption and tests. -/
def Obligations.Scheduling : Prop := Placement ∧ QuantaPreemptionTests

/-! ### Remote table access (R376 to R386) -/

/-- A context waits for its remote operation: its target may be reached, RTGO is go and RTSEL names table code n (R386). -/
abbrev Sys2Proof.Claims.remote (s : State) (c : CtxId) (go : BitVec 2) (n : Nat) : Prop :=
  (s.ctx c).prog.need = .remote ∧ s.rtWaits c.vt.part (s.ctx c).rtsel = false ∧ (s.ctx c).rtgo = go.toNat ∧
  ((s.ctx c).rtsel.extractLsb' 32 4).toNat = n

/-- The operation of context c is performed in state u: RTSTAT is stat, the words ws stand in RTD0 onwards, c has gone on, and
of s nothing but what u has changed has changed. -/
def Sys2Proof.Claims.answered (s u : State) (r : Step) (c : CtxId) (stat : Nat) (ws : List Word) : Prop :=
  ∃ t m, r = .next t ∧ (∀ i, NMap.get 0 m i = ws.getD i (NMap.get 0 (s.ctx c).rtd i)) ∧
    (∀ d, d ≠ c → t.ctx d = s.ctx d) ∧ { t with ctxs := u.ctxs } = u ∧ wentOn (s.ctx c) (t.ctx c) (s.nextPc c) ∧
    t.ctx c = ({ s.ctx c with rtstat := BitVec.ofNat 64 stat, rtd := m } : Ctx).placedAs (t.ctx c)

/-- j is the event that reads table code n for context c. -/
abbrev Sys2Proof.Claims.readOf (c : CtxId) (n : Nat) (j : Instr) : Prop :=
  (n = 1 ∧ j = .rtgoPortRead c) ∨
  (n = 2 ∧ j = .rtgoPermissionRead c) ∨
  (n = 3 ∧ j = .rtgoVtileMapRead c) ∨
  (n = 4 ∧ j = .rtgoSpillRead c) ∨
  (n = 5 ∧ j = .rtgoColonyRead c) ∨
  (n = 6 ∧ j = .rtgoPartitionRead c) ∨
  (n = 7 ∧ j = .rtgoLpctRead c) ∨
  (n = 8 ∧ j = .rtgoEngineRead c) ∨
  (n = 9 ∧ j = .rtgoGranuleRead c)

/-- j is the event that writes table code n for context c. -/
abbrev Sys2Proof.Claims.writeOf (c : CtxId) (n : Nat) (j : Instr) : Prop :=
  (n = 1 ∧ j = .rtgoPortWrite c) ∨
  (n = 2 ∧ j = .rtgoPermissionWrite c) ∨
  (n = 3 ∧ j = .rtgoRootWrite c) ∨
  (n = 4 ∧ j = .rtgoSpillWrite c) ∨
  (n = 5 ∧ j = .rtgoColonyWrite c)

/-- RTSEL as its selectors say (R385): the vtile at x, y of colony k, table code n, index i. -/
abbrev Sys2Proof.Claims.selects (w : Word) (v : VtId) (n i : Nat) : Prop :=
  (w.extractLsb' 0 9).toNat = v.x ∧ (w.extractLsb' 16 9).toNat = v.y ∧ (w.extractLsb' 25 6).toNat = v.col ∧
  (w.extractLsb' 32 4).toNat = n ∧ (w.extractLsb' 36 28).toNat = i

/-- Whether a vtile lies in the grid of a live colony. -/
abbrev Sys2Proof.Claims.inGrid (s : State) (v : VtId) : Prop :=
  (s.colony v.part v.col).live = true ∧ v.x < (s.colony v.part v.col).gridX ∧ v.y < (s.colony v.part v.col).gridY

/-- R98, R386: a remote operation on a vtile waits while a stop of its gang stands between T and absence; one on a colony or a
partition does not. -/
def Sys2Proof.Claims.RemoteWaits : Prop :=
  ∀ (s : State) (w : Word) (v : VtId) (n i : Nat), selects w v n i →
    (s.rtWaits v.part w = true ↔ n ≠ 5 ∧ n ≠ 6 ∧ ∃ h, s.stopOf v = some h ∧ h.halted = true)

/-- R375 to R386: a read answers the entry that RTSEL names, status 0 and RTD0 onwards; an absent colony or vtile is status 4, an
index or code out of range status 2; a refused operation writes RTSTAT alone, and any RTGO but a read or a write is status 3. -/
def Sys2Proof.Claims.RemoteTableReads : Prop :=
  (∀ (s : State) (c : CtxId) (n : Nat) (ev : Instr), readOf c n ev →
    (¬ remote s c 1 n → exec ev s = .next s) ∧
    (∀ ws, remote s c 1 n → s.rtRead c.vt.part (s.ctx c).rtsel = .ok ws → answered s s (exec ev s) c 0 ws) ∧
    (∀ e, remote s c 1 n → s.rtRead c.vt.part (s.ctx c).rtsel = .error e → exec ev s = .next s)) ∧
  (∀ (s : State) (c : CtxId),
    let x := s.ctx c
    let ready : Prop := x.prog.need = .remote ∧ s.rtWaits c.vt.part x.rtsel = false
    (¬ ready → exec (.rtgoRefused c) s = .next s) ∧
    (∀ e, ready → x.rtgo = 1 → s.rtRead c.vt.part x.rtsel = .error e → answered s s (exec (.rtgoRefused c) s) c e []) ∧
    (∀ e, ready → x.rtgo = 2 → s.rtWrite c.vt.part x = .error e → answered s s (exec (.rtgoRefused c) s) c e []) ∧
    (ready → x.rtgo ≠ 1 → x.rtgo ≠ 2 → answered s s (exec (.rtgoRefused c) s) c 3 [])) ∧
  (∀ (s : State) (w : Word) (v : VtId) (n i : Nat), selects w v n i →
    let p := v.part
    let q := s.part p
    let k := s.colony p v.col
    let y := s.vtile v
    let num (x : Nat) : Word := BitVec.ofNat 64 x
    (n = 6 → s.rtRead p w = .ok [num (s.ptilesOf p + q.state * 2 ^ 16 + q.quantum * 2 ^ 32),
      num (q.fquota + q.fcount * 2 ^ 32), num q.saveto, q.keyepoch.setWidth 64]) ∧
    (n = 5 → k.live = true → s.rtRead p w = .ok [num (1 + k.cores.toNat * 2 + k.summon.toNat * 4 + k.gangs * 2 ^ 16 +
      k.gridX * 2 ^ 32 + k.gridY * 2 ^ 48), num (k.faultVt.1 + k.faultVt.2 * 2 ^ 16), k.reqmask]) ∧
    (n = 5 → k.live = false → s.rtRead p w = .error 4) ∧
    (n ≠ 5 → n ≠ 6 → ¬ inGrid s v → s.rtRead p w = .error 4) ∧
    (inGrid s v →
      (n = 1 → 256 ≤ i → s.rtRead p w = .error 2) ∧
      (n = 1 → i < 256 → (s.port ⟨v, i⟩).decl = false → s.rtRead p w = .ok [0, 0]) ∧
      (n = 1 → i < 256 → (s.port ⟨v, i⟩).decl = true →
        let e := s.port ⟨v, i⟩
        let a := e.peer
        a.vt.part < 16 → a.vt.col < 64 → a.vt.x < 512 → a.vt.y < 512 → a.port < 256 → e.width < 16 → ∃ e0 : Word,
          s.rtRead p w = .ok [e0, num e.max] ∧ e0.extractLsb' 0 1 = 1 ∧ (e0.extractLsb' 1 2).toNat = e.dir.code ∧
          (e0.extractLsb' 3 4).toNat = e.width ∧ (e0.extractLsb' 8 8).toNat = a.port ∧ (e0.extractLsb' 16 9).toNat = a.vt.x ∧
          (e0.extractLsb' 32 9).toNat = a.vt.y ∧ (e0.extractLsb' 48 6).toNat = a.vt.col ∧
          (e0.extractLsb' 56 4).toNat = a.vt.part) ∧
      (n = 2 → s.rtRead p w = if i < 32 then .ok [NMap.get 0 y.perms i] else .error 2) ∧
      (n = 3 → s.rtRead p w = .ok [num (y.gang + y.res.toNat * 2 ^ 16 + y.ptile * 2 ^ 32), num (y.root * 512), y.mask]) ∧
      (n = 4 → s.rtRead p w = .ok [num y.spcap]) ∧
      (n = 7 → s.rtRead p w = if i < 48 then .ok [num (y.lpct.getD i i)] else .error 2) ∧
      (n = 8 → 36 ≤ i → s.rtRead p w = .error 2) ∧
      (n = 8 → i < 36 → s.rtRead p w = .ok [
        (match NMap.get none s.dies i with
          | some o => num (16 + o)
          | none => 0),
        (if s.present v = true then match (s.tile y.ptile).engine with
          | some d => num (64 + d)
          | none => 0
         else 0)]) ∧
      (n = 9 → s.rtRead p w = if i * 65536 < s.form.stacks * 2 ^ 36 then
        let e := NMap.get 0 s.granules i
        .ok [if e.getLsbD 4 = true ∧ (e.extractLsb' 0 4).toNat = p then e.setWidth 64 else 0] else .error 2) ∧
      (n = 0 ∨ 10 ≤ n → s.rtRead p w = .error 2)))

/-- R11, R376 to R386: a write changes the entry that RTSEL names once its value passes its checks, and completes with status 0;
status 1 is a busy port or a spill area in use, 2 an entry out of range or reach, 3 a malformed value, 4 an absent target. The
ranges of WIDTH and MAX hold of every port entry written, also of one with DECL = 0; reserved bits of a permission entry are
ignored (the model's readings, log entry 45). -/
def Sys2Proof.Claims.RemoteTableWrites : Prop :=
  (∀ (s : State) (c : CtxId) (n : Nat) (ev : Instr), writeOf c n ev →
    (¬ remote s c 2 n → exec ev s = .next s) ∧
    (∀ u, remote s c 2 n → s.rtWrite c.vt.part (s.ctx c) = .ok u → answered s u (exec ev s) c 0 []) ∧
    (∀ e, remote s c 2 n → s.rtWrite c.vt.part (s.ctx c) = .error e → exec ev s = .next s)) ∧
  (∀ (s : State) (x : Ctx) (v : VtId) (n i : Nat), selects x.rtsel v n i →
    let p := v.part
    let w0 := NMap.get 0 x.rtd 0
    let w1 := NMap.get 0 x.rtd 1
    let y := s.vtile v
    let refused (e : Nat) : Prop := s.rtWrite p x = .error e
    let sets (y' : VTile) : Prop := ∃ u, s.rtWrite p x = .ok u ∧ (∀ j, u.vtile j = if j = v then y' else s.vtile j) ∧
      { u with vtiles := s.vtiles } = s
    (n = 6 ∨ (inGrid s v ∧ (n = 0 ∨ 7 ≤ n)) → refused 2) ∧
    (n ≠ 5 → n ≠ 6 → ¬ inGrid s v → refused 4) ∧
    (n = 5 →
      let k := s.colony p v.col
      let f : VtId := ⟨p, (s.part p).curcol, (w1.extractLsb' 0 9).toNat, (w1.extractLsb' 16 9).toNat⟩
      let free : Prop := w1.extractLsb' 9 7 = 0 ∧ w1.extractLsb' 25 39 = 0
      (k.live = false → refused 4) ∧ (k.live = true → ¬ (free ∧ inGrid s f) → refused 3) ∧
      (k.live = true → free → inGrid s f → ∃ u, s.rtWrite p x = .ok u ∧ { u with colonies := s.colonies } = s ∧
        ∀ j, u.colony j.1 j.2 = if j = (p, v.col) then { k with summon := w0.getLsbD 2, faultVt := (f.x, f.y) }
          else s.colony j.1 j.2)) ∧
    (n = 1 → inGrid s v →
      let dir := (w0.extractLsb' 1 2).toNat
      let width := (w0.extractLsb' 3 4).toNat
      let free : Prop := w0.extractLsb' 60 4 = 0 ∧ w0.extractLsb' 54 2 = 0 ∧ w0.extractLsb' 41 7 = 0 ∧
        w0.extractLsb' 25 7 = 0 ∧ w0.extractLsb' 7 1 = 0 ∧ w1.extractLsb' 32 32 = 0 ∧ w0.extractLsb' 8 8 ≠ 255
      let range : Prop := if dir < 2 then 1 ≤ width ∧ width ≤ 8 ∧ w1 = 0
        else width = 0 ∧ (if dir = 2 then w1 ≠ 0 else w1 = 0)
      (256 ≤ i → refused 2) ∧
      (i < 256 → (s.port ⟨v, i⟩).st ≠ .idle → refused 1) ∧
      (i < 256 → (s.port ⟨v, i⟩).st = .idle →
        (i = 255 → refused 2) ∧
        (i ≠ 255 → ¬ free ∨ ¬ range → refused 3) ∧
        (i ≠ 255 → free → range → w0.getLsbD 0 = false → ∃ u, s.rtWrite p x = .ok u ∧ { u with vtiles := s.vtiles } = s ∧
          ∀ j, u.port j = if j = ⟨v, i⟩ then {} else s.port j) ∧
        (i ≠ 255 → free → w0.getLsbD 0 = true → range → ∃ u, s.rtWrite p x = .ok u ∧ { u with vtiles := s.vtiles } = s ∧
          ∀ j, u.port j = if j = ⟨v, i⟩ then
            { decl := true, dir := dirOf dir, width := width, max := w1.toNat
              peer := ⟨⟨(w0.extractLsb' 56 4).toNat, (w0.extractLsb' 48 6).toNat, (w0.extractLsb' 16 9).toNat,
                (w0.extractLsb' 32 9).toNat⟩, (w0.extractLsb' 8 8).toNat⟩ } else s.port j))) ∧
    (n = 2 → inGrid s v →
      (32 ≤ i → refused 2) ∧
      (i < 32 → w0.getLsbD 0 = true → (w0.extractLsb' 16 4).toNat ≠ p → refused 2) ∧
      (i < 32 → w0.getLsbD 0 = false ∨ (w0.extractLsb' 16 4).toNat = p →
        sets { y with perms := NMap.set 0 y.perms i (w0 &&& 0xF3F03#64) })) ∧
    (n = 3 → inGrid s v →
      let free : Prop := w1.extractLsb' 0 9 = 0 ∧ w1.extractLsb' 41 23 = 0
      (w1 = 0 → sets { y with root := 0 }) ∧ (w1 ≠ 0 → ¬ free → refused 3) ∧
      (w1 ≠ 0 → free → s.granOk p (w1.toNat / 65536) = false → refused 2) ∧
      (w1 ≠ 0 → free → s.granOk p (w1.toNat / 65536) = true → sets { y with root := w1.toNat / 512 })) ∧
    (n = 4 → inGrid s v →
      let fits : Prop := s.spillGranules v w0.toNat ≤ s.sysGranules p
      (2 ^ 20 < w0.toNat → refused 3) ∧ (w0.toNat ≤ 2 ^ 20 → y.spill ≠ [] → refused 1) ∧
      (w0.toNat ≤ 2 ^ 20 → y.spill = [] → ¬ fits → refused 2) ∧
      (w0.toNat ≤ 2 ^ 20 → y.spill = [] → fits → sets { y with spcap := w0.toNat })))

/-- R375 to R386: remote table reads and writes. -/
def Obligations.RemoteTables : Prop := RemoteWaits ∧ RemoteTableReads ∧ RemoteTableWrites

/-! ### The host (R27, R239 to R246, R297 to R300, R444 to R457, R459) -/

/-- Which requests j stands for (R447, R448): the function's kind, and the opcode and selector that word 0 and word 1 carry. -/
abbrev Sys2Proof.Claims.requestOf (f : Nat) (who : From) (op code : Nat) (j : Instr) : Prop :=
  (who = .pfOnly ∧ (
    (op = 1 ∧ ∃ a, j = .createPartition f a) ∨ (op = 2 ∧ ∃ p, j = .freePartition f p) ∨
    (op = 3 ∧ ∃ p q l ds es, j = .repartition f p q ⟨l, ds, es⟩) ∨
    (op = 4 ∧ ((code = 1 ∧ j = .setSaveto f) ∨ (code = 2 ∧ j = .setQuantum f) ∨ (code = 3 ∧ j = .setFquota f) ∨
      (code = 4 ∧ j = .setRate f) ∨ (code = 5 ∧ j = .setDepth f) ∨ (code = 6 ∧ j = .setLend f) ∨
      (code = 7 ∧ j = .setPowerCap f) ∨ (code = 8 ∧ j = .setLogInterval f) ∨ (code = 9 ∧ j = .setSummonPolicy f) ∨
      (code = 10 ∧ j = .setScaleOutPortMode f))) ∨
    (op = 0x11 ∧ ∃ l, j = .stageFirmware f l) ∨ (op = 0x12 ∧ j = .activateFirmware f) ∨
    (op = 0x13 ∧ ((∃ n, j = .retireTile f n) ∨ (∃ a b, j = .remapHbmChannel f a b) ∨
      (∃ r, j = .restartRimController f r) ∨ ∃ r, j = .retireRimController f r)))) ∨
  (who = .vfOnly ∧ (
    (op = 5 ∧ ∃ a b n w, j = .mapWindow f a b n w) ∨ (op = 6 ∧ ∃ g n, j = .gradeChange f g n) ∨ (op = 7 ∧ j = .keyChange f) ∨
    (op = 8 ∧ ∃ l, j = .launchImage f l) ∨ (op = 9 ∧ ∃ k a l, j = .galleryWrite f k a l) ∨
    (op = 0x0A ∧ ((code ≠ 3 ∧ j = .curatorColonyResume f) ∨ (code = 3 ∧ j = .curatorColonyRemove f))) ∨
    (op = 0x0B ∧ j = .createHostQueue f) ∨ (op = 0x0C ∧ j = .destroyHostQueue f) ∨
    (op = 0x0D ∧ ∃ a, j = .channelGrant f a))) ∨
  (who = .both ∧ (
    (op = 0x0F ∧ ((∃ p n m r b, j = .readLog f p n m r b) ∨ ∃ p o, j = .closeRecord f ⟨p, o⟩)) ∨
    (op = 0x10 ∧ ∃ b, j = .residencyReport f b)))

/-- Function f can take a request, and the next one in its ring is ws. -/
abbrev Sys2Proof.Claims.next? (s : State) (f : Nat) (ws : List Word) : Prop :=
  (s.func f).busy = none ∧ (s.func f).ring.head? = some ws

/-- The opcode, the TAG and the selector of a request. -/
abbrev Sys2Proof.Claims.opOf (ws : List Word) : Nat := ((ws.getD 0 0).extractLsb' 0 8).toNat
/-- The TAG of a request. -/
abbrev Sys2Proof.Claims.tagOf (ws : List Word) : Nat := ((ws.getD 0 0).extractLsb' 8 16).toNat
/-- The selector of a request. -/
abbrev Sys2Proof.Claims.codeOf (ws : List Word) : Nat := ((ws.getD 1 0).extractLsb' 0 8).toNat

/-- The next request of function f, ws, is j, and none of the checks that all requests share refuses it. -/
abbrev Sys2Proof.Claims.admitted (s : State) (f : Nat) (ws : List Word) (j : Instr) : Prop :=
  next? s f ws ∧ (ws.getD 0 0).extractLsb' 24 40 = 0 ∧
  (∃ who, requestOf f who (opOf ws) (codeOf ws) j ∧ (who = .pfOnly → f = 16) ∧ (who = .vfOnly → f ≠ 16)) ∧
  (f ≠ 16 → (s.part f).valid = true)

/-- Request ws of function f is taken and answered at once: the state is u, with the response of the status and results. -/
def Sys2Proof.Claims.answers (r : Step) (f : Nat) (ws : List Word) (u : State) (st : Nat) (res : List Word) : Prop :=
  r = .next (u.respond f (tagOf ws) st res)

/-- Request ws of function f is taken and refused: nothing changes but its rings. -/
def Sys2Proof.Claims.refuses (s : State) (r : Step) (f : Nat) (ws : List Word) (st : Nat) : Prop :=
  answers r f ws (s.popReq f) st []

/-- Request ws of function f is taken and answered later: the state is u, with the function busy. -/
def Sys2Proof.Claims.begins (r : Step) (f : Nat) (ws : List Word) (u : State) : Prop := r = .next (u.holdReq f (tagOf ws))

/-- t is s with partition p's entry as q. -/
abbrev Sys2Proof.Claims.partIs (s t : State) (p : Nat) (q : Part) : Prop :=
  (∀ n, t.part n = if n = p then q else s.part n) ∧ { t with parts := s.parts } = s

/-- R446, R449: a ring takes up to 256 entries at a doorbell, ignores one that runs further or back and sets its error bit, which
the host clears; responses and events are entries in order, events are held while their ring is full, and each raises its
vector; opcodes and parameters that are not assigned are refused with status 9, a parameter of a virtual function with status 6;
the rings read at their offsets of BAR0 (R445), and its status block as the partition and the rings stand. -/
def Sys2Proof.Claims.HostRings : Prop :=
  ∀ (s : State) (f : Nat),
    let x := s.func f
    let funcIs (t : State) (y : Func) : Prop := (∀ n, t.func n = if n = f then y else s.func n) ∧ { t with funcs := s.funcs } = s
    let sets (r : Step) (y : Func) : Prop := ∃ t, r = .next t ∧ funcIs t y
    (∀ tag st res, funcIs (s.respond f tag st res) { x with
      resps := x.resps ++ [BitVec.ofNat 64 (st + tag * 256) :: res], irqs := NMap.set 0 x.irqs 0 (NMap.get 0 x.irqs 0 + 1) }) ∧
    (∀ ws, x.events = [] → x.evRing.length < 256 → funcIs (s.hostEvent f ws) { x with
      evRing := x.evRing ++ [ws], evWritten := (x.evWritten + 1) % 2 ^ 32
      evMem := NMap.set [] x.evMem (x.evWritten % 256) ws
      irqs := NMap.set 0 x.irqs 1 (NMap.get 0 x.irqs 1 + 1) }) ∧
    (∀ ws, x.events ≠ [] ∨ 256 ≤ x.evRing.length → funcIs (s.hostEvent f ws) { x with events := x.events ++ [ws] }) ∧
    (∀ n es, f ≤ 16 →
      let d := ((BitVec.ofNat 32 n) - (BitVec.ofNat 32 x.taken)).toNat
      (d = 0 → exec (.doorbell f n es) s = .next s) ∧
      (256 < d ∨ (d ≠ 0 ∧ d < x.ring.length) → sets (exec (.doorbell f n es) s) { x with reqErr := true }) ∧
      (d ≤ 256 → d ≠ 0 → d = x.ring.length + es.length → (∀ e ∈ es, e.length = 8) →
        let slot (i : Nat) : Nat := (x.taken + x.ring.length + i) % 256
        ∃ m, sets (exec (.doorbell f n es) s) { x with ring := x.ring ++ es, reqMem := m } ∧
          (∀ i, i < es.length → NMap.get [] m (slot i) = es.getD i []) ∧
          ∀ j, (∀ i, i < es.length → j ≠ slot i) → NMap.get [] m j = NMap.get [] x.reqMem j)) ∧
    (∀ n, f ≤ 16 →
      let d := ((BitVec.ofNat 32 n) - (BitVec.ofNat 32 x.evTaken)).toNat
      (d = 0 → exec (.eventDoorbell f n) s = .next s) ∧
      (x.evRing.length < d → sets (exec (.eventDoorbell f n) s) { x with evErr := true }) ∧
      (d ≠ 0 → d ≤ x.evRing.length → x.evRing.length ≤ 256 → ∃ y, sets (exec (.eventDoorbell f n) s) y ∧
        y.evTaken = n % 2 ^ 32 ∧ y.evRing ++ y.events = x.evRing.drop d ++ x.events ∧ y.evRing.length ≤ 256 ∧
        (y.evRing.length < 256 → y.events = []))) ∧
    (∀ w, sets (exec (.errorBitsClear f w) s) { x with
      reqErr := if w.getLsbD 0 then false else x.reqErr, evErr := if w.getLsbD 1 then false else x.evErr }) ∧
    (∀ ws, next? s f ws → (ws.getD 0 0).extractLsb' 24 40 = 0 → (f ≠ 16 → (s.part f).valid = true) →
      (opOf ws = 0 ∨ 0x13 < opOf ws → refuses s (exec (.unknownRequest f) s) f ws 9) ∧
      (opOf ws = 4 → codeOf ws = 0 ∨ 10 < codeOf ws →
        refuses s (exec (.unknownRequest f) s) f ws (if f = 16 then 9 else 6)) ∧
      (opOf ws = 4 → codeOf ws ≠ 0 → codeOf ws ≤ 10 → exec (.unknownRequest f) s = .next s) ∧
      (opOf ws ≠ 0 → opOf ws ≤ 0x13 → opOf ws ≠ 4 → exec (.unknownRequest f) s = .next s)) ∧
    s.bar0Read f 0xF000 = (s.part f).state ∧ s.bar0Read f 0xF008 = (s.part f).keyepoch.toNat ∧
    s.bar0Read f 0xF010 = s.throttledQuads f ∧
    s.bar0Read f 0xF018 = (if x.reqErr then 1 else 0) + (if x.evErr then 2 else 0) ∧
    (∀ i j, i < 256 → j < 8 →
      s.bar0Read f (0x1000 + 64 * i + 8 * j) = ((NMap.get [] x.reqMem i).getD j 0).toNat ∧
      s.bar0Read f (0x9000 + 64 * i + 8 * j) = ((NMap.get [] x.evMem i).getD j 0).toNat ∧
      (x.resps.length ≤ i → s.bar0Read f (0x5000 + 64 * i + 8 * j) = 0) ∧
      ∀ m, m < x.resps.length → x.resps.length ≤ m + 256 → m % 256 = i →
        s.bar0Read f (0x5000 + 64 * i + 8 * j) = (((x.resps.getD m []).getD j 0)).toNat)

/-- R446, R447: a request is taken from the head of its function's ring, as its opcode says; a set reserved bit is status 9, a
request of the other kind of function status 6, a partition that was freed or never made status 7 or 5: refused so, it changes
nothing. -/
def Sys2Proof.Claims.HostRequests : Prop :=
  ∀ (s : State) (f : Nat) (who : From) (op code : Nat) (j : Instr), requestOf f who op code j →
    ((s.func f).busy.isSome = true ∨ (s.func f).ring = [] → exec j s = .next s) ∧
    (∀ ws, next? s f ws → opOf ws ≠ op → exec j s = .next s) ∧
    (∀ ws, next? s f ws → opOf ws = op → codeOf ws = code →
      let wrong : Prop := (who = .pfOnly ∧ f ≠ 16) ∨ (who = .vfOnly ∧ f = 16)
      let clean : Prop := (ws.getD 0 0).extractLsb' 24 40 = 0
      (¬ clean → refuses s (exec j s) f ws 9) ∧
      (clean → wrong → refuses s (exec j s) f ws 6) ∧
      (clean → ¬ wrong → f ≠ 16 → (s.part f).valid = false →
        refuses s (exec j s) f ws (if (s.part f).freed then 7 else 5)))

/-- R446, R447, R449: the rings of a function, and what every request is checked for. -/
def Obligations.RequestsAndRings : Prop := HostRings ∧ HostRequests

/-- R14, R27, R245, R295, R375, R384, R447: a partition gets the tiles, granules, dies and key of its request as the lowest free
number, or the request is refused; freeing one, and moving tiles, dies and engines, begin their stop and are answered after
it. STATE 1 at creation, the answers after the stop, status 1 for tiles in a pending request and the layout of engines and of the
giver in a repartition are the model's readings (log entry 51; the checks of the requests log entry 50). -/
def Sys2Proof.Claims.HostPartitions : Prop :=
  (∀ (s : State) (f : Nat) (ws : List Word) (a : NewPart), admitted s f ws (.createPartition f a) →
    let s' := s.popReq f
    let r := exec (.createPartition f a) s
    (s'.newStatus a ≠ 0 → refuses s r f ws (s'.newStatus a)) ∧
    (s'.newStatus a = 0 → (∀ p, p < 16 → (s.part p).valid = true) → refuses s r f ws 8) ∧
    (∀ p, s'.newStatus a = 0 → p < 16 → (s.part p).valid = false → (∀ n, n < p → (s.part n).valid = true) →
      ∃ u, answers r f ws u 0 [BitVec.ofNat 64 p] ∧ u.mem = s.mem ∧ u.vtiles = s.vtiles ∧
        (∀ n, u.part n = if n = p then { valid := true, state := 1, curcol := a.curcol, curTiles := a.curTiles
                                         parkcap := a.parkcap, imgKey := a.imgKey, logLast := s.time
                                         key := some (Config.randomKey p s.time)
                                         granules := (u.part p).granules } else s.part n) ∧
        (u.part p).granules = min (2 ^ 26 - 1) (u.granulesOf p).length ∧
        (∀ t, t ∈ a.tiles ∨ t ∈ a.curTiles → (u.tile t).owner = some p ∧ (u.tile t).saveBuf = [] ∧ (u.tile t).ni = []) ∧
        (∀ t, t ∉ a.tiles → t ∉ a.curTiles → u.tile t = s.tile t) ∧
        (∀ g, NMap.get 0 u.granules g = if g ∈ a.sys then BitVec.ofNat 8 (p + 16 + 128)
          else if g ∈ a.granules then BitVec.ofNat 8 (p + 16) else NMap.get 0 s.granules g) ∧
        ∀ d, NMap.get none u.dies d = if d ∈ a.dies then some p else NMap.get none s.dies d)) ∧
  (∀ (s : State) (a : NewPart), s.newStatus a = 0 →
    (∀ t, t ∈ a.tiles ∨ t ∈ a.curTiles → t < s.form.tiles ∧ (s.tile t).working = true ∧ (s.tile t).owner = none) ∧
    (∀ g, g ∈ a.granules ∨ g ∈ a.sys → g * 65536 < s.form.stacks * 2 ^ 36 ∧ (NMap.get 0 s.granules g).getLsbD 4 = false) ∧
    (∀ d ∈ a.dies, NMap.get none s.dies d = none)) ∧
  (∀ (s : State) (f p : Nat) (ws : List Word), admitted s f ws (.freePartition f p) →
    let r := exec (.freePartition f p) s
    ((s.part p).valid = false → refuses s r f ws 5) ∧
    ((s.part p).valid = true → (∃ x ∈ s.transfers, x.part = p ∨ x.what = .move p) → refuses s r f ws 1) ∧
    ((s.part p).valid = true → (∀ x ∈ s.transfers, x.part ≠ p ∧ x.what ≠ .move p) → ∃ u, begins r f ws u ∧
      (u.part p).state = 0 ∧ u.transfers = s.transfers ++ [⟨f, tagOf ws, p, .free, [], [], []⟩] ∧ u.mem = s.mem ∧ u.ctxs = s.ctxs ∧
      ∀ g, g.part = p → (u.gang g).st = .resident → (u.gang g).stopping = true)) ∧
  (∀ (s : State) (f p q : Nat) (l ds : List Nat) (es : List (Nat × Nat)) (ws : List Word),
    admitted s f ws (.repartition f p q ⟨l, ds, es⟩) →
    let r := exec (.repartition f p q ⟨l, ds, es⟩) s
    let from_ : Option Nat := if p < 16 then some p else none
    let ok : Prop := (p < 16 → (s.part p).valid = true) ∧ (s.part q).valid = true ∧ p ≠ q ∧
      (∀ t ∈ l, (s.tile t).owner = from_ ∧ (16 ≤ p → t < s.form.tiles ∧ (s.tile t).vtile = none ∧ (s.tile t).working = true ∧
        (s.tile t).retired = false)) ∧
      (∀ d ∈ ds, NMap.get none s.dies d = from_ ∧ d * 64 < s.form.tiles) ∧
      ∀ e ∈ es, (if e.1 ∈ l then some q else (s.tile e.1).owner).isSome = true ∧
        (if e.1 ∈ l then some q else (s.tile e.1).owner) = if e.2 ∈ ds then some q else NMap.get none s.dies e.2
    let busy : Prop := ∃ x ∈ s.transfers, (x.what = .free ∧ (x.part = p ∨ x.part = q)) ∨ ∃ t ∈ x.tiles, t ∈ l
    (¬ ok → refuses s r f ws 5) ∧ (ok → busy → refuses s r f ws 1) ∧
    (ok → ¬ busy → (∀ n ∈ s.concerned l ds es, ∀ v, (s.tile n).vtile = some v → (s.gang (s.gangOf v)).placing = false) →
      ∃ u, begins r f ws u ∧ u.transfers = s.transfers ++ [⟨f, tagOf ws, p, .move q, l, ds, es⟩] ∧ u.mem = s.mem ∧
        u.ctxs = s.ctxs ∧ u.parts = s.parts ∧ u.tiles = s.tiles ∧
        ∀ n ∈ s.concerned l ds es, ∀ v o, (s.tile n).owner = some o → o < 16 → (s.tile n).vtile = some v →
          (s.gang (s.gangOf v)).st = .resident → (u.gang (s.gangOf v)).stopping = true))

/-- R320, R352, R376, R424, R430, R435, R448, R455: a parameter in its range is set, of a partition that exists; out of it, or with a
reserved bit set, the request is refused with status 9; a port's mode waits until the port is idle. -/
def Sys2Proof.Claims.HostParameters : Prop :=
  (∀ (s : State) (ws : List Word),
    let w := ws.getD 1 0
    let p := (w.extractLsb' 8 4).toNat
    let v := (ws.getD 2 0).toNat
    let q := s.part p
    let clean : Prop := w.extractLsb' 12 52 = 0 ∧ ∀ i, 3 ≤ i → ws.getD i 0 = 0
    let sets (j : Instr) (range : Prop) (q' : Part) : Prop := admitted s 16 ws j →
      (¬ (clean ∧ range) → refuses s (exec j s) 16 ws 9) ∧
      (clean → range → q.valid = false → refuses s (exec j s) 16 ws 5) ∧
      (clean → range → q.valid = true → ∃ u, answers (exec j s) 16 ws u 0 [] ∧ partIs (s.popReq 16) u p q')
    sets (.setSaveto 16) (100 ≤ v ∧ v ≤ 100000) { q with saveto := v } ∧
    sets (.setFquota 16) (1 ≤ v ∧ v ≤ 2 ^ 24) { q with fquota := v } ∧
    sets (.setRate 16) (v < 2 ^ 24 ∧ (v = 0 ∨ v ≤ q.depth)) { q with rate := v } ∧
    sets (.setDepth 16) (v < 2 ^ 32 ∧ (q.rate = 0 ∨ q.rate ≤ v)) { q with depth := v } ∧
    sets (.setLend 16) (v = 0 ∨ v = 1) { q with lend := decide (v = 1) } ∧
    sets (.setLogInterval 16) (10 ≤ v ∧ v ≤ 60000) { q with logInt := v } ∧
    sets (.setPowerCap 16)
      (v + ((s.parts.filter (fun e => decide (e.1 ≠ p))).map (fun e => e.2.cap.getD 0)).sum ≤ s.powerLimit)
      { q with cap := some v } ∧
    (admitted s 16 ws (.setQuantum 16) →
      let r := exec (.setQuantum 16) s
      let range : Prop := 1 ≤ v ∧ v ≤ 1000
      (¬ (clean ∧ range) → refuses s r 16 ws 9) ∧ (clean → range → q.valid = false → refuses s r 16 ws 5) ∧
      (clean → range → q.valid = true → ∃ u, answers r 16 ws u 0 [] ∧
        (∀ n, u.part n = if n = p then { q with quantum := v } else s.part n) ∧
        (∀ g, u.gang g = if g.part = p then { s.gang g with expired := false } else s.gang g) ∧
        { u with parts := s.parts, gangs := s.gangs } = s.popReq 16))) ∧
  (∀ (s : State) (ws : List Word), admitted s 16 ws (.setSummonPolicy 16) →
    let w := ws.getD 1 0
    let p := (w.extractLsb' 8 4).toNat
    let k := (w.extractLsb' 12 6).toNat
    let v := (ws.getD 2 0).toNat
    let clean : Prop := w.extractLsb' 18 46 = 0 ∧ (∀ i, 3 ≤ i → ws.getD i 0 = 0) ∧ v ≤ 1
    let there : Prop := (s.part p).valid = true ∧ (s.colony p k).live = true
    let r := exec (.setSummonPolicy 16) s
    (¬ clean → refuses s r 16 ws 9) ∧ (clean → ¬ there → refuses s r 16 ws 5) ∧
    (clean → there → ∃ u, answers r 16 ws u 0 [] ∧ { u with colonies := s.colonies } = s.popReq 16 ∧
      ∀ j, u.colony j.1 j.2 = if j = (p, k) then { s.colony p k with summon := decide (v = 1) } else s.colony j.1 j.2)) ∧
  (∀ (s : State) (ws : List Word), admitted s 16 ws (.setScaleOutPortMode 16) →
    let w := ws.getD 1 0
    let i := (w.extractLsb' 18 5).toNat
    let v := (ws.getD 2 0).toNat
    let clean : Prop := w.extractLsb' 23 41 = 0 ∧ w.extractLsb' 8 10 = 0 ∧ (∀ i, 3 ≤ i → ws.getD i 0 = 0) ∧ v ≤ 1 ∧ i ≤ 23
    let r := exec (.setScaleOutPortMode 16) s
    (¬ clean → refuses s r 16 ws 9) ∧
    (clean → ∃ u, begins r 16 ws u ∧ { u with ports24 := s.ports24 } = s.popReq 16 ∧
      ∀ n, NMap.get {} u.ports24 n = if n = i then { NMap.get {} s.ports24 i with want := some (v, tagOf ws) }
        else NMap.get {} s.ports24 n)) ∧
  (∀ (s : State) (i : Nat),
    ((NMap.get {} s.ports24 i).want = none → exec (.scaleOutModeApplied i) s = .next s) ∧
    (∀ v n, (NMap.get {} s.ports24 i).want = some (v, n) → (NMap.get {} s.ports24 i).pkts ≠ [] →
      exec (.scaleOutModeApplied i) s = .next s) ∧
    (∀ v n, (NMap.get {} s.ports24 i).want = some (v, n) → (NMap.get {} s.ports24 i).pkts = [] → ∃ u : State,
      exec (.scaleOutModeApplied i) s = .next (u.answer 16 n 0 []) ∧ { u with ports24 := s.ports24 } = s ∧
      ∀ j, NMap.get {} u.ports24 j = if j = i then { mode := v } else NMap.get {} s.ports24 j))

/-- R14, R27, R245, R295, R320, R375, R376, R424, R430, R435, R447, R448: partitions and their parameters. -/
def Obligations.PartitionRequests : Prop := HostPartitions ∧ HostParameters

/-- R239, R242, R245, R246, R445, R447: windows map only granules of the function's partition that are not the system's; grade
changes and key changes begin; a gallery is written only while no page table maps it; a write through a window is performed at
home as its bank serves it, after those held before it, and one that nothing maps or that is read-only changes nothing; a read
finds all ones where no window maps, and of windows at one offset the newest maps it. -/
def Sys2Proof.Claims.HostMemory : Prop :=
  (∀ (s : State) (f off first n : Nat) (wr : Bool) (ws : List Word), admitted s f ws (.mapWindow f off first n wr) →
    let r := exec (.mapWindow f off first n wr) s
    let fits : Prop := off % 65536 = 0 ∧ n ≠ 0 ∧ off + n * 65536 ≤ 2 ^ 40
    let own : Prop := ∀ i, i < n → s.holdsGranule f (first + i) = true
    let plain : Prop := ∀ i, i < n → (NMap.get 0 s.granules (first + i)).getLsbD 7 = false
    (¬ fits → refuses s r f ws 9) ∧ (fits → ¬ own → refuses s r f ws 5) ∧ (fits → own → ¬ plain → refuses s r f ws 6) ∧
    (fits → own → plain → ∃ u, answers r f ws u 0 [] ∧ { u with funcs := s.funcs } = s ∧
      (u.func f).windows = ⟨off, first, n, wr⟩ :: (s.func f).windows)) ∧
  (∀ (s : State) (f g n : Nat) (ws : List Word), admitted s f ws (.gradeChange f g n) →
    let r := exec (.gradeChange f g n) s
    let sys := (NMap.get 0 s.granules g).getLsbD 7
    (2 < n → refuses s r f ws 9) ∧ (n ≤ 2 → s.holdsGranule f g = false → refuses s r f ws 5) ∧
    (n ≤ 2 → s.holdsGranule f g = true → sys = true → refuses s r f ws 6) ∧
    (n ≤ 2 → s.holdsGranule f g = true → sys = false → (∀ x ∈ s.regrades, x.gran ≠ g) →
      begins r f ws { s.popReq f with regrades := s.regrades ++ [⟨g, n, f, tagOf ws⟩] })) ∧
  (∀ (s : State) (f : Nat) (ws : List Word), admitted s f ws (.keyChange f) →
    let r := exec (.keyChange f) s
    ((s.part f).newkey.isSome = true → refuses s r f ws 1) ∧
    ((s.part f).newkey = none → ∃ u, r = .next u ∧ u.mem = s.mem ∧ u.ctxs = s.ctxs ∧
      (s.rekeyDone f = false → (s.part f).rekeyed = [] →
        (u.part f).newkey = some (Config.randomKey f s.time) ∧ (u.part f).key = (s.part f).key ∧
        (u.part f).keyepoch = (s.part f).keyepoch))) ∧
  (∀ (s : State) (f k a : Nat) (bs : List Byte) (ws : List Word), admitted s f ws (.galleryWrite f k a bs) →
    let r := exec (.galleryWrite f k a bs) s
    let open_ : Prop := s.loadFree (galleryVt f k) a bs.length = true
    (¬ open_ → r = .next s) ∧
    let inside : Prop := 0x800000000000 ≤ a ∧ a + bs.length ≤ 0x1000000000000
    let mapped : Prop := ∃ v, a / 4096 ≤ v ∧ v * 4096 < a + bs.length ∧ s.pageMapped f k (v * 4096) = true
    (open_ → ¬ inside → refuses s r f ws 9) ∧ (open_ → inside → (s.colony f k).live = false → refuses s r f ws 5) ∧
    (open_ → inside → (s.colony f k).live = true → mapped → refuses s r f ws 1) ∧
    (open_ → inside → (s.colony f k).live = true → ¬ mapped → ∃ u, answers r f ws u 0 [] ∧ u.vtiles = s.vtiles ∧
      (∀ c, { u.ctx c with mon := (s.ctx c).mon } = s.ctx c) ∧
      (bs ≠ [] → a % 64 + bs.length ≤ 64 → 
        let pa := Config.loaderPage f k 512 512 (a / 4096) * 4096 + a % 4096
        s.granOk f (pa / 65536) = true → s.cleared (pa / 65536) = false →
        ∀ x, NMap.get 0 u.mem x = if pa ≤ x ∧ x < pa + bs.length then bs.getD (x - pa) 0 else NMap.get 0 s.mem x))) ∧
  (∀ (s : State) (f off : Nat) (bs : List Byte), bs ≠ [] → (s.func f).held = [] → (s.hostGate f off bs.length).2 = true →
    off % 64 + bs.length ≤ 64 →
    (s.bar4 f off = none ∨ (∃ pa, s.bar4 f off = some (pa, false)) → ∃ t, exec (.bar4Write f off bs) s = .next t ∧
      t.mem = s.mem ∧ t.pois = s.pois ∧ t.ctxs = s.ctxs ∧ t.cores = s.cores ∧ ∀ n, t.func n = s.func n) ∧
    (∀ pa, s.bar4 f off = some (pa, true) → pa % 64 = off % 64 → s.cleared (pa / 65536) = false →
      ∃ t, exec (.bar4Write f off bs) s = .next t ∧
        (∀ x, NMap.get 0 t.mem x = if pa ≤ x ∧ x < pa + bs.length then bs.getD (x - pa) 0 else NMap.get 0 s.mem x) ∧
        t.cores = s.cores)) ∧
  (∀ (s : State) (f off : Nat) (bs : List Byte),
    (bs = [] → exec (.bar4Write f off bs) s = .next s) ∧
    (bs ≠ [] → (s.func f).held ≠ [] → ∃ t, exec (.bar4Write f off bs) s = .next t ∧
      t.func f = { s.func f with held := (s.func f).held ++ [.mem off bs] } ∧ { t with funcs := s.funcs } = s) ∧
    (bs ≠ [] → (s.func f).held = [] → (s.hostGate f off bs.length).2 = false → ∃ t, exec (.bar4Write f off bs) s = .next t ∧
      t.func f = { s.func f with held := [.mem off bs] } ∧ { t with funcs := s.funcs } =
        { (s.hostGate f off bs.length).1 with funcs := s.funcs })) ∧
  (∀ (s : State) (f off n i : Nat), i < n → (s.bar4Read f off n).getD i 0 = match s.bar4 f (off + i) with
    | some (pa, _) => BitVec.ofNat 8 (s.homeBytes pa 1)
    | none => 0xFF) ∧
  (∀ (s : State) (f off pa : Nat) (wr : Bool), s.bar4 f off = some (pa, wr) →
    ∃ l w r, (s.func f).windows = l ++ w :: r ∧ (∀ x ∈ l, ¬ (x.off ≤ off ∧ off < x.off + x.n * 65536)) ∧
      w.off ≤ off ∧ off < w.off + w.n * 65536 ∧ pa = w.first * 65536 + (off - w.off) ∧ w.wr = wr ∧
      (s.part f).valid = true ∧ s.granOk f (pa / 65536) = true)

/-- R15, R77, R89, R93, R376, R382, R448, R450, R453: an image that passes its checks becomes the lowest free colony, its vtiles
and gangs set up and queued, once home serves what it loads; a held context of the curator colony goes on or ends; a grant
waits for its mirror, whose arrival writes both entries, or lapses after 10 s. The lowest free colony index is log entry 55, a
remove that waits log entry 38, the checks of the requests log entry 50 (the model's readings). -/
def Sys2Proof.Claims.HostColonies : Prop :=
  (∀ (s : State) (f : Nat) (img : List Byte) (ws : List Word), admitted s f ws (.launchImage f img) →
    let s' := s.popReq f
    let r := exec (.launchImage f img) s
    let st := imgStatus (s.part f).imgKey img
    (st ≠ 0 → refuses s r f ws st) ∧
    (st = 0 → (∀ k, k < 64 → (s.colony f k).live = true) → refuses s r f ws 8) ∧
    (∀ k, st = 0 → k < 64 → (s.colony f k).live = false → (∀ n, n < k → (s.colony f n).live = true) →
      (s'.imgFits f k (imgOf img) = false → refuses s r f ws 4) ∧
      (s'.imgFits f k (imgOf img) = true → s.imageFree f k (imgOf img) = false → r = .next s) ∧
      (s'.imgFits f k (imgOf img) = true → s.imageFree f k (imgOf img) = true → ∃ u, answers r f ws u 0 [BitVec.ofNat 64 k] ∧
        (let c := u.colony f k
         c.live = true ∧ c.gridX = (imgOf img).gx ∧ c.gridY = (imgOf img).gy ∧ c.gangs = (imgOf img).gangs ∧
         c.digest = sha384 img ∧ c.summon = false) ∧
        (u.part f).launched = (s.part f).launched ++ [k] ∧
        (∀ p n, (p, n) ≠ (f, k) → u.colony p n = s.colony p n) ∧
        (∀ v, (v.part, v.col) ≠ (f, k) → u.vtile v = s.vtile v)))) ∧
  (∀ (s : State) (f : Nat) (ws : List Word) (j : Instr), j = .curatorColonyResume f ∨ j = .curatorColonyRemove f →
    admitted s f ws j →
    let w := ws.getD 1 0
    let clean : Prop := (codeOf ws = 1 ∨ codeOf ws = 3) ∧ w.extractLsb' 8 24 = 0 ∧ word1Ok (ws.getD 2 0).toNat = true ∧
      ∀ i, 3 ≤ i → ws.getD i 0 = 0
    let named := s.namedCtx f (s.part f).curcol (ws.getD 2 0).toNat 0
    let held (c : CtxId) : Prop := named = some c ∧ (s.ctx c).st = .parked ∧
      (s.ctx c).parked.hseq = some (w.extractLsb' 32 32).toNat
    (¬ clean → refuses s (exec j s) f ws 9) ∧
    (clean → (∀ c, ¬ held c) → refuses s (exec j s) f ws 5) ∧
    (∀ c, clean → held c → codeOf ws = 3 → s.acquireRoom c = false ∨ s.cutMoves c = true → exec j s = .next s) ∧
    (∀ c, clean → held c → codeOf ws = 1 ∨ (s.acquireRoom c = true ∧ s.cutMoves c = false) → ∃ u, answers (exec j s) f ws u 0 [] ∧
      (codeOf ws = 1 → u = (s.popReq f).unpark c (fun x => x)) ∧ (codeOf ws = 3 → u = (s.popReq f).removeProcess c))) ∧
  (∀ (s : State) (c d : CtxId), (s.unpark c (fun x => x)).ctx d =
    if d = c then { s.ctx c with st := .ready, parked := {}, line := none, prog := {} } else s.ctx d) ∧
  (∀ (s : State) (f : Nat) (a : Grant) (ws : List Word), admitted s f ws (.channelGrant f a) →
    let r := exec (.channelGrant f a) s
    let mine : VtId := ⟨f, a.col, a.x, a.y⟩
    let ok : Prop := (s.part a.other).valid = true ∧ a.other ≠ f ∧ a.other ≤ 15 ∧ (s.colony f a.col).live = true ∧
      (s.vtile mine).exist = true ∧ ∀ k, a.otherCol = some k → (s.colony a.other k).live = true
    (¬ ok → refuses s r f ws 5) ∧
    (ok → (∀ g ∈ s.grants, mirrors f a g.part g.g = false) → answers r f ws
      { s.popReq f with grants := s.grants ++ [⟨tagOf ws, f, a, s.time + 10 * 600000000⟩] } 10 []) ∧
    (∀ g i j, ok → s.grants = [g] → mirrors f a g.part g.g = true →
      (let other : VtId := ⟨g.part, g.g.col, g.g.x, g.g.y⟩
       (s.vtile other).exist = true → mine ≠ other → s.freePerm mine = some i → s.freePerm other = some j →
       ∃ u : State, answers r f ws (u.respond g.part g.tag 0 []) 0 [] ∧ u.grants = [] ∧
        (∀ n, NMap.get 0 (u.vtile mine).perms n = if n = i then grantEntry a else NMap.get 0 (s.vtile mine).perms n) ∧
        (∀ n, NMap.get 0 (u.vtile other).perms n = if n = j then grantEntry g.g else NMap.get 0 (s.vtile other).perms n)))) ∧
  (∀ a : Grant, a.other < 16 → (∀ k, a.otherCol = some k → k < 64) →
    (grantEntry a).getLsbD 0 = true ∧ (grantEntry a).getLsbD 1 = a.otherCol.isNone ∧ (grantEntry a).getLsbD 2 = true ∧
    ((grantEntry a).extractLsb' 16 4).toNat = a.other ∧ ((grantEntry a).extractLsb' 8 6).toNat = a.otherCol.getD 0) ∧
  (∀ (s : State) (f : Nat),
    ((∀ g ∈ s.grants, g.part ≠ f ∨ s.time < g.until_) → exec (.channelGrantLapse f) s = .next s) ∧
    (∀ g, s.grants = [g] → g.part = f → g.until_ ≤ s.time → exec (.channelGrantLapse f) s =
      .next (({ s with grants := [] } : State).hostEvent f
        [8, BitVec.ofNat 64 g.g.other, BitVec.ofNat 64 g.g.col, BitVec.ofNat 64 (g.g.x + g.g.y * 2 ^ 16)])))

/-- R15, R239, R242, R246, R382, R445, R447, R448, R450, R453: memory, colonies and grants of a tenant. -/
def Obligations.TenantRequests : Prop := HostMemory ∧ HostColonies

/-- R297 to R300, R448, R459, R460: queues are made in their partition and end when drained; NOTIFY is a count that the ring
must hold, accepted after the writes held before it; the dispatcher takes packets in order, refuses a malformed one by its STATUS, stops at one that is not valid, waits
for the quota, and sends the forager of the rest, which keeps word 0 as the host wrote it. A granule is mapped where an offset of
BAR4 names it now. Status 9 for a BASE off 128 is log entry 50, the ring inside one window log entry 52, a packet taken whatever
its poison log entry 57 (the model's readings). -/
def Obligations.HostQueues : Prop :=
  (∀ (s : State) (f : Nat) (ws : List Word), admitted s f ws (.createHostQueue f) →
    let w := ws.getD 1 0
    let k := (w.extractLsb' 0 5).toNat
    let col := (w.extractLsb' 5 6).toNat
    let base := (ws.getD 2 0).toNat
    let r := exec (.createHostQueue f) s
    let clean : Prop := 1 ≤ k ∧ k ≤ 16 ∧ w.extractLsb' 12 52 = 0 ∧ base % 128 = 0 ∧ ∀ i, 3 ≤ i → ws.getD i 0 = 0
    let gs := (List.range ((base % 65536 + 2 ^ k * 128 + 65535) / 65536)).map (fun i => base / 65536 + i)
    let there : Prop := (s.colony f col).live = true ∧ s.oneWindow f gs = true
    (¬ clean → refuses s r f ws 9) ∧ (clean → ¬ there → refuses s r f ws 5) ∧
    (clean → there → (∀ q, q < 1024 → (s.hq q).isSome = true) → refuses s r f ws 8) ∧
    (∀ q, clean → there → q < 1024 → s.hq q = none → (∀ n, n < q → (s.hq n).isSome = true) →
      ∃ u, answers r f ws u 0 [BitVec.ofNat 64 q] ∧ { u with hqs := s.hqs } = s.popReq f ∧
        u.hq q = some { part := f, col := col, k := k, base := base, scaleout := w.getLsbD 11 } ∧
        ∀ n, n ≠ q → u.hq n = s.hq n)) ∧
  (∀ (s : State) (f : Nat) (ws : List Word), admitted s f ws (.destroyHostQueue f) →
    let q := (ws.getD 1 0).toNat
    let r := exec (.destroyHostQueue f) s
    let clean : Prop := q ≤ 1023 ∧ ∀ i, 2 ≤ i → ws.getD i 0 = 0
    (¬ clean → refuses s r f ws 9) ∧ (clean → (∀ h, s.hq q = some h → h.part ≠ f) → refuses s r f ws 5) ∧
    (∀ h, clean → s.hq q = some h → h.part = f → ∃ u, begins r f ws u ∧ { u with hqs := s.hqs } = s.popReq f ∧
      u.hq q = some { h with ending := some (f, tagOf ws) } ∧ ∀ n, n ≠ q → u.hq n = s.hq n)) ∧
  (∀ (s : State) (q : Nat) (h : HostQ), s.hq q = some h →
    (h.ending = none ∨ h.rd ≠ h.notify → exec (.hostQueueDestroyed q) s = .next s) ∧
    (∀ f n, h.ending = some (f, n) → h.rd = h.notify → ∃ u : State, exec (.hostQueueDestroyed q) s = .next (u.answer f n 0 []) ∧
      u.hq q = none ∧ (∀ n, n ≠ q → u.hq n = s.hq n) ∧ { u with hqs := s.hqs } = s) ∧
    (∀ f (w : Word), f = 16 ∨ h.part = f →
      let n := (w.setWidth 32).toNat
      let d := (BitVec.ofNat 32 n - BitVec.ofNat 32 h.rd).toNat
      let sets (r : Step) (h' : HostQ) : Prop := ∃ t, r = .next t ∧ t.hq q = some h' ∧ (∀ n, n ≠ q → t.hq n = s.hq n) ∧
        { t with hqs := s.hqs } = s
      ((s.func f).held = [] → 2 ^ h.k < d → sets (exec (.notify f q w) s) { h with err := true }) ∧
      ((s.func f).held = [] → d ≤ 2 ^ h.k → sets (exec (.notify f q w) s) { h with notify := n, stalled := false }) ∧
      (w.getLsbD 0 = true → sets (exec (.errClear f q w) s) { h with err := false }) ∧
      (w.getLsbD 0 = false → exec (.errClear f q w) s = .next s)) ∧
    (∀ f w, f ≠ 16 → h.part ≠ f → ((s.func f).held = [] → exec (.notify f q w) s = .next s) ∧
      exec (.errClear f q w) s = .next s ∧ s.bar2Read f (64 * q) = 0) ∧
    (∀ f, f = 16 ∨ h.part = f → s.bar2Read f (64 * q) = h.notify ∧ s.bar2Read f (64 * q + 8) = h.rd ∧
      s.bar2Read f (64 * q + 16) = if h.err then 1 else 0) ∧
    (∀ f w, (s.func f).held ≠ [] → ∃ t, exec (.notify f q w) s = .next t ∧
      t.func f = { s.func f with held := (s.func f).held ++ [.notify q w] } ∧ { t with funcs := s.funcs } = s) ∧
    (let addr := h.base + h.rd % 2 ^ h.k * 128
     let ws := (List.range 16).map (fun i => BitVec.ofNat 64 (s.homeBytes (addr + 8 * i) 8))
     let p := h.part
     let valid := (ws.getD 0 0).getLsbD 0
     let good : Prop := s.packetStatus p ws = 0 ∧ s.mapped p (addr / 65536) = true
     let due : Prop := h.stalled = false ∧ h.rd ≠ h.notify ∧ (s.part p).state = 1
     let full : Prop := valid = true ∧ good ∧ (s.part p).fquota ≤ (s.part p).fcount
     let free : Prop := due ∧ (s.packetGate p addr).2 = true
     let held := (s.packetGate p addr).1
     (¬ due ∨ full → exec (.dispatchPacket q) s = .next s) ∧
     (due → ¬ full → ¬ free → exec (.dispatchPacket q) s = .next held ∧ held.mem = s.mem ∧ held.hqs = s.hqs ∧ held.net = s.net ∧
       held.ctxs = s.ctxs) ∧
     (free → valid = false → ∃ t, exec (.dispatchPacket q) s = .next t ∧ t.hq q = some { h with stalled := true } ∧
       t.mem = s.mem ∧ t.net = s.net) ∧
     (free → valid = true → ¬ good → s.granOk p (addr / 65536) = true → s.cleared (addr / 65536) = false → addr % 8 = 0 →
       ∃ t, exec (.dispatchPacket q) s = .next t ∧ t.hq q = some { h with rd := (h.rd + 1) % 2 ^ 32 } ∧ t.net = s.net ∧
        (t.homeBytes addr 8) = ((2#4 ++ (ws.getD 0 0).extractLsb' 1 59 ++ 0#1 : Word)).toNat ∧
        ∀ x, x < addr ∨ addr + 8 ≤ x → NMap.get 0 t.mem x = NMap.get 0 s.mem x) ∧
     (free → valid = true → ¬ good → s.granOk p (addr / 65536) = false →
       ∃ t, exec (.dispatchPacket q) s = .next t ∧ t.hq q = some { h with rd := (h.rd + 1) % 2 ^ 32 } ∧ t.net = s.net ∧
        t.mem = s.mem) ∧
     (free → valid = true → good → (s.part p).fcount < (s.part p).fquota →
       ∃ t, exec (.dispatchPacket q) s = .next t ∧ t.hq q = some { h with rd := (h.rd + 1) % 2 ^ 32 } ∧
        (let w := ws.getD 0 0
         let v : VtId := ⟨p, (w.extractLsb' 16 6).toNat, (w.extractLsb' 32 9).toNat, (w.extractLsb' 48 9).toNat⟩
         ∀ tl, (s.vtile v).exist = true → (s.translateVt (s.vtile v).ptile v).2 = some tl → t.mem = s.mem ∧ t.net = s.net ++ [{
          src := ⟨v, 0⟩, dst := ⟨v, 0⟩, tile := tl
          body := .forager { entry := ws.getD 1 0, payload := (List.range 8).map (fun i => ws.getD (2 + i) 0), poison := false
                             origin := .packet addr (ws.getD 10 0).toNat w.toNat } none }])))) ∧
  (∀ (s : State) (p g : Nat), s.mapped p g = true ↔ s.granOk p g = true ∧ ∃ w, w.first ≤ g ∧ g < w.first + w.n ∧
    (s.func p).windowAt (w.off + (g - w.first) * 65536) = some w)

/-- R428 to R430, R451, R452, R454, R455: a quote goes to the host's buffer, not during an activation; entries of the log are read
from a number on, and leave the ring when released; a record named by the host is signed, and one closed for it is of kind 1; a
report lists the gangs that its reader may
see; a launch packet from a peer needs a queue that accepts them, is answered by a report, and waits in the order of its port while
its partition does not run or has no room in its quota. The statuses of a scale-out launch and its waiting are log entry 55, status
8 at a full ring log entry 60, CLOSE_RECORD with a number log entry 97 (the model's readings). -/
def Sys2Proof.Claims.HostReports : Prop :=
  (∀ (s : State) (f : Nat) (nonce : List Byte) (buf : Nat),
    (s.upkeep.activating = true → exec (.attestationQuote f nonce buf) s = .next s) ∧
    (∀ ws, s.upkeep.activating = false → next? s f ws → opOf ws = 0x0E → (ws.getD 0 0).extractLsb' 24 40 = 0 →
      (f ≠ 16 → (s.part f).valid = true) →
      let r := exec (.attestationQuote f nonce buf) s
      (nonce.length ≠ 48 → refuses s r f ws 9) ∧
      (nonce.length = 48 → ∃ u b, answers r f ws u 0 [] ∧ { u with funcs := s.funcs } = s ∧ b.length = 272 ∧
        (b.drop 32).take 48 = nonce ∧ b.drop 176 = signature (beNat (sha384 (b.take 176))) ∧
        (u.func f).dma = (s.func f).dma ++ [(buf, b), (buf + 272, Config.certificate)]))) ∧
  (∀ (s : State) (f p n m buf : Nat) (rel : Bool) (ws : List Word), admitted s f ws (.readLog f p n m rel buf) →
    let r := exec (.readLog f p n m rel buf) s
    let q := s.part p
    let rs := (q.records.filter (fun x => decide (n ≤ x.seq))).take m
    (f ≠ 16 → f ≠ p → refuses s r f ws 6) ∧
    (f = 16 ∨ f = p → q.valid = false → q.freed = false → refuses s r f ws 5) ∧
    (f = 16 ∨ f = p → q.valid = true ∨ q.freed = true → ∃ u, answers r f ws u 0 [BitVec.ofNat 64 rs.length] ∧
      (u.func f).dma = (s.func f).dma ++ [(buf, rs.flatMap (fun x => x.entry p))] ∧ u.mem = s.mem ∧
      u.part p = if rel then { q with records := q.records.filter (fun x => decide (x ∉ rs)) } else q)) ∧
  (∀ (s : State) (f p : Nat) (o : Option Nat) (ws : List Word), admitted s f ws (.closeRecord f ⟨p, o⟩) →
    let r := exec (.closeRecord f ⟨p, o⟩) s
    (f ≠ 16 → f ≠ p → refuses s r f ws 6) ∧
    (f = 16 ∨ f = p → (s.part p).valid = false → refuses s r f ws (if (s.part p).freed then 7 else 5)) ∧
    (∀ n, f = 16 ∨ f = p → (s.part p).valid = true → o = some n →
      ((∀ x ∈ (s.part p).records, x.seq ≠ n) → refuses s r f ws 5) ∧
      ((∃ x ∈ (s.part p).records, x.seq = n) → ∃ u, answers r f ws u 0 [] ∧ partIs (s.popReq f) u p { s.part p with
        records := (s.part p).records.map (fun x => if x.seq = n then { x with signed := true } else x) })) ∧
    (f = 16 ∨ f = p → (s.part p).valid = true → o = none →
      (65536 ≤ (s.part p).records.length → refuses s r f ws 8) ∧
      ((s.part p).records.length < 65536 → ∃ u, answers r f ws u 0 [] ∧ closed (s.popReq f) u p 1))) ∧
  (∀ (s : State) (f buf : Nat) (ws : List Word), admitted s f ws (.residencyReport f buf) →
    ∃ u b, answers (exec (.residencyReport f buf) s) f ws u 0 [] ∧ { u with funcs := s.funcs } = s ∧
      (u.func f).dma = (s.func f).dma ++ [(buf, b)] ∧ b = (s.popReq f).report24 f 0 0 true) ∧
  (∀ (s : State) (f n st : Nat) (list : Bool),
    let gs := (s.gangs.map (·.1)).filter (fun g => decide (f = 16) || decide (g.part = f))
    (s.report24 f n st list).length = 24 + 8 * (if list then gs.length else 0)) ∧
  (∀ (s : State) (i f : Nat), i ≤ 23 → f ≤ 16 →
    exec (.scaleOutReportRequest i f) s = .next { s with sent := s.sent ++ [(i, s.report24 f 0 0 true)] }) ∧
  (∀ (s : State) (i q n : Nat) (ws : List Word), i ≤ 23 → ws.length = 16 →
    let r := exec (.scaleOutLaunchPacket i q n ws) s
    let x := NMap.get {} s.ports24 i
    let reports (u : State) (f st : Nat) (list : Bool) : Prop := ∃ t, r = .next t ∧
      { t with ports24 := s.ports24 } = { u with sent := u.sent ++ [(i, u.report24 f n st list)] } ∧
      ∀ j, NMap.get {} t.ports24 j = NMap.get {} s.ports24 j
    let waits : Prop := ∃ t, r = .next t ∧ { t with ports24 := s.ports24 } = s ∧
      ∀ j, NMap.get {} t.ports24 j = if j = i then { x with pkts := x.pkts ++ [⟨q, n, ws⟩] } else NMap.get {} s.ports24 j
    (∀ k l, x.pkts = k :: l → s.peerPacket i k = none → waits) ∧
    (x.pkts = [] → s.hq q = none → reports s 16 6 false) ∧
    (∀ h, x.pkts = [] → s.hq q = some h → h.scaleout = false → reports s h.part 6 true) ∧
    (∀ h, x.pkts = [] → s.hq q = some h → h.scaleout = true →
      let st := s.packetStatus h.part ws
      ((s.part h.part).state ≠ 1 → waits) ∧
      ((s.part h.part).state = 1 → (ws.getD 0 0).getLsbD 0 = false → reports s h.part 9 true) ∧
      ((s.part h.part).state = 1 → (ws.getD 0 0).getLsbD 0 = true →
        (st ≠ 0 → reports s h.part st true) ∧
        (st = 0 → (s.part h.part).fquota ≤ (s.part h.part).fcount → waits) ∧
        (st = 0 → (s.part h.part).fcount < (s.part h.part).fquota →
          reports (s.launchPacket h.part s.hbmEnd ws) h.part 0 true))))

/-- In u, the only rim controller of s's device is about x, and every partition that ran in s has been stopped, to run again
when it is done (R456, R457). -/
def Sys2Proof.Claims.stoppedAll (s u : State) (x : Upkeep) : Prop :=
  { u.upkeep with ran := x.ran } = x ∧ u.mem = s.mem ∧ u.ctxs = s.ctxs ∧
  ∀ p, (s.part p).valid = true → (s.part p).state = 1 → p ∈ u.upkeep.ran ∧ (u.part p).state = 2 ∧
    ∀ g, g.part = p → (u.gang g).st = .resident → (u.gang g).stopping = true

/-- R241, R245, R423, R444, R456, R457: an image is staged if it verifies and is not older than the counter; the controllers change
over one at a time, the only one of a device after every partition has stopped, and the last makes the image the active one and
raises the counter; a failure takes them back; tiles, channels and controllers are retired or remapped; a reset of the device
clears time and everything that is not fused. Activation answered at its start with statuses 1 and 5 is log entry 54 (the model's
reading). -/
def Sys2Proof.Claims.HostUpkeep : Prop :=
  (∀ (s : State) (f : Nat) (img : List Byte) (ws : List Word), admitted s f ws (.stageFirmware f img) →
    let r := exec (.stageFirmware f img) s
    (s.upkeep.activating = true → refuses s r f ws 1) ∧
    (s.upkeep.activating = false → Config.firmwareVerifies img = false → refuses s r f ws 2) ∧
    (s.upkeep.activating = false → Config.firmwareVerifies img = true → Config.firmwareVersion img < s.rollback →
      refuses s r f ws 3) ∧
    (s.upkeep.activating = false → Config.firmwareVerifies img = true → s.rollback ≤ Config.firmwareVersion img →
      ∃ i, answers r f ws { s.popReq f with staged := some i } 0 [] ∧ i.version = Config.firmwareVersion img ∧
        i.digest = beNat (sha384 img) ∧ 85 ≤ i.threshold ∧ i.threshold ≤ 105)) ∧
  (∀ (s : State) (f : Nat) (ws : List Word), admitted s f ws (.activateFirmware f) →
    let r := exec (.activateFirmware f) s
    let busy : Prop := s.upkeep.busy = true
    (busy → refuses s r f ws 1) ∧ (¬ busy → s.staged = none → refuses s r f ws 5) ∧
    (¬ busy → s.staged.isSome = true → s.form = .sw2304 →
      answers r f ws { s.popReq f with upkeep := { activating := true, restarting := s.workingRims.head? } } 0 []) ∧
    (¬ busy → s.staged.isSome = true → s.form ≠ .sw2304 → ∃ u, answers r f ws u 0 [] ∧
      stoppedAll s u { activating := true, waiting := s.workingRims.head? })) ∧
  (∀ (s : State) (k : Nat), s.upkeep.waiting = some k →
    (s.stops ≠ [] → s.settleUpkeep = s) ∧
    (s.stops = [] → s.settleUpkeep = { s with upkeep := { s.upkeep with restarting := some k, waiting := none } })) ∧
  (∀ (s : State) (r : Nat),
    let u := s.upkeep
    (u.restarting ≠ some r → exec (.rimControllerRestartDone r) s = .next s ∧
      exec (.rimControllerRestartFailure r) s = .next s) ∧
    let ended (s : State) : State := u.ran.foldl State.resumePart { s with upkeep := {} }
    (u.restarting = some r → u.activating = true → u.back = false →
      (∀ n l, s.workingRims.filter (fun x => !NSet.mem (NSet.ins u.changed r) x) = n :: l →
        exec (.rimControllerRestartDone r) s = .next { s with upkeep := { u with
          changed := NSet.ins u.changed r, restarting := some n } }) ∧
      (∀ i, s.workingRims.filter (fun x => !NSet.mem (NSet.ins u.changed r) x) = [] → s.staged = some i →
        exec (.rimControllerRestartDone r) s = .next ((ended { s with
          fw := i, staged := none, rollback := i.version }).hostEvent 16 ([6, 0] ++ digestWords i.digest))) ∧
      (u.changed = [] → exec (.rimControllerRestartFailure r) s = .next ((ended s).hostEvent 16
        ([6, 3] ++ digestWords s.fw.digest))) ∧
      (∀ n l, u.changed = n :: l → exec (.rimControllerRestartFailure r) s =
        .next { s with upkeep := { u with back := true, restarting := some n } })) ∧
    (∀ f n, u.restarting = some r → u.activating = false → u.asker = some (f, n) →
      exec (.rimControllerRestartDone r) s = .next ((ended s).answer f n 0 []))) ∧
  (∀ (s : State) (f n : Nat) (ws : List Word), admitted s f ws (.retireTile f n) →
    let r := exec (.retireTile f n) s
    (s.form.tiles ≤ n → refuses s r f ws 9) ∧
    (n < s.form.tiles → ∃ u, begins r f ws u ∧ (u.tile n).retired = true ∧ u.mem = s.mem ∧ u.ctxs = s.ctxs)) ∧
  (∀ (s : State) (f a b : Nat) (ws : List Word), admitted s f ws (.remapHbmChannel f a b) →
    let r := exec (.remapHbmChannel f a b) s
    (s.form.stacks ≤ a ∨ 15 < b → refuses s r f ws 9) ∧
    (a < s.form.stacks → b ≤ 15 →
      ((∃ x ∈ s.remaps, x.stack = a) → refuses s r f ws 1) ∧
      ((∀ x ∈ s.remaps, x.stack ≠ a) → NMap.get 0 s.spare a ≠ 0 → refuses s r f ws 8) ∧
      ((∀ x ∈ s.remaps, x.stack ≠ a) → NMap.get 0 s.spare a = 0 →
        begins r f ws { s.popReq f with remaps := s.remaps ++ [⟨a, b, 0, some (tagOf ws)⟩] }))) ∧
  (∀ (s : State) (f n : Nat) (ws : List Word), admitted s f ws (.restartRimController f n) →
    let r := exec (.restartRimController f n) s
    let busy : Prop := s.upkeep.busy = true
    (n ∉ s.workingRims → refuses s r f ws 9) ∧ (n ∈ s.workingRims → busy → refuses s r f ws 1) ∧
    (n ∈ s.workingRims → ¬ busy → s.form = .sw2304 →
      begins r f ws { s.popReq f with upkeep := { restarting := some n, asker := some (f, tagOf ws) } }) ∧
    (n ∈ s.workingRims → ¬ busy → s.form ≠ .sw2304 → ∃ u, begins r f ws u ∧
      stoppedAll s u { asker := some (f, tagOf ws), waiting := some n })) ∧
  (∀ (s : State) (f n : Nat) (ws : List Word), admitted s f ws (.retireRimController f n) →
    let r := exec (.retireRimController f n) s
    let used : Prop := s.upkeep.busy = true ∨ s.workingRims.length < 2 ∨
      ∃ e ∈ s.granules, e.2.getLsbD 4 = true ∧ s.rimOf (e.1 * 65536) = n
    (n ∉ s.workingRims → refuses s r f ws 9) ∧ (n ∈ s.workingRims → used → refuses s r f ws 1) ∧
    (n ∈ s.workingRims → ¬ used → answers r f ws { s.popReq f with rims := NSet.ins s.rims n } 0 [])) ∧
  (∀ (s : State) (i : Nat), exec (.linkPortFailure i) s =
    .next (if i < 4 then { s with links := NSet.ins s.links i } else s)) ∧
  (∀ s : State, ∃ t, exec .deviceReset s = .next t ∧ t.time = 0 ∧ t.mem = [] ∧ t.written = [] ∧ t.ctxs = [] ∧ t.parts = [] ∧
    t.granules = [] ∧ t.form = s.form ∧ t.bin = s.bin ∧ t.fw = s.fw ∧ t.rollback = s.rollback ∧
    ((s.ports24.map (·.1)).Nodup → ∀ n, NMap.get {} t.ports24 n = { mode := (NMap.get {} s.ports24 n).mode }) ∧
    ((s.tiles.map (·.1)).Nodup → ∀ n, (t.tile n).retired = (s.tile n).retired ∧ (t.tile n).working = (s.tile n).working ∧ (t.tile n).owner = none))

/-- R241, R423, R430, R452, R454 to R457: quotes, logs and reports; firmware, tiles and controllers. -/
def Obligations.ReportsAndFirmware : Prop := HostReports ∧ HostUpkeep

/-! ### The whole machine -/

/-- No instruction and no event is without an effect: `exec` answers a next state for every row and every state, and a step does,
unless the agenda hands it, as an event, a form that only a context can issue. -/
def Obligations.EveryRowGoesOn : Prop :=
  (∀ (i : Instr) (s : State), ∃ t, exec i s = .next t) ∧
  (∀ s : State, (∀ i r, s.agenda = .event i :: r → i.isForm = false) → ∃ t, step s = .next t) ∧
  (∀ (s : State) (i : Instr) (r : List Move), s.agenda = .event i :: r →
    (i.isForm = true → step s = .fault .notAnEvent) ∧
    (i.isForm = false → step s = settled (exec i { s with agenda := r })))

/-- The memories of the machine keep their canonical form at every step: bytes, side bits, poison, cleared granules and the
granule table hold each address once, in order, and no entry equal to what an unlisted one reads as. -/
def Obligations.MemoriesStayCanonical : Prop := ∀ s t : State, s.wf = true → step s = .next t → t.wf = true

/-- R315, R341, R423: the time base is set to 0 at device reset, is written by nothing else, and counts one for every cycle that
passes; before a cycle passes, the limits of swarms being formed and of `alt` that ran out in it are acted on. -/
def Obligations.TimeBase : Prop :=
  (∀ (i : Instr) (s t : State), i ≠ .deviceReset → exec i s = .next t → t.time = s.time) ∧
  (∀ s t : State, exec .deviceReset s = .next t → t.time = 0) ∧
  (∀ (s t : State) (r : List Move), s.agenda = .cycle :: r → step s = .next t →
    (s.lateSwarms = [] ∧ s.lateAlts = [] → t.time = s.time + 1) ∧
    (s.lateSwarms ≠ [] ∨ s.lateAlts ≠ [] → t.time = s.time ∧
      t.agenda = (s.lateSwarms ++ s.lateAlts).map Move.own ++ .cycle :: r)) ∧
  (∀ (s : State) (a : Auto), a ∈ s.lateSwarms ++ s.lateAlts ↔ ∃ e ∈ s.ctxs, s.running e.1.vt = true ∧
    ((a = .swarmTimeout e.1 ∧ e.2.lim = some 0 ∧ ((∃ x y, e.2.wait = some (.swl x y)) ∨ ∃ x y, e.2.wait = some (.swj x y))) ∨
     (a = .altTimeout e.1 ∧ (s.ctx e.1).lim = some 0 ∧ (s.core e.1.coreId).moving = false ∧
       ∃ x y z, e.2.wait = some (.alt x y z)))) ∧
  State.reset.time = 0

/-- The reset state is in canonical form. -/
def Obligations.ResetIsCanonical : Prop := State.reset.wf = true

/-- R228, R245, R320, R384, R414, R423, R424, R427: at reset nothing is placed, owned or granted: every granule is cleared and free, SRAM
and HBM read zero, no context holds a process, no partition or colony is valid, and the counters are at their reset values.
The form and the bin, and the zero of what has no reset value in the manual, are the model's choice (log entries 3, 5 and 6). -/
def Obligations.ResetValues : Prop :=
  let s := State.reset
  s.time = 0 ∧ s.form = .sw2304 ∧ s.bin = .a ∧ s.mem = [] ∧
  (∀ g, s.cleared g = true ∧ NMap.get 0 s.granules g = 0) ∧
  (∀ pa n, s.homeBytes pa n = 0) ∧ (∀ v a n, s.sramBytes v a n = 0) ∧ (∀ v a, s.sramPois v a = false) ∧
  (∀ c, (s.ctx c).st = .empty ∧ (s.ctx c).posted = [] ∧ (s.ctx c).cwdog = 0 ∧ (s.ctx c).calt = 0 ∧
    (∀ n, (s.ctx c).rg n = 0) ∧ (∀ i, (s.ctx c).bind i = {})) ∧
  (∀ k, (s.core k).cache = [] ∧ (s.core k).copyQ = [] ∧ (s.core k).matQ = [] ∧ (∀ n, (s.core k).sem n = 0)) ∧
  (∀ v, s.vtile v = {}) ∧ (∀ p k, (s.colony p k).live = false) ∧ (∀ g, (s.gang g).st = .absent) ∧
  (∀ p, let q := s.part p
    q.valid = false ∧ q.rate = 0 ∧ q.depth = 0 ∧ q.tokens = 0 ∧ q.lend = false ∧ q.recalled = false ∧ q.fcount = 0 ∧
    q.fquota = 65536 ∧ q.saveto = 2000 ∧ q.quantum = 10 ∧ (∀ b, NMap.get 0 q.debt b = 0) ∧ ∀ i, NMap.get 0 q.use i = 0) ∧
  (∀ t, (s.tile t).owner = none ∧ (s.tile t).vtile = none ∧ (s.tile t).latch = false ∧ (s.tile t).ni = [] ∧
    ∀ k, NSet.mem (s.tile t).unmasked k = false) ∧
  (∀ d k, NSet.mem (NMap.get [] s.dieUnmasked d) k = false) ∧ (∀ b, (s.bank b).ptr = 0 ∧ (s.bank b).acts = []) ∧
  (∀ q, (s.quad q).hold = 0 ∧ (s.quad q).trans = 0 ∧ (s.quad q).throttled = false)

/-- Decoding and encoding agree: every well-formed instruction that has an encoding is what its words decode to, whatever its
operands, and words that decode are the words of what they decode to: no bit is dropped and none is ignored. -/
def Obligations.DecodeEncode : Prop :=
  (∀ (i : Instr) (h t : Nat), i.wf = true → encode i = some (h, t) →
    h < 2 ^ 16 ∧ t < 2 ^ (16 * tailLen h) ∧ decode h t = .ok i) ∧
  (∀ (h t : Nat) (i : Instr), h < 2 ^ 16 → t < 2 ^ (16 * tailLen h) → decode h t = .ok i →
    i.wf = true ∧ encode i = some (h, t))

/-- Words that the spec writes out: each head and tail decodes to the instruction it stands for. -/
def Obligations.SpecEncodings : Prop :=
  decode 0x1985 0x00D00004 = .ok (.ptag ⟨5, 4, 0x10, 3⟩) ∧
  decode 0x3982 0x000A0201 = .ok (.fcvt ⟨2, 1, 0x08, 0x0A, .rne, false⟩) ∧
  decode 0x3083 0x20004081 = .ok (.fadd ⟨3, 1, 2, .rtz, .bf16⟩) ∧
  decode 0x66A3 0x100008A1 = .ok (.vadd ⟨3, 1, 2, 0, .i8, .rne, true⟩) ∧
  decode 0x80F9 0x0000614401040103 = .ok (.mmq ⟨1, 4, 5, 6, ⟨3, 1, 4, 1⟩⟩) ∧
  decode 0x8880 0x00020000 = .ok (.msub ⟨0, 2⟩) ∧
  decode 0xC080 0x00420000 = .ok (.trap 0x42) ∧
  decode 0xC505 0 = .ok (.rdtime 5) ∧
  decode 0xA081 0x00040000 = .ok (.chs ⟨1, 4, 0⟩) ∧
  decode 0xAB47 0x0006 = .ok (.swl ⟨7, 6⟩) ∧
  decode 0xB248 0 = .ok (.whoami 8) ∧
  decode 0xC843 0x2144 = .ok (.tlbi ⟨3, 4, 5, 2, false⟩) ∧
  decode 0xCA80 0x00E30000 = .ok (.cbind ⟨0, 3, 7⟩) ∧
  decode 0xC940 0x01C6 = .ok (.cload ⟨0, 6, 7⟩) ∧
  decode 0xE341 0x0144 = .ok (.combTail1 ⟨3, 1, 4, 5⟩) ∧
  decode 0x9280 0x01050000 = .ok (.semw ⟨5, .imm 1, false⟩) ∧
  decode 0x9383 0x02070000 = .ok (.semt ⟨3, 7, .imm 2, false⟩) ∧
  decode 0xAF40 0x8000 = .ok (.bar ⟨0, .tile⟩) ∧
  decode 0xB140 0x8005 = .ok (.barw ⟨5, .tile⟩) ∧
  decode 0xC680 0x02580000 = .ok (.wdog 600) ∧
  decode 0x1398 0x114C000B = .ok (.bfx ⟨24, 11, 12, 5, true⟩) ∧
  decode 0x4283 0x00000040 = .ok (.ldpOff16 ⟨3, 1, 0, 0⟩)
end

