-- ==== Sys2Proof/Laws/Map.lean ====
section
/-! SUPPORT. Reading after writing in maps and sets, and that every operation on them keeps their canonical form. -/

namespace Sys2Proof.Machine

/-! ### Maps keyed by numbers -/

namespace NMap

variable {β : Type}

theorem get_filter_ne (d : β) (m : NMap β) (p : Nat × β → Bool) (k : Nat) (h : ∀ b, p (k, b) = true) :
    get d (m.filter p) k = get d m k := by
  induction m with
  | nil => rfl
  | cons e r ih =>
    obtain ⟨a, b⟩ := e
    by_cases hp : p (a, b) = true
    · rw [List.filter_cons_of_pos hp, get, get, ih]
    · rw [List.filter_cons_of_neg hp, ih, get]
      have : a ≠ k := by rintro rfl; exact hp (h b)
      simp [this]

theorem get_filter_eq (d : β) (m : NMap β) (p : Nat × β → Bool) (k : Nat) (h : ∀ b, p (k, b) = false) :
    get d (m.filter p) k = d := by
  induction m with
  | nil => rfl
  | cons e r ih =>
    obtain ⟨a, b⟩ := e
    by_cases hp : p (a, b) = true
    · rw [List.filter_cons_of_pos hp, get, ih]
      have : a ≠ k := by rintro rfl; rw [h b] at hp; exact Bool.noConfusion hp
      simp [this]
    · rw [List.filter_cons_of_neg hp, ih]

@[simp] theorem get_erase_same (d : β) (m : NMap β) (k : Nat) : get d (erase m k) k = d :=
  get_filter_eq d m _ k (fun _ => by simp)

theorem get_erase_other (d : β) (m : NMap β) (k j : Nat) (h : j ≠ k) : get d (erase m k) j = get d m j :=
  get_filter_ne d m _ j (fun _ => by simp [h])

theorem get_insert_same (d : β) (m : NMap β) (k : Nat) (v : β) (h : ∀ e ∈ m, e.1 ≠ k) : get d (insert m k v) k = v := by
  induction m with
  | nil => simp [insert, get]
  | cons e r ih =>
    obtain ⟨a, b⟩ := e
    have ha : a ≠ k := h (a, b) List.mem_cons_self
    unfold insert
    split
    · simp [get]
    · rw [get, if_neg ha]
      exact ih (fun e he => h e (List.mem_cons_of_mem _ he))

theorem get_insert_other (d : β) (m : NMap β) (k j : Nat) (v : β) (h : j ≠ k) : get d (insert m k v) j = get d m j := by
  induction m with
  | nil => simp [insert, get, h.symm]
  | cons e r ih =>
    obtain ⟨a, b⟩ := e
    unfold insert
    split
    · simp [get, h.symm]
    · rw [get, get, ih]

theorem mem_erase_ne (m : NMap β) (k : Nat) : ∀ e ∈ erase m k, e.1 ≠ k := by
  intro e he
  simpa [erase] using (List.mem_filter.mp he).2

/-- Reading after writing: the value written at its key, every other key as before. -/
theorem get_set [DecidableEq β] (d : β) (m : NMap β) (k j : Nat) (v : β) :
    get d (set d m k v) j = if j = k then v else get d m j := by
  unfold set
  by_cases hv : v = d
  · by_cases hj : j = k
    · simp [hv, hj]
    · simp [hv, hj, get_erase_other d m k j hj]
  · by_cases hj : j = k
    · subst hj
      simp [hv, get_insert_same d _ j v (mem_erase_ne m j)]
    · simp [hv, hj, get_insert_other d _ k j v hj, get_erase_other d m k j hj]

@[simp] theorem get_set_same [DecidableEq β] (d : β) (m : NMap β) (k : Nat) (v : β) : get d (set d m k v) k = v := by
  simp [get_set]

theorem get_set_other [DecidableEq β] (d : β) (m : NMap β) (k j : Nat) (v : β) (h : j ≠ k) :
    get d (set d m k v) j = get d m j := by
  simp [get_set, h]

/-! The canonical form -/

theorem wfFrom_mono [DecidableEq β] (d : β) {lo lo' : Option Nat} {m : NMap β}
    (hle : ∀ l', lo' = some l' → ∃ l, lo = some l ∧ l' ≤ l) (h : wfFrom d lo m = true) : wfFrom d lo' m = true := by
  cases m with
  | nil => rfl
  | cons e r =>
    obtain ⟨a, b⟩ := e
    simp only [wfFrom, Bool.and_eq_true, decide_eq_true_eq] at h ⊢
    refine ⟨⟨?_, h.1.2⟩, h.2⟩
    cases lo' with
    | none => rfl
    | some l' =>
      obtain ⟨l, rfl, hl⟩ := hle l' rfl
      have := h.1.1
      simp only [decide_eq_true_eq] at this ⊢
      omega

theorem wfFrom_filter [DecidableEq β] (d : β) (p : Nat × β → Bool) (m : NMap β) (lo : Option Nat)
    (h : wfFrom d lo m = true) : wfFrom d lo (m.filter p) = true := by
  induction m generalizing lo with
  | nil => rfl
  | cons e r ih =>
    obtain ⟨a, b⟩ := e
    simp only [wfFrom, Bool.and_eq_true, decide_eq_true_eq] at h
    by_cases hp : p (a, b) = true
    · rw [List.filter_cons_of_pos hp]
      simp only [wfFrom, Bool.and_eq_true, decide_eq_true_eq]
      exact ⟨h.1, ih _ h.2⟩
    · rw [List.filter_cons_of_neg hp]
      refine wfFrom_mono d ?_ (ih _ h.2)
      rintro l' rfl
      have := h.1.1
      simp only [decide_eq_true_eq] at this
      exact ⟨a, rfl, by omega⟩

theorem wfFrom_insert [DecidableEq β] (d : β) (m : NMap β) (k : Nat) (v : β) (hv : v ≠ d) (hk : ∀ e ∈ m, e.1 ≠ k)
    (lo : Option Nat) (hlo : ∀ l, lo = some l → l < k) (h : wfFrom d lo m = true) :
    wfFrom d lo (insert m k v) = true := by
  induction m generalizing lo with
  | nil =>
    cases lo with
    | none => simp [insert, wfFrom, hv]
    | some l => simp [insert, wfFrom, hv, hlo l rfl]
  | cons e r ih =>
    obtain ⟨a, b⟩ := e
    have ha : a ≠ k := hk (a, b) List.mem_cons_self
    simp only [wfFrom, Bool.and_eq_true, decide_eq_true_eq] at h
    unfold insert
    split
    · rename_i hka
      simp only [wfFrom, Bool.and_eq_true, decide_eq_true_eq]
      refine ⟨⟨?_, hv⟩, ⟨hka, h.1.2⟩, h.2⟩
      cases lo with
      | none => rfl
      | some l => simpa using hlo l rfl
    · rename_i hka
      simp only [wfFrom, Bool.and_eq_true, decide_eq_true_eq]
      refine ⟨h.1, ih (fun e he => hk e (List.mem_cons_of_mem _ he)) (some a) ?_ h.2⟩
      rintro l ⟨⟩
      omega

/-- Writing keeps the canonical form. -/
theorem wf_set [DecidableEq β] (d : β) (m : NMap β) (k : Nat) (v : β) (h : wf d m = true) : wf d (set d m k v) = true := by
  unfold set
  split
  · exact wfFrom_filter d _ m none h
  · rename_i hv
    exact wfFrom_insert d _ k v hv (mem_erase_ne m k) none (by simp) (wfFrom_filter d _ m none h)

/-- Keeping some keys keeps the canonical form. -/
theorem wf_keep [DecidableEq β] (d : β) (m : NMap β) (p : Nat → Bool) (h : wf d m = true) : wf d (keep m p) = true :=
  wfFrom_filter d _ m none h

theorem get_keep (d : β) (m : NMap β) (p : Nat → Bool) (k : Nat) : get d (keep m p) k = if p k then get d m k else d := by
  cases h : p k with
  | true => exact get_filter_ne d m (fun x => p x.1) k (fun _ => h)
  | false => exact get_filter_eq d m (fun x => p x.1) k (fun _ => h)

end NMap

/-! ### Records by key -/

namespace AMap

variable {κ β : Type} [DecidableEq κ]

/-- Reading after putting. -/
theorem get_put (d : β) (m : AMap κ β) (k j : κ) (v : β) : get d (put m k v) j = if j = k then v else get d m j := by
  induction m with
  | nil => simp [put, get, eq_comm]
  | cons e r ih =>
    obtain ⟨a, b⟩ := e
    unfold put
    by_cases ha : a = k
    · subst ha
      by_cases hj : j = a <;> simp [get, hj, eq_comm]
    · by_cases hj : a = j
      · subst hj
        simp [get, ha]
      · simp [get, ha, hj, ih]

@[simp] theorem get_put_same (d : β) (m : AMap κ β) (k : κ) (v : β) : get d (put m k v) k = v := by simp [get_put]

theorem get_put_other (d : β) (m : AMap κ β) (k j : κ) (v : β) (h : j ≠ k) : get d (put m k v) j = get d m j := by
  simp [get_put, h]

end AMap

/-! ### Sets of numbers -/

namespace NSet

/-- Every member is above `lo`, and members rise. -/
theorem wf_cons (a : Nat) (r : NSet) : NSet.wf (a :: r) = true ↔ (∀ x ∈ r, a < x) ∧ NSet.wf r = true := by
  induction r generalizing a with
  | nil => simp [NSet.wf]
  | cons b r ih =>
    simp only [NSet.wf, Bool.and_eq_true, decide_eq_true_eq]
    constructor
    · rintro ⟨h1, h2⟩
      refine ⟨?_, h2⟩
      intro x hx
      rcases List.mem_cons.mp hx with rfl | hx
      · exact h1
      · exact lt_trans h1 (((ih b).mp h2).1 x hx)
    · rintro ⟨h1, h2⟩
      exact ⟨h1 b List.mem_cons_self, h2⟩

theorem wf_filter (p : Nat → Bool) (s : NSet) (h : NSet.wf s = true) : NSet.wf (s.filter p) = true := by
  induction s with
  | nil => rfl
  | cons a r ih =>
    obtain ⟨h1, h2⟩ := (wf_cons a r).mp h
    by_cases hp : p a = true
    · rw [List.filter_cons_of_pos hp, wf_cons]
      exact ⟨fun x hx => h1 x (List.mem_filter.mp hx).1, ih h2⟩
    · rw [List.filter_cons_of_neg hp]
      exact ih h2

theorem mem_ins (s : NSet) (k x : Nat) : x ∈ ins s k ↔ x = k ∨ x ∈ s := by
  induction s with
  | nil => simp [ins]
  | cons a r ih =>
    unfold ins
    split
    · simp
    · split
      · rename_i h
        subst h
        simp
      · simp only [List.mem_cons, ih]
        tauto

theorem wf_ins (s : NSet) (k : Nat) (h : NSet.wf s = true) : NSet.wf (ins s k) = true := by
  induction s with
  | nil => rfl
  | cons a r ih =>
    obtain ⟨h1, h2⟩ := (wf_cons a r).mp h
    unfold ins
    split
    · rename_i hka
      rw [wf_cons]
      refine ⟨?_, h⟩
      intro x hx
      rcases List.mem_cons.mp hx with rfl | hx
      · exact hka
      · exact lt_trans hka (h1 x hx)
    · split
      · exact h
      · rw [wf_cons]
        refine ⟨?_, ih h2⟩
        intro x hx
        rcases (mem_ins r k x).mp hx with rfl | hx
        · omega
        · exact h1 x hx

theorem wf_erase (s : NSet) (k : Nat) (h : NSet.wf s = true) : NSet.wf (erase s k) = true := wf_filter _ s h

/-- Putting a member in or out keeps the order. -/
theorem wf_put (s : NSet) (k : Nat) (b : Bool) (h : NSet.wf s = true) : NSet.wf (put s k b) = true := by
  unfold put
  split
  · exact wf_ins s k h
  · exact wf_erase s k h

/-- Membership after putting a member in or out. -/
theorem mem_put (s : NSet) (k x : Nat) (b : Bool) : NSet.mem (put s k b) x = if x = k then b else NSet.mem s x := by
  have mem_iff (s : NSet) : NSet.mem s x = decide (x ∈ s) := by
    simp [NSet.mem, List.any_eq, eq_comm]
  rw [mem_iff, mem_iff]
  cases b <;> by_cases hx : x = k <;> simp [put, erase, mem_ins, hx]

end NSet

end Sys2Proof.Machine
end

