-- ==== Sys2Proof/Laws/State.lean ====
section
/-! SUPPORT. What each update of State leaves in each field, and reading a record after an update. -/

namespace Sys2Proof.Machine

/-! ### The fields after an update -/

@[simp] theorem State.putCtx_agenda (s : State) (c : CtxId) (x : Ctx) : (s.putCtx c x).agenda = s.agenda := rfl
@[simp] theorem State.putCtx_cur (s : State) (c : CtxId) (x : Ctx) : (s.putCtx c x).cur = s.cur := rfl
@[simp] theorem State.putCtx_time (s : State) (c : CtxId) (x : Ctx) : (s.putCtx c x).time = s.time := rfl
@[simp] theorem State.putCtx_refills (s : State) (c : CtxId) (x : Ctx) : (s.putCtx c x).refills = s.refills := rfl
@[simp] theorem State.putCtx_net (s : State) (c : CtxId) (x : Ctx) : (s.putCtx c x).net = s.net := rfl
@[simp] theorem State.putCtx_probes (s : State) (c : CtxId) (x : Ctx) : (s.putCtx c x).probes = s.probes := rfl
@[simp] theorem State.putCtx_ends (s : State) (c : CtxId) (x : Ctx) : (s.putCtx c x).ends = s.ends := rfl
@[simp] theorem State.putCtx_form (s : State) (c : CtxId) (x : Ctx) : (s.putCtx c x).form = s.form := rfl
@[simp] theorem State.putCtx_bin (s : State) (c : CtxId) (x : Ctx) : (s.putCtx c x).bin = s.bin := rfl
@[simp] theorem State.putCtx_mem (s : State) (c : CtxId) (x : Ctx) : (s.putCtx c x).mem = s.mem := rfl
@[simp] theorem State.putCtx_pois (s : State) (c : CtxId) (x : Ctx) : (s.putCtx c x).pois = s.pois := rfl
@[simp] theorem State.putCtx_poisLine (s : State) (c : CtxId) (x : Ctx) : (s.putCtx c x).poisLine = s.poisLine := rfl
@[simp] theorem State.putCtx_badLine (s : State) (c : CtxId) (x : Ctx) : (s.putCtx c x).badLine = s.badLine := rfl
@[simp] theorem State.putCtx_side (s : State) (c : CtxId) (x : Ctx) : (s.putCtx c x).side = s.side := rfl
@[simp] theorem State.putCtx_written (s : State) (c : CtxId) (x : Ctx) : (s.putCtx c x).written = s.written := rfl
@[simp] theorem State.putCtx_granules (s : State) (c : CtxId) (x : Ctx) : (s.putCtx c x).granules = s.granules := rfl
@[simp] theorem State.putCtx_zeroing (s : State) (c : CtxId) (x : Ctx) : (s.putCtx c x).zeroing = s.zeroing := rfl
@[simp] theorem State.putCtx_homeQ (s : State) (c : CtxId) (x : Ctx) : (s.putCtx c x).homeQ = s.homeQ := rfl
@[simp] theorem State.putCtx_cores (s : State) (c : CtxId) (x : Ctx) : (s.putCtx c x).cores = s.cores := rfl
@[simp] theorem State.putCtx_vtiles (s : State) (c : CtxId) (x : Ctx) : (s.putCtx c x).vtiles = s.vtiles := rfl
@[simp] theorem State.putCtx_tiles (s : State) (c : CtxId) (x : Ctx) : (s.putCtx c x).tiles = s.tiles := rfl
@[simp] theorem State.putCtx_colonies (s : State) (c : CtxId) (x : Ctx) : (s.putCtx c x).colonies = s.colonies := rfl
@[simp] theorem State.putCtx_parts (s : State) (c : CtxId) (x : Ctx) : (s.putCtx c x).parts = s.parts := rfl
@[simp] theorem State.putCtx_gangs (s : State) (c : CtxId) (x : Ctx) : (s.putCtx c x).gangs = s.gangs := rfl
@[simp] theorem State.putCtx_dies (s : State) (c : CtxId) (x : Ctx) : (s.putCtx c x).dies = s.dies := rfl
@[simp] theorem State.putCtx_dieQ (s : State) (c : CtxId) (x : Ctx) : (s.putCtx c x).dieQ = s.dieQ := rfl
@[simp] theorem State.putCtx_stops (s : State) (c : CtxId) (x : Ctx) : (s.putCtx c x).stops = s.stops := rfl
@[simp] theorem State.putCtx_treeWait (s : State) (c : CtxId) (x : Ctx) : (s.putCtx c x).treeWait = s.treeWait := rfl
@[simp] theorem State.putCtx_thermals (s : State) (c : CtxId) (x : Ctx) : (s.putCtx c x).thermals = s.thermals := rfl
@[simp] theorem State.putCtx_tests (s : State) (c : CtxId) (x : Ctx) : (s.putCtx c x).tests = s.tests := rfl
@[simp] theorem State.putCtx_transfers (s : State) (c : CtxId) (x : Ctx) : (s.putCtx c x).transfers = s.transfers := rfl
@[simp] theorem State.putCtx_hqs (s : State) (c : CtxId) (x : Ctx) : (s.putCtx c x).hqs = s.hqs := rfl
@[simp] theorem State.putCtx_funcs (s : State) (c : CtxId) (x : Ctx) : (s.putCtx c x).funcs = s.funcs := rfl
@[simp] theorem State.putCtx_grants (s : State) (c : CtxId) (x : Ctx) : (s.putCtx c x).grants = s.grants := rfl
@[simp] theorem State.putCtx_fw (s : State) (c : CtxId) (x : Ctx) : (s.putCtx c x).fw = s.fw := rfl
@[simp] theorem State.putCtx_staged (s : State) (c : CtxId) (x : Ctx) : (s.putCtx c x).staged = s.staged := rfl
@[simp] theorem State.putCtx_rollback (s : State) (c : CtxId) (x : Ctx) : (s.putCtx c x).rollback = s.rollback := rfl
@[simp] theorem State.putCtx_upkeep (s : State) (c : CtxId) (x : Ctx) : (s.putCtx c x).upkeep = s.upkeep := rfl
@[simp] theorem State.putCtx_rims (s : State) (c : CtxId) (x : Ctx) : (s.putCtx c x).rims = s.rims := rfl
@[simp] theorem State.putCtx_regrades (s : State) (c : CtxId) (x : Ctx) : (s.putCtx c x).regrades = s.regrades := rfl
@[simp] theorem State.putCtx_remaps (s : State) (c : CtxId) (x : Ctx) : (s.putCtx c x).remaps = s.remaps := rfl
@[simp] theorem State.putCtx_spare (s : State) (c : CtxId) (x : Ctx) : (s.putCtx c x).spare = s.spare := rfl
@[simp] theorem State.putCtx_banks (s : State) (c : CtxId) (x : Ctx) : (s.putCtx c x).banks = s.banks := rfl
@[simp] theorem State.putCtx_dieUnmasked (s : State) (c : CtxId) (x : Ctx) : (s.putCtx c x).dieUnmasked = s.dieUnmasked := rfl
@[simp] theorem State.putCtx_ports24 (s : State) (c : CtxId) (x : Ctx) : (s.putCtx c x).ports24 = s.ports24 := rfl
@[simp] theorem State.putCtx_sent (s : State) (c : CtxId) (x : Ctx) : (s.putCtx c x).sent = s.sent := rfl
@[simp] theorem State.putCtx_links (s : State) (c : CtxId) (x : Ctx) : (s.putCtx c x).links = s.links := rfl
@[simp] theorem State.putCtx_modno (s : State) (c : CtxId) (x : Ctx) : (s.putCtx c x).modno = s.modno := rfl

@[simp] theorem State.putCore_agenda (s : State) (k : CoreId) (x : Core) : (s.putCore k x).agenda = s.agenda := rfl
@[simp] theorem State.putCore_cur (s : State) (k : CoreId) (x : Core) : (s.putCore k x).cur = s.cur := rfl
@[simp] theorem State.putCore_time (s : State) (k : CoreId) (x : Core) : (s.putCore k x).time = s.time := rfl
@[simp] theorem State.putCore_refills (s : State) (k : CoreId) (x : Core) : (s.putCore k x).refills = s.refills := rfl
@[simp] theorem State.putCore_net (s : State) (k : CoreId) (x : Core) : (s.putCore k x).net = s.net := rfl
@[simp] theorem State.putCore_probes (s : State) (k : CoreId) (x : Core) : (s.putCore k x).probes = s.probes := rfl
@[simp] theorem State.putCore_ends (s : State) (k : CoreId) (x : Core) : (s.putCore k x).ends = s.ends := rfl
@[simp] theorem State.putCore_form (s : State) (k : CoreId) (x : Core) : (s.putCore k x).form = s.form := rfl
@[simp] theorem State.putCore_bin (s : State) (k : CoreId) (x : Core) : (s.putCore k x).bin = s.bin := rfl
@[simp] theorem State.putCore_mem (s : State) (k : CoreId) (x : Core) : (s.putCore k x).mem = s.mem := rfl
@[simp] theorem State.putCore_pois (s : State) (k : CoreId) (x : Core) : (s.putCore k x).pois = s.pois := rfl
@[simp] theorem State.putCore_poisLine (s : State) (k : CoreId) (x : Core) : (s.putCore k x).poisLine = s.poisLine := rfl
@[simp] theorem State.putCore_badLine (s : State) (k : CoreId) (x : Core) : (s.putCore k x).badLine = s.badLine := rfl
@[simp] theorem State.putCore_side (s : State) (k : CoreId) (x : Core) : (s.putCore k x).side = s.side := rfl
@[simp] theorem State.putCore_written (s : State) (k : CoreId) (x : Core) : (s.putCore k x).written = s.written := rfl
@[simp] theorem State.putCore_granules (s : State) (k : CoreId) (x : Core) : (s.putCore k x).granules = s.granules := rfl
@[simp] theorem State.putCore_zeroing (s : State) (k : CoreId) (x : Core) : (s.putCore k x).zeroing = s.zeroing := rfl
@[simp] theorem State.putCore_homeQ (s : State) (k : CoreId) (x : Core) : (s.putCore k x).homeQ = s.homeQ := rfl
@[simp] theorem State.putCore_ctxs (s : State) (k : CoreId) (x : Core) : (s.putCore k x).ctxs = s.ctxs := rfl
@[simp] theorem State.putCore_vtiles (s : State) (k : CoreId) (x : Core) : (s.putCore k x).vtiles = s.vtiles := rfl
@[simp] theorem State.putCore_tiles (s : State) (k : CoreId) (x : Core) : (s.putCore k x).tiles = s.tiles := rfl
@[simp] theorem State.putCore_colonies (s : State) (k : CoreId) (x : Core) : (s.putCore k x).colonies = s.colonies := rfl
@[simp] theorem State.putCore_parts (s : State) (k : CoreId) (x : Core) : (s.putCore k x).parts = s.parts := rfl
@[simp] theorem State.putCore_gangs (s : State) (k : CoreId) (x : Core) : (s.putCore k x).gangs = s.gangs := rfl
@[simp] theorem State.putCore_dies (s : State) (k : CoreId) (x : Core) : (s.putCore k x).dies = s.dies := rfl
@[simp] theorem State.putCore_dieQ (s : State) (k : CoreId) (x : Core) : (s.putCore k x).dieQ = s.dieQ := rfl
@[simp] theorem State.putCore_stops (s : State) (k : CoreId) (x : Core) : (s.putCore k x).stops = s.stops := rfl
@[simp] theorem State.putCore_treeWait (s : State) (k : CoreId) (x : Core) : (s.putCore k x).treeWait = s.treeWait := rfl
@[simp] theorem State.putCore_thermals (s : State) (k : CoreId) (x : Core) : (s.putCore k x).thermals = s.thermals := rfl
@[simp] theorem State.putCore_tests (s : State) (k : CoreId) (x : Core) : (s.putCore k x).tests = s.tests := rfl
@[simp] theorem State.putCore_transfers (s : State) (k : CoreId) (x : Core) : (s.putCore k x).transfers = s.transfers := rfl
@[simp] theorem State.putCore_hqs (s : State) (k : CoreId) (x : Core) : (s.putCore k x).hqs = s.hqs := rfl
@[simp] theorem State.putCore_funcs (s : State) (k : CoreId) (x : Core) : (s.putCore k x).funcs = s.funcs := rfl
@[simp] theorem State.putCore_grants (s : State) (k : CoreId) (x : Core) : (s.putCore k x).grants = s.grants := rfl
@[simp] theorem State.putCore_fw (s : State) (k : CoreId) (x : Core) : (s.putCore k x).fw = s.fw := rfl
@[simp] theorem State.putCore_staged (s : State) (k : CoreId) (x : Core) : (s.putCore k x).staged = s.staged := rfl
@[simp] theorem State.putCore_rollback (s : State) (k : CoreId) (x : Core) : (s.putCore k x).rollback = s.rollback := rfl
@[simp] theorem State.putCore_upkeep (s : State) (k : CoreId) (x : Core) : (s.putCore k x).upkeep = s.upkeep := rfl
@[simp] theorem State.putCore_rims (s : State) (k : CoreId) (x : Core) : (s.putCore k x).rims = s.rims := rfl
@[simp] theorem State.putCore_regrades (s : State) (k : CoreId) (x : Core) : (s.putCore k x).regrades = s.regrades := rfl
@[simp] theorem State.putCore_remaps (s : State) (k : CoreId) (x : Core) : (s.putCore k x).remaps = s.remaps := rfl
@[simp] theorem State.putCore_spare (s : State) (k : CoreId) (x : Core) : (s.putCore k x).spare = s.spare := rfl
@[simp] theorem State.putCore_banks (s : State) (k : CoreId) (x : Core) : (s.putCore k x).banks = s.banks := rfl
@[simp] theorem State.putCore_dieUnmasked (s : State) (k : CoreId) (x : Core) : (s.putCore k x).dieUnmasked = s.dieUnmasked := rfl
@[simp] theorem State.putCore_ports24 (s : State) (k : CoreId) (x : Core) : (s.putCore k x).ports24 = s.ports24 := rfl
@[simp] theorem State.putCore_sent (s : State) (k : CoreId) (x : Core) : (s.putCore k x).sent = s.sent := rfl
@[simp] theorem State.putCore_links (s : State) (k : CoreId) (x : Core) : (s.putCore k x).links = s.links := rfl
@[simp] theorem State.putCore_modno (s : State) (k : CoreId) (x : Core) : (s.putCore k x).modno = s.modno := rfl

@[simp] theorem State.putVt_agenda (s : State) (v : VtId) (x : VTile) : (s.putVt v x).agenda = s.agenda := rfl
@[simp] theorem State.putVt_cur (s : State) (v : VtId) (x : VTile) : (s.putVt v x).cur = s.cur := rfl
@[simp] theorem State.putVt_time (s : State) (v : VtId) (x : VTile) : (s.putVt v x).time = s.time := rfl
@[simp] theorem State.putVt_refills (s : State) (v : VtId) (x : VTile) : (s.putVt v x).refills = s.refills := rfl
@[simp] theorem State.putVt_net (s : State) (v : VtId) (x : VTile) : (s.putVt v x).net = s.net := rfl
@[simp] theorem State.putVt_probes (s : State) (v : VtId) (x : VTile) : (s.putVt v x).probes = s.probes := rfl
@[simp] theorem State.putVt_ends (s : State) (v : VtId) (x : VTile) : (s.putVt v x).ends = s.ends := rfl
@[simp] theorem State.putVt_form (s : State) (v : VtId) (x : VTile) : (s.putVt v x).form = s.form := rfl
@[simp] theorem State.putVt_bin (s : State) (v : VtId) (x : VTile) : (s.putVt v x).bin = s.bin := rfl
@[simp] theorem State.putVt_mem (s : State) (v : VtId) (x : VTile) : (s.putVt v x).mem = s.mem := rfl
@[simp] theorem State.putVt_pois (s : State) (v : VtId) (x : VTile) : (s.putVt v x).pois = s.pois := rfl
@[simp] theorem State.putVt_poisLine (s : State) (v : VtId) (x : VTile) : (s.putVt v x).poisLine = s.poisLine := rfl
@[simp] theorem State.putVt_badLine (s : State) (v : VtId) (x : VTile) : (s.putVt v x).badLine = s.badLine := rfl
@[simp] theorem State.putVt_side (s : State) (v : VtId) (x : VTile) : (s.putVt v x).side = s.side := rfl
@[simp] theorem State.putVt_written (s : State) (v : VtId) (x : VTile) : (s.putVt v x).written = s.written := rfl
@[simp] theorem State.putVt_granules (s : State) (v : VtId) (x : VTile) : (s.putVt v x).granules = s.granules := rfl
@[simp] theorem State.putVt_zeroing (s : State) (v : VtId) (x : VTile) : (s.putVt v x).zeroing = s.zeroing := rfl
@[simp] theorem State.putVt_homeQ (s : State) (v : VtId) (x : VTile) : (s.putVt v x).homeQ = s.homeQ := rfl
@[simp] theorem State.putVt_ctxs (s : State) (v : VtId) (x : VTile) : (s.putVt v x).ctxs = s.ctxs := rfl
@[simp] theorem State.putVt_cores (s : State) (v : VtId) (x : VTile) : (s.putVt v x).cores = s.cores := rfl
@[simp] theorem State.putVt_tiles (s : State) (v : VtId) (x : VTile) : (s.putVt v x).tiles = s.tiles := rfl
@[simp] theorem State.putVt_colonies (s : State) (v : VtId) (x : VTile) : (s.putVt v x).colonies = s.colonies := rfl
@[simp] theorem State.putVt_parts (s : State) (v : VtId) (x : VTile) : (s.putVt v x).parts = s.parts := rfl
@[simp] theorem State.putVt_gangs (s : State) (v : VtId) (x : VTile) : (s.putVt v x).gangs = s.gangs := rfl
@[simp] theorem State.putVt_dies (s : State) (v : VtId) (x : VTile) : (s.putVt v x).dies = s.dies := rfl
@[simp] theorem State.putVt_dieQ (s : State) (v : VtId) (x : VTile) : (s.putVt v x).dieQ = s.dieQ := rfl
@[simp] theorem State.putVt_stops (s : State) (v : VtId) (x : VTile) : (s.putVt v x).stops = s.stops := rfl
@[simp] theorem State.putVt_treeWait (s : State) (v : VtId) (x : VTile) : (s.putVt v x).treeWait = s.treeWait := rfl
@[simp] theorem State.putVt_thermals (s : State) (v : VtId) (x : VTile) : (s.putVt v x).thermals = s.thermals := rfl
@[simp] theorem State.putVt_tests (s : State) (v : VtId) (x : VTile) : (s.putVt v x).tests = s.tests := rfl
@[simp] theorem State.putVt_transfers (s : State) (v : VtId) (x : VTile) : (s.putVt v x).transfers = s.transfers := rfl
@[simp] theorem State.putVt_hqs (s : State) (v : VtId) (x : VTile) : (s.putVt v x).hqs = s.hqs := rfl
@[simp] theorem State.putVt_funcs (s : State) (v : VtId) (x : VTile) : (s.putVt v x).funcs = s.funcs := rfl
@[simp] theorem State.putVt_grants (s : State) (v : VtId) (x : VTile) : (s.putVt v x).grants = s.grants := rfl
@[simp] theorem State.putVt_fw (s : State) (v : VtId) (x : VTile) : (s.putVt v x).fw = s.fw := rfl
@[simp] theorem State.putVt_staged (s : State) (v : VtId) (x : VTile) : (s.putVt v x).staged = s.staged := rfl
@[simp] theorem State.putVt_rollback (s : State) (v : VtId) (x : VTile) : (s.putVt v x).rollback = s.rollback := rfl
@[simp] theorem State.putVt_upkeep (s : State) (v : VtId) (x : VTile) : (s.putVt v x).upkeep = s.upkeep := rfl
@[simp] theorem State.putVt_rims (s : State) (v : VtId) (x : VTile) : (s.putVt v x).rims = s.rims := rfl
@[simp] theorem State.putVt_regrades (s : State) (v : VtId) (x : VTile) : (s.putVt v x).regrades = s.regrades := rfl
@[simp] theorem State.putVt_remaps (s : State) (v : VtId) (x : VTile) : (s.putVt v x).remaps = s.remaps := rfl
@[simp] theorem State.putVt_spare (s : State) (v : VtId) (x : VTile) : (s.putVt v x).spare = s.spare := rfl
@[simp] theorem State.putVt_banks (s : State) (v : VtId) (x : VTile) : (s.putVt v x).banks = s.banks := rfl
@[simp] theorem State.putVt_dieUnmasked (s : State) (v : VtId) (x : VTile) : (s.putVt v x).dieUnmasked = s.dieUnmasked := rfl
@[simp] theorem State.putVt_ports24 (s : State) (v : VtId) (x : VTile) : (s.putVt v x).ports24 = s.ports24 := rfl
@[simp] theorem State.putVt_sent (s : State) (v : VtId) (x : VTile) : (s.putVt v x).sent = s.sent := rfl
@[simp] theorem State.putVt_links (s : State) (v : VtId) (x : VTile) : (s.putVt v x).links = s.links := rfl
@[simp] theorem State.putVt_modno (s : State) (v : VtId) (x : VTile) : (s.putVt v x).modno = s.modno := rfl

@[simp] theorem State.modTile_agenda (s : State) (t : Nat) (f : Tile → Tile) : (s.modTile t f).agenda = s.agenda := rfl
@[simp] theorem State.modTile_cur (s : State) (t : Nat) (f : Tile → Tile) : (s.modTile t f).cur = s.cur := rfl
@[simp] theorem State.modTile_time (s : State) (t : Nat) (f : Tile → Tile) : (s.modTile t f).time = s.time := rfl
@[simp] theorem State.modTile_refills (s : State) (t : Nat) (f : Tile → Tile) : (s.modTile t f).refills = s.refills := rfl
@[simp] theorem State.modTile_net (s : State) (t : Nat) (f : Tile → Tile) : (s.modTile t f).net = s.net := rfl
@[simp] theorem State.modTile_probes (s : State) (t : Nat) (f : Tile → Tile) : (s.modTile t f).probes = s.probes := rfl
@[simp] theorem State.modTile_ends (s : State) (t : Nat) (f : Tile → Tile) : (s.modTile t f).ends = s.ends := rfl
@[simp] theorem State.modTile_form (s : State) (t : Nat) (f : Tile → Tile) : (s.modTile t f).form = s.form := rfl
@[simp] theorem State.modTile_bin (s : State) (t : Nat) (f : Tile → Tile) : (s.modTile t f).bin = s.bin := rfl
@[simp] theorem State.modTile_mem (s : State) (t : Nat) (f : Tile → Tile) : (s.modTile t f).mem = s.mem := rfl
@[simp] theorem State.modTile_pois (s : State) (t : Nat) (f : Tile → Tile) : (s.modTile t f).pois = s.pois := rfl
@[simp] theorem State.modTile_poisLine (s : State) (t : Nat) (f : Tile → Tile) : (s.modTile t f).poisLine = s.poisLine := rfl
@[simp] theorem State.modTile_badLine (s : State) (t : Nat) (f : Tile → Tile) : (s.modTile t f).badLine = s.badLine := rfl
@[simp] theorem State.modTile_side (s : State) (t : Nat) (f : Tile → Tile) : (s.modTile t f).side = s.side := rfl
@[simp] theorem State.modTile_written (s : State) (t : Nat) (f : Tile → Tile) : (s.modTile t f).written = s.written := rfl
@[simp] theorem State.modTile_granules (s : State) (t : Nat) (f : Tile → Tile) : (s.modTile t f).granules = s.granules := rfl
@[simp] theorem State.modTile_zeroing (s : State) (t : Nat) (f : Tile → Tile) : (s.modTile t f).zeroing = s.zeroing := rfl
@[simp] theorem State.modTile_homeQ (s : State) (t : Nat) (f : Tile → Tile) : (s.modTile t f).homeQ = s.homeQ := rfl
@[simp] theorem State.modTile_ctxs (s : State) (t : Nat) (f : Tile → Tile) : (s.modTile t f).ctxs = s.ctxs := rfl
@[simp] theorem State.modTile_cores (s : State) (t : Nat) (f : Tile → Tile) : (s.modTile t f).cores = s.cores := rfl
@[simp] theorem State.modTile_vtiles (s : State) (t : Nat) (f : Tile → Tile) : (s.modTile t f).vtiles = s.vtiles := rfl
@[simp] theorem State.modTile_colonies (s : State) (t : Nat) (f : Tile → Tile) : (s.modTile t f).colonies = s.colonies := rfl
@[simp] theorem State.modTile_parts (s : State) (t : Nat) (f : Tile → Tile) : (s.modTile t f).parts = s.parts := rfl
@[simp] theorem State.modTile_gangs (s : State) (t : Nat) (f : Tile → Tile) : (s.modTile t f).gangs = s.gangs := rfl
@[simp] theorem State.modTile_dies (s : State) (t : Nat) (f : Tile → Tile) : (s.modTile t f).dies = s.dies := rfl
@[simp] theorem State.modTile_dieQ (s : State) (t : Nat) (f : Tile → Tile) : (s.modTile t f).dieQ = s.dieQ := rfl
@[simp] theorem State.modTile_stops (s : State) (t : Nat) (f : Tile → Tile) : (s.modTile t f).stops = s.stops := rfl
@[simp] theorem State.modTile_treeWait (s : State) (t : Nat) (f : Tile → Tile) : (s.modTile t f).treeWait = s.treeWait := rfl
@[simp] theorem State.modTile_thermals (s : State) (t : Nat) (f : Tile → Tile) : (s.modTile t f).thermals = s.thermals := rfl
@[simp] theorem State.modTile_tests (s : State) (t : Nat) (f : Tile → Tile) : (s.modTile t f).tests = s.tests := rfl
@[simp] theorem State.modTile_transfers (s : State) (t : Nat) (f : Tile → Tile) : (s.modTile t f).transfers = s.transfers := rfl
@[simp] theorem State.modTile_hqs (s : State) (t : Nat) (f : Tile → Tile) : (s.modTile t f).hqs = s.hqs := rfl
@[simp] theorem State.modTile_funcs (s : State) (t : Nat) (f : Tile → Tile) : (s.modTile t f).funcs = s.funcs := rfl
@[simp] theorem State.modTile_grants (s : State) (t : Nat) (f : Tile → Tile) : (s.modTile t f).grants = s.grants := rfl
@[simp] theorem State.modTile_fw (s : State) (t : Nat) (f : Tile → Tile) : (s.modTile t f).fw = s.fw := rfl
@[simp] theorem State.modTile_staged (s : State) (t : Nat) (f : Tile → Tile) : (s.modTile t f).staged = s.staged := rfl
@[simp] theorem State.modTile_rollback (s : State) (t : Nat) (f : Tile → Tile) : (s.modTile t f).rollback = s.rollback := rfl
@[simp] theorem State.modTile_upkeep (s : State) (t : Nat) (f : Tile → Tile) : (s.modTile t f).upkeep = s.upkeep := rfl
@[simp] theorem State.modTile_rims (s : State) (t : Nat) (f : Tile → Tile) : (s.modTile t f).rims = s.rims := rfl
@[simp] theorem State.modTile_regrades (s : State) (t : Nat) (f : Tile → Tile) : (s.modTile t f).regrades = s.regrades := rfl
@[simp] theorem State.modTile_remaps (s : State) (t : Nat) (f : Tile → Tile) : (s.modTile t f).remaps = s.remaps := rfl
@[simp] theorem State.modTile_spare (s : State) (t : Nat) (f : Tile → Tile) : (s.modTile t f).spare = s.spare := rfl
@[simp] theorem State.modTile_banks (s : State) (t : Nat) (f : Tile → Tile) : (s.modTile t f).banks = s.banks := rfl
@[simp] theorem State.modTile_dieUnmasked (s : State) (t : Nat) (f : Tile → Tile) : (s.modTile t f).dieUnmasked = s.dieUnmasked := rfl
@[simp] theorem State.modTile_ports24 (s : State) (t : Nat) (f : Tile → Tile) : (s.modTile t f).ports24 = s.ports24 := rfl
@[simp] theorem State.modTile_sent (s : State) (t : Nat) (f : Tile → Tile) : (s.modTile t f).sent = s.sent := rfl
@[simp] theorem State.modTile_links (s : State) (t : Nat) (f : Tile → Tile) : (s.modTile t f).links = s.links := rfl
@[simp] theorem State.modTile_modno (s : State) (t : Nat) (f : Tile → Tile) : (s.modTile t f).modno = s.modno := rfl

@[simp] theorem State.modPart_agenda (s : State) (p : Nat) (f : Part → Part) : (s.modPart p f).agenda = s.agenda := rfl
@[simp] theorem State.modPart_cur (s : State) (p : Nat) (f : Part → Part) : (s.modPart p f).cur = s.cur := rfl
@[simp] theorem State.modPart_time (s : State) (p : Nat) (f : Part → Part) : (s.modPart p f).time = s.time := rfl
@[simp] theorem State.modPart_refills (s : State) (p : Nat) (f : Part → Part) : (s.modPart p f).refills = s.refills := rfl
@[simp] theorem State.modPart_net (s : State) (p : Nat) (f : Part → Part) : (s.modPart p f).net = s.net := rfl
@[simp] theorem State.modPart_probes (s : State) (p : Nat) (f : Part → Part) : (s.modPart p f).probes = s.probes := rfl
@[simp] theorem State.modPart_ends (s : State) (p : Nat) (f : Part → Part) : (s.modPart p f).ends = s.ends := rfl
@[simp] theorem State.modPart_form (s : State) (p : Nat) (f : Part → Part) : (s.modPart p f).form = s.form := rfl
@[simp] theorem State.modPart_bin (s : State) (p : Nat) (f : Part → Part) : (s.modPart p f).bin = s.bin := rfl
@[simp] theorem State.modPart_mem (s : State) (p : Nat) (f : Part → Part) : (s.modPart p f).mem = s.mem := rfl
@[simp] theorem State.modPart_pois (s : State) (p : Nat) (f : Part → Part) : (s.modPart p f).pois = s.pois := rfl
@[simp] theorem State.modPart_poisLine (s : State) (p : Nat) (f : Part → Part) : (s.modPart p f).poisLine = s.poisLine := rfl
@[simp] theorem State.modPart_badLine (s : State) (p : Nat) (f : Part → Part) : (s.modPart p f).badLine = s.badLine := rfl
@[simp] theorem State.modPart_side (s : State) (p : Nat) (f : Part → Part) : (s.modPart p f).side = s.side := rfl
@[simp] theorem State.modPart_written (s : State) (p : Nat) (f : Part → Part) : (s.modPart p f).written = s.written := rfl
@[simp] theorem State.modPart_granules (s : State) (p : Nat) (f : Part → Part) : (s.modPart p f).granules = s.granules := rfl
@[simp] theorem State.modPart_zeroing (s : State) (p : Nat) (f : Part → Part) : (s.modPart p f).zeroing = s.zeroing := rfl
@[simp] theorem State.modPart_homeQ (s : State) (p : Nat) (f : Part → Part) : (s.modPart p f).homeQ = s.homeQ := rfl
@[simp] theorem State.modPart_ctxs (s : State) (p : Nat) (f : Part → Part) : (s.modPart p f).ctxs = s.ctxs := rfl
@[simp] theorem State.modPart_cores (s : State) (p : Nat) (f : Part → Part) : (s.modPart p f).cores = s.cores := rfl
@[simp] theorem State.modPart_vtiles (s : State) (p : Nat) (f : Part → Part) : (s.modPart p f).vtiles = s.vtiles := rfl
@[simp] theorem State.modPart_tiles (s : State) (p : Nat) (f : Part → Part) : (s.modPart p f).tiles = s.tiles := rfl
@[simp] theorem State.modPart_colonies (s : State) (p : Nat) (f : Part → Part) : (s.modPart p f).colonies = s.colonies := rfl
@[simp] theorem State.modPart_gangs (s : State) (p : Nat) (f : Part → Part) : (s.modPart p f).gangs = s.gangs := rfl
@[simp] theorem State.modPart_dies (s : State) (p : Nat) (f : Part → Part) : (s.modPart p f).dies = s.dies := rfl
@[simp] theorem State.modPart_dieQ (s : State) (p : Nat) (f : Part → Part) : (s.modPart p f).dieQ = s.dieQ := rfl
@[simp] theorem State.modPart_stops (s : State) (p : Nat) (f : Part → Part) : (s.modPart p f).stops = s.stops := rfl
@[simp] theorem State.modPart_treeWait (s : State) (p : Nat) (f : Part → Part) : (s.modPart p f).treeWait = s.treeWait := rfl
@[simp] theorem State.modPart_thermals (s : State) (p : Nat) (f : Part → Part) : (s.modPart p f).thermals = s.thermals := rfl
@[simp] theorem State.modPart_tests (s : State) (p : Nat) (f : Part → Part) : (s.modPart p f).tests = s.tests := rfl
@[simp] theorem State.modPart_transfers (s : State) (p : Nat) (f : Part → Part) : (s.modPart p f).transfers = s.transfers := rfl
@[simp] theorem State.modPart_hqs (s : State) (p : Nat) (f : Part → Part) : (s.modPart p f).hqs = s.hqs := rfl
@[simp] theorem State.modPart_funcs (s : State) (p : Nat) (f : Part → Part) : (s.modPart p f).funcs = s.funcs := rfl
@[simp] theorem State.modPart_grants (s : State) (p : Nat) (f : Part → Part) : (s.modPart p f).grants = s.grants := rfl
@[simp] theorem State.modPart_fw (s : State) (p : Nat) (f : Part → Part) : (s.modPart p f).fw = s.fw := rfl
@[simp] theorem State.modPart_staged (s : State) (p : Nat) (f : Part → Part) : (s.modPart p f).staged = s.staged := rfl
@[simp] theorem State.modPart_rollback (s : State) (p : Nat) (f : Part → Part) : (s.modPart p f).rollback = s.rollback := rfl
@[simp] theorem State.modPart_upkeep (s : State) (p : Nat) (f : Part → Part) : (s.modPart p f).upkeep = s.upkeep := rfl
@[simp] theorem State.modPart_rims (s : State) (p : Nat) (f : Part → Part) : (s.modPart p f).rims = s.rims := rfl
@[simp] theorem State.modPart_regrades (s : State) (p : Nat) (f : Part → Part) : (s.modPart p f).regrades = s.regrades := rfl
@[simp] theorem State.modPart_remaps (s : State) (p : Nat) (f : Part → Part) : (s.modPart p f).remaps = s.remaps := rfl
@[simp] theorem State.modPart_spare (s : State) (p : Nat) (f : Part → Part) : (s.modPart p f).spare = s.spare := rfl
@[simp] theorem State.modPart_banks (s : State) (p : Nat) (f : Part → Part) : (s.modPart p f).banks = s.banks := rfl
@[simp] theorem State.modPart_dieUnmasked (s : State) (p : Nat) (f : Part → Part) : (s.modPart p f).dieUnmasked = s.dieUnmasked := rfl
@[simp] theorem State.modPart_ports24 (s : State) (p : Nat) (f : Part → Part) : (s.modPart p f).ports24 = s.ports24 := rfl
@[simp] theorem State.modPart_sent (s : State) (p : Nat) (f : Part → Part) : (s.modPart p f).sent = s.sent := rfl
@[simp] theorem State.modPart_links (s : State) (p : Nat) (f : Part → Part) : (s.modPart p f).links = s.links := rfl
@[simp] theorem State.modPart_modno (s : State) (p : Nat) (f : Part → Part) : (s.modPart p f).modno = s.modno := rfl

@[simp] theorem State.modColony_agenda (s : State) (p k : Nat) (f : Colony → Colony) : (s.modColony p k f).agenda = s.agenda := rfl
@[simp] theorem State.modColony_cur (s : State) (p k : Nat) (f : Colony → Colony) : (s.modColony p k f).cur = s.cur := rfl
@[simp] theorem State.modColony_time (s : State) (p k : Nat) (f : Colony → Colony) : (s.modColony p k f).time = s.time := rfl
@[simp] theorem State.modColony_refills (s : State) (p k : Nat) (f : Colony → Colony) : (s.modColony p k f).refills = s.refills := rfl
@[simp] theorem State.modColony_net (s : State) (p k : Nat) (f : Colony → Colony) : (s.modColony p k f).net = s.net := rfl
@[simp] theorem State.modColony_probes (s : State) (p k : Nat) (f : Colony → Colony) : (s.modColony p k f).probes = s.probes := rfl
@[simp] theorem State.modColony_ends (s : State) (p k : Nat) (f : Colony → Colony) : (s.modColony p k f).ends = s.ends := rfl
@[simp] theorem State.modColony_form (s : State) (p k : Nat) (f : Colony → Colony) : (s.modColony p k f).form = s.form := rfl
@[simp] theorem State.modColony_bin (s : State) (p k : Nat) (f : Colony → Colony) : (s.modColony p k f).bin = s.bin := rfl
@[simp] theorem State.modColony_mem (s : State) (p k : Nat) (f : Colony → Colony) : (s.modColony p k f).mem = s.mem := rfl
@[simp] theorem State.modColony_pois (s : State) (p k : Nat) (f : Colony → Colony) : (s.modColony p k f).pois = s.pois := rfl
@[simp] theorem State.modColony_poisLine (s : State) (p k : Nat) (f : Colony → Colony) : (s.modColony p k f).poisLine = s.poisLine := rfl
@[simp] theorem State.modColony_badLine (s : State) (p k : Nat) (f : Colony → Colony) : (s.modColony p k f).badLine = s.badLine := rfl
@[simp] theorem State.modColony_side (s : State) (p k : Nat) (f : Colony → Colony) : (s.modColony p k f).side = s.side := rfl
@[simp] theorem State.modColony_written (s : State) (p k : Nat) (f : Colony → Colony) : (s.modColony p k f).written = s.written := rfl
@[simp] theorem State.modColony_granules (s : State) (p k : Nat) (f : Colony → Colony) : (s.modColony p k f).granules = s.granules := rfl
@[simp] theorem State.modColony_zeroing (s : State) (p k : Nat) (f : Colony → Colony) : (s.modColony p k f).zeroing = s.zeroing := rfl
@[simp] theorem State.modColony_homeQ (s : State) (p k : Nat) (f : Colony → Colony) : (s.modColony p k f).homeQ = s.homeQ := rfl
@[simp] theorem State.modColony_ctxs (s : State) (p k : Nat) (f : Colony → Colony) : (s.modColony p k f).ctxs = s.ctxs := rfl
@[simp] theorem State.modColony_cores (s : State) (p k : Nat) (f : Colony → Colony) : (s.modColony p k f).cores = s.cores := rfl
@[simp] theorem State.modColony_vtiles (s : State) (p k : Nat) (f : Colony → Colony) : (s.modColony p k f).vtiles = s.vtiles := rfl
@[simp] theorem State.modColony_tiles (s : State) (p k : Nat) (f : Colony → Colony) : (s.modColony p k f).tiles = s.tiles := rfl
@[simp] theorem State.modColony_parts (s : State) (p k : Nat) (f : Colony → Colony) : (s.modColony p k f).parts = s.parts := rfl
@[simp] theorem State.modColony_gangs (s : State) (p k : Nat) (f : Colony → Colony) : (s.modColony p k f).gangs = s.gangs := rfl
@[simp] theorem State.modColony_dies (s : State) (p k : Nat) (f : Colony → Colony) : (s.modColony p k f).dies = s.dies := rfl
@[simp] theorem State.modColony_dieQ (s : State) (p k : Nat) (f : Colony → Colony) : (s.modColony p k f).dieQ = s.dieQ := rfl
@[simp] theorem State.modColony_stops (s : State) (p k : Nat) (f : Colony → Colony) : (s.modColony p k f).stops = s.stops := rfl
@[simp] theorem State.modColony_treeWait (s : State) (p k : Nat) (f : Colony → Colony) : (s.modColony p k f).treeWait = s.treeWait := rfl
@[simp] theorem State.modColony_thermals (s : State) (p k : Nat) (f : Colony → Colony) : (s.modColony p k f).thermals = s.thermals := rfl
@[simp] theorem State.modColony_tests (s : State) (p k : Nat) (f : Colony → Colony) : (s.modColony p k f).tests = s.tests := rfl
@[simp] theorem State.modColony_transfers (s : State) (p k : Nat) (f : Colony → Colony) : (s.modColony p k f).transfers = s.transfers := rfl
@[simp] theorem State.modColony_hqs (s : State) (p k : Nat) (f : Colony → Colony) : (s.modColony p k f).hqs = s.hqs := rfl
@[simp] theorem State.modColony_funcs (s : State) (p k : Nat) (f : Colony → Colony) : (s.modColony p k f).funcs = s.funcs := rfl
@[simp] theorem State.modColony_grants (s : State) (p k : Nat) (f : Colony → Colony) : (s.modColony p k f).grants = s.grants := rfl
@[simp] theorem State.modColony_fw (s : State) (p k : Nat) (f : Colony → Colony) : (s.modColony p k f).fw = s.fw := rfl
@[simp] theorem State.modColony_staged (s : State) (p k : Nat) (f : Colony → Colony) : (s.modColony p k f).staged = s.staged := rfl
@[simp] theorem State.modColony_rollback (s : State) (p k : Nat) (f : Colony → Colony) : (s.modColony p k f).rollback = s.rollback := rfl
@[simp] theorem State.modColony_upkeep (s : State) (p k : Nat) (f : Colony → Colony) : (s.modColony p k f).upkeep = s.upkeep := rfl
@[simp] theorem State.modColony_rims (s : State) (p k : Nat) (f : Colony → Colony) : (s.modColony p k f).rims = s.rims := rfl
@[simp] theorem State.modColony_regrades (s : State) (p k : Nat) (f : Colony → Colony) : (s.modColony p k f).regrades = s.regrades := rfl
@[simp] theorem State.modColony_remaps (s : State) (p k : Nat) (f : Colony → Colony) : (s.modColony p k f).remaps = s.remaps := rfl
@[simp] theorem State.modColony_spare (s : State) (p k : Nat) (f : Colony → Colony) : (s.modColony p k f).spare = s.spare := rfl
@[simp] theorem State.modColony_banks (s : State) (p k : Nat) (f : Colony → Colony) : (s.modColony p k f).banks = s.banks := rfl
@[simp] theorem State.modColony_dieUnmasked (s : State) (p k : Nat) (f : Colony → Colony) : (s.modColony p k f).dieUnmasked = s.dieUnmasked := rfl
@[simp] theorem State.modColony_ports24 (s : State) (p k : Nat) (f : Colony → Colony) : (s.modColony p k f).ports24 = s.ports24 := rfl
@[simp] theorem State.modColony_sent (s : State) (p k : Nat) (f : Colony → Colony) : (s.modColony p k f).sent = s.sent := rfl
@[simp] theorem State.modColony_links (s : State) (p k : Nat) (f : Colony → Colony) : (s.modColony p k f).links = s.links := rfl
@[simp] theorem State.modColony_modno (s : State) (p k : Nat) (f : Colony → Colony) : (s.modColony p k f).modno = s.modno := rfl

@[simp] theorem State.modGang_agenda (s : State) (g : GangId) (f : Gang → Gang) : (s.modGang g f).agenda = s.agenda := rfl
@[simp] theorem State.modGang_cur (s : State) (g : GangId) (f : Gang → Gang) : (s.modGang g f).cur = s.cur := rfl
@[simp] theorem State.modGang_time (s : State) (g : GangId) (f : Gang → Gang) : (s.modGang g f).time = s.time := rfl
@[simp] theorem State.modGang_refills (s : State) (g : GangId) (f : Gang → Gang) : (s.modGang g f).refills = s.refills := rfl
@[simp] theorem State.modGang_net (s : State) (g : GangId) (f : Gang → Gang) : (s.modGang g f).net = s.net := rfl
@[simp] theorem State.modGang_probes (s : State) (g : GangId) (f : Gang → Gang) : (s.modGang g f).probes = s.probes := rfl
@[simp] theorem State.modGang_ends (s : State) (g : GangId) (f : Gang → Gang) : (s.modGang g f).ends = s.ends := rfl
@[simp] theorem State.modGang_form (s : State) (g : GangId) (f : Gang → Gang) : (s.modGang g f).form = s.form := rfl
@[simp] theorem State.modGang_bin (s : State) (g : GangId) (f : Gang → Gang) : (s.modGang g f).bin = s.bin := rfl
@[simp] theorem State.modGang_mem (s : State) (g : GangId) (f : Gang → Gang) : (s.modGang g f).mem = s.mem := rfl
@[simp] theorem State.modGang_pois (s : State) (g : GangId) (f : Gang → Gang) : (s.modGang g f).pois = s.pois := rfl
@[simp] theorem State.modGang_poisLine (s : State) (g : GangId) (f : Gang → Gang) : (s.modGang g f).poisLine = s.poisLine := rfl
@[simp] theorem State.modGang_badLine (s : State) (g : GangId) (f : Gang → Gang) : (s.modGang g f).badLine = s.badLine := rfl
@[simp] theorem State.modGang_side (s : State) (g : GangId) (f : Gang → Gang) : (s.modGang g f).side = s.side := rfl
@[simp] theorem State.modGang_written (s : State) (g : GangId) (f : Gang → Gang) : (s.modGang g f).written = s.written := rfl
@[simp] theorem State.modGang_granules (s : State) (g : GangId) (f : Gang → Gang) : (s.modGang g f).granules = s.granules := rfl
@[simp] theorem State.modGang_zeroing (s : State) (g : GangId) (f : Gang → Gang) : (s.modGang g f).zeroing = s.zeroing := rfl
@[simp] theorem State.modGang_homeQ (s : State) (g : GangId) (f : Gang → Gang) : (s.modGang g f).homeQ = s.homeQ := rfl
@[simp] theorem State.modGang_ctxs (s : State) (g : GangId) (f : Gang → Gang) : (s.modGang g f).ctxs = s.ctxs := rfl
@[simp] theorem State.modGang_cores (s : State) (g : GangId) (f : Gang → Gang) : (s.modGang g f).cores = s.cores := rfl
@[simp] theorem State.modGang_vtiles (s : State) (g : GangId) (f : Gang → Gang) : (s.modGang g f).vtiles = s.vtiles := rfl
@[simp] theorem State.modGang_tiles (s : State) (g : GangId) (f : Gang → Gang) : (s.modGang g f).tiles = s.tiles := rfl
@[simp] theorem State.modGang_colonies (s : State) (g : GangId) (f : Gang → Gang) : (s.modGang g f).colonies = s.colonies := rfl
@[simp] theorem State.modGang_parts (s : State) (g : GangId) (f : Gang → Gang) : (s.modGang g f).parts = s.parts := rfl
@[simp] theorem State.modGang_dies (s : State) (g : GangId) (f : Gang → Gang) : (s.modGang g f).dies = s.dies := rfl
@[simp] theorem State.modGang_dieQ (s : State) (g : GangId) (f : Gang → Gang) : (s.modGang g f).dieQ = s.dieQ := rfl
@[simp] theorem State.modGang_stops (s : State) (g : GangId) (f : Gang → Gang) : (s.modGang g f).stops = s.stops := rfl
@[simp] theorem State.modGang_treeWait (s : State) (g : GangId) (f : Gang → Gang) : (s.modGang g f).treeWait = s.treeWait := rfl
@[simp] theorem State.modGang_thermals (s : State) (g : GangId) (f : Gang → Gang) : (s.modGang g f).thermals = s.thermals := rfl
@[simp] theorem State.modGang_tests (s : State) (g : GangId) (f : Gang → Gang) : (s.modGang g f).tests = s.tests := rfl
@[simp] theorem State.modGang_transfers (s : State) (g : GangId) (f : Gang → Gang) : (s.modGang g f).transfers = s.transfers := rfl
@[simp] theorem State.modGang_hqs (s : State) (g : GangId) (f : Gang → Gang) : (s.modGang g f).hqs = s.hqs := rfl
@[simp] theorem State.modGang_funcs (s : State) (g : GangId) (f : Gang → Gang) : (s.modGang g f).funcs = s.funcs := rfl
@[simp] theorem State.modGang_grants (s : State) (g : GangId) (f : Gang → Gang) : (s.modGang g f).grants = s.grants := rfl
@[simp] theorem State.modGang_fw (s : State) (g : GangId) (f : Gang → Gang) : (s.modGang g f).fw = s.fw := rfl
@[simp] theorem State.modGang_staged (s : State) (g : GangId) (f : Gang → Gang) : (s.modGang g f).staged = s.staged := rfl
@[simp] theorem State.modGang_rollback (s : State) (g : GangId) (f : Gang → Gang) : (s.modGang g f).rollback = s.rollback := rfl
@[simp] theorem State.modGang_upkeep (s : State) (g : GangId) (f : Gang → Gang) : (s.modGang g f).upkeep = s.upkeep := rfl
@[simp] theorem State.modGang_rims (s : State) (g : GangId) (f : Gang → Gang) : (s.modGang g f).rims = s.rims := rfl
@[simp] theorem State.modGang_regrades (s : State) (g : GangId) (f : Gang → Gang) : (s.modGang g f).regrades = s.regrades := rfl
@[simp] theorem State.modGang_remaps (s : State) (g : GangId) (f : Gang → Gang) : (s.modGang g f).remaps = s.remaps := rfl
@[simp] theorem State.modGang_spare (s : State) (g : GangId) (f : Gang → Gang) : (s.modGang g f).spare = s.spare := rfl
@[simp] theorem State.modGang_banks (s : State) (g : GangId) (f : Gang → Gang) : (s.modGang g f).banks = s.banks := rfl
@[simp] theorem State.modGang_dieUnmasked (s : State) (g : GangId) (f : Gang → Gang) : (s.modGang g f).dieUnmasked = s.dieUnmasked := rfl
@[simp] theorem State.modGang_ports24 (s : State) (g : GangId) (f : Gang → Gang) : (s.modGang g f).ports24 = s.ports24 := rfl
@[simp] theorem State.modGang_sent (s : State) (g : GangId) (f : Gang → Gang) : (s.modGang g f).sent = s.sent := rfl
@[simp] theorem State.modGang_links (s : State) (g : GangId) (f : Gang → Gang) : (s.modGang g f).links = s.links := rfl
@[simp] theorem State.modGang_modno (s : State) (g : GangId) (f : Gang → Gang) : (s.modGang g f).modno = s.modno := rfl

/-! ### Changing is putting the changed record -/

@[simp] theorem State.modCtx_eq (s : State) (c : CtxId) (f : Ctx → Ctx) : s.modCtx c f = s.putCtx c (f (s.ctx c)) := rfl
@[simp] theorem State.modCore_eq (s : State) (k : CoreId) (f : Core → Core) : s.modCore k f = s.putCore k (f (s.core k)) := rfl
@[simp] theorem State.modVt_eq (s : State) (v : VtId) (f : VTile → VTile) : s.modVt v f = s.putVt v (f (s.vtile v)) := rfl

/-! ### Records after an update -/

theorem State.ctx_putCtx (s : State) (c e : CtxId) (x : Ctx) : (s.putCtx c x).ctx e = if e = c then x else s.ctx e :=
  AMap.get_put _ _ _ _ _
@[simp] theorem State.ctx_putCtx_same (s : State) (c : CtxId) (x : Ctx) : (s.putCtx c x).ctx c = x := by
  simp [State.ctx_putCtx]
theorem State.ctx_putCtx_other (s : State) (c e : CtxId) (x : Ctx) (h : e ≠ c) : (s.putCtx c x).ctx e = s.ctx e := by
  simp [State.ctx_putCtx, h]
@[simp] theorem State.putCtx_putCtx (s : State) (c : CtxId) (x y : Ctx) : (s.putCtx c x).putCtx c y = s.putCtx c y := by
  have h : ∀ m : AMap CtxId Ctx, AMap.put (AMap.put m c x) c y = AMap.put m c y := by
    intro m
    induction m with
    | nil => simp [AMap.put]
    | cons e r ih =>
      obtain ⟨a, b⟩ := e
      by_cases ha : a = c <;> simp [AMap.put, ha, ih]
  simp [State.putCtx, h]

theorem State.core_putCore (s : State) (k e : CoreId) (x : Core) : (s.putCore k x).core e = if e = k then x else s.core e :=
  AMap.get_put _ _ _ _ _
@[simp] theorem State.core_putCore_same (s : State) (k : CoreId) (x : Core) : (s.putCore k x).core k = x := by
  simp [State.core_putCore]
theorem State.vtile_putVt (s : State) (v e : VtId) (x : VTile) : (s.putVt v x).vtile e = if e = v then x else s.vtile e :=
  AMap.get_put _ _ _ _ _
@[simp] theorem State.vtile_putVt_same (s : State) (v : VtId) (x : VTile) : (s.putVt v x).vtile v = x := by
  simp [State.vtile_putVt]
theorem State.tile_modTile (s : State) (t e : Nat) (f : Tile → Tile) :
    (s.modTile t f).tile e = if e = t then f (s.tile t) else s.tile e := NMap.get_set _ _ _ _ _
@[simp] theorem State.tile_modTile_same (s : State) (t : Nat) (f : Tile → Tile) : (s.modTile t f).tile t = f (s.tile t) := by
  simp [State.tile_modTile]
theorem State.part_modPart (s : State) (p e : Nat) (f : Part → Part) :
    (s.modPart p f).part e = if e = p then f (s.part p) else s.part e := NMap.get_set _ _ _ _ _
@[simp] theorem State.part_modPart_same (s : State) (p : Nat) (f : Part → Part) : (s.modPart p f).part p = f (s.part p) := by
  simp [State.part_modPart]
theorem State.colony_modColony (s : State) (p k q j : Nat) (f : Colony → Colony) :
    (s.modColony p k f).colony q j = if (q, j) = (p, k) then f (s.colony p k) else s.colony q j := AMap.get_put _ _ _ _ _
@[simp] theorem State.colony_modColony_same (s : State) (p k : Nat) (f : Colony → Colony) :
    (s.modColony p k f).colony p k = f (s.colony p k) := by
  simp [State.colony_modColony]
theorem State.gang_modGang (s : State) (g e : GangId) (f : Gang → Gang) :
    (s.modGang g f).gang e = if e = g then f (s.gang g) else s.gang e := AMap.get_put _ _ _ _ _
@[simp] theorem State.gang_modGang_same (s : State) (g : GangId) (f : Gang → Gang) : (s.modGang g f).gang g = f (s.gang g) := by
  simp [State.gang_modGang]

/-! Records of one kind after an update of another -/

@[simp] theorem State.core_putCtx (s : State) (c : CtxId) (x : Ctx) (e : CoreId) : (s.putCtx c x).core e = s.core e := rfl
@[simp] theorem State.vtile_putCtx (s : State) (c : CtxId) (x : Ctx) (e : VtId) : (s.putCtx c x).vtile e = s.vtile e := rfl
@[simp] theorem State.tile_putCtx (s : State) (c : CtxId) (x : Ctx) (e : Nat) : (s.putCtx c x).tile e = s.tile e := rfl
@[simp] theorem State.part_putCtx (s : State) (c : CtxId) (x : Ctx) (e : Nat) : (s.putCtx c x).part e = s.part e := rfl
@[simp] theorem State.colony_putCtx (s : State) (c : CtxId) (x : Ctx) (q j : Nat) : (s.putCtx c x).colony q j = s.colony q j := rfl
@[simp] theorem State.gang_putCtx (s : State) (c : CtxId) (x : Ctx) (e : GangId) : (s.putCtx c x).gang e = s.gang e := rfl
@[simp] theorem State.ctx_putCore (s : State) (k : CoreId) (x : Core) (e : CtxId) : (s.putCore k x).ctx e = s.ctx e := rfl
@[simp] theorem State.vtile_putCore (s : State) (k : CoreId) (x : Core) (e : VtId) : (s.putCore k x).vtile e = s.vtile e := rfl
@[simp] theorem State.tile_putCore (s : State) (k : CoreId) (x : Core) (e : Nat) : (s.putCore k x).tile e = s.tile e := rfl
@[simp] theorem State.part_putCore (s : State) (k : CoreId) (x : Core) (e : Nat) : (s.putCore k x).part e = s.part e := rfl
@[simp] theorem State.colony_putCore (s : State) (k : CoreId) (x : Core) (q j : Nat) : (s.putCore k x).colony q j = s.colony q j := rfl
@[simp] theorem State.gang_putCore (s : State) (k : CoreId) (x : Core) (e : GangId) : (s.putCore k x).gang e = s.gang e := rfl
@[simp] theorem State.ctx_putVt (s : State) (v : VtId) (x : VTile) (e : CtxId) : (s.putVt v x).ctx e = s.ctx e := rfl
@[simp] theorem State.core_putVt (s : State) (v : VtId) (x : VTile) (e : CoreId) : (s.putVt v x).core e = s.core e := rfl
@[simp] theorem State.tile_putVt (s : State) (v : VtId) (x : VTile) (e : Nat) : (s.putVt v x).tile e = s.tile e := rfl
@[simp] theorem State.part_putVt (s : State) (v : VtId) (x : VTile) (e : Nat) : (s.putVt v x).part e = s.part e := rfl
@[simp] theorem State.colony_putVt (s : State) (v : VtId) (x : VTile) (q j : Nat) : (s.putVt v x).colony q j = s.colony q j := rfl
@[simp] theorem State.gang_putVt (s : State) (v : VtId) (x : VTile) (e : GangId) : (s.putVt v x).gang e = s.gang e := rfl
@[simp] theorem State.ctx_modTile (s : State) (t : Nat) (f : Tile → Tile) (e : CtxId) : (s.modTile t f).ctx e = s.ctx e := rfl
@[simp] theorem State.core_modTile (s : State) (t : Nat) (f : Tile → Tile) (e : CoreId) : (s.modTile t f).core e = s.core e := rfl
@[simp] theorem State.vtile_modTile (s : State) (t : Nat) (f : Tile → Tile) (e : VtId) : (s.modTile t f).vtile e = s.vtile e := rfl
@[simp] theorem State.part_modTile (s : State) (t : Nat) (f : Tile → Tile) (e : Nat) : (s.modTile t f).part e = s.part e := rfl
@[simp] theorem State.colony_modTile (s : State) (t : Nat) (f : Tile → Tile) (q j : Nat) : (s.modTile t f).colony q j = s.colony q j := rfl
@[simp] theorem State.gang_modTile (s : State) (t : Nat) (f : Tile → Tile) (e : GangId) : (s.modTile t f).gang e = s.gang e := rfl
@[simp] theorem State.ctx_modPart (s : State) (p : Nat) (f : Part → Part) (e : CtxId) : (s.modPart p f).ctx e = s.ctx e := rfl
@[simp] theorem State.core_modPart (s : State) (p : Nat) (f : Part → Part) (e : CoreId) : (s.modPart p f).core e = s.core e := rfl
@[simp] theorem State.vtile_modPart (s : State) (p : Nat) (f : Part → Part) (e : VtId) : (s.modPart p f).vtile e = s.vtile e := rfl
@[simp] theorem State.tile_modPart (s : State) (p : Nat) (f : Part → Part) (e : Nat) : (s.modPart p f).tile e = s.tile e := rfl
@[simp] theorem State.colony_modPart (s : State) (p : Nat) (f : Part → Part) (q j : Nat) : (s.modPart p f).colony q j = s.colony q j := rfl
@[simp] theorem State.gang_modPart (s : State) (p : Nat) (f : Part → Part) (e : GangId) : (s.modPart p f).gang e = s.gang e := rfl
@[simp] theorem State.ctx_modColony (s : State) (p k : Nat) (f : Colony → Colony) (e : CtxId) : (s.modColony p k f).ctx e = s.ctx e := rfl
@[simp] theorem State.core_modColony (s : State) (p k : Nat) (f : Colony → Colony) (e : CoreId) : (s.modColony p k f).core e = s.core e := rfl
@[simp] theorem State.vtile_modColony (s : State) (p k : Nat) (f : Colony → Colony) (e : VtId) : (s.modColony p k f).vtile e = s.vtile e := rfl
@[simp] theorem State.tile_modColony (s : State) (p k : Nat) (f : Colony → Colony) (e : Nat) : (s.modColony p k f).tile e = s.tile e := rfl
@[simp] theorem State.part_modColony (s : State) (p k : Nat) (f : Colony → Colony) (e : Nat) : (s.modColony p k f).part e = s.part e := rfl
@[simp] theorem State.gang_modColony (s : State) (p k : Nat) (f : Colony → Colony) (e : GangId) : (s.modColony p k f).gang e = s.gang e := rfl
@[simp] theorem State.ctx_modGang (s : State) (g : GangId) (f : Gang → Gang) (e : CtxId) : (s.modGang g f).ctx e = s.ctx e := rfl
@[simp] theorem State.core_modGang (s : State) (g : GangId) (f : Gang → Gang) (e : CoreId) : (s.modGang g f).core e = s.core e := rfl
@[simp] theorem State.vtile_modGang (s : State) (g : GangId) (f : Gang → Gang) (e : VtId) : (s.modGang g f).vtile e = s.vtile e := rfl
@[simp] theorem State.tile_modGang (s : State) (g : GangId) (f : Gang → Gang) (e : Nat) : (s.modGang g f).tile e = s.tile e := rfl
@[simp] theorem State.part_modGang (s : State) (g : GangId) (f : Gang → Gang) (e : Nat) : (s.modGang g f).part e = s.part e := rfl
@[simp] theorem State.colony_modGang (s : State) (g : GangId) (f : Gang → Gang) (q j : Nat) : (s.modGang g f).colony q j = s.colony q j := rfl

/-! ### Registers of a context -/

@[simp] theorem Ctx.rg_zero (x : Ctx) : x.rg 0 = 0 := rfl
@[simp] theorem Ctx.wg_zero (x : Ctx) (w : Word) : x.wg 0 w = x := rfl

/-- Reading a g register after a write: g0 stays zero. -/
theorem Ctx.rg_wg (x : Ctx) (d n : Nat) (w : Word) : (x.wg d w).rg n = if n = d ∧ d ≠ 0 then w else x.rg n := by
  unfold Ctx.wg Ctx.rg
  by_cases hd : d = 0
  · simp [hd]
  · by_cases hn : n = 0
    · have : ¬ n = d := by omega
      simp [hn, hd, show ¬ (0 = d) by omega]
    · simp [hn, hd, NMap.get_set]

@[simp] theorem Ctx.rp_zero (x : Ctx) : x.rp 0 = true := rfl
@[simp] theorem Ctx.wp_zero (x : Ctx) (b : Bool) : x.wp 0 b = x := rfl

/-- Reading a predicate after a write: p0 stays one. -/
theorem Ctx.rp_wp (x : Ctx) (d n : Nat) (b : Bool) (hd : d < 8) (hn : n < 8) :
    (x.wp d b).rp n = if n = d ∧ d ≠ 0 then b else x.rp n := by
  unfold Ctx.wp Ctx.rp
  by_cases h0 : d = 0
  · simp [h0]
  · by_cases hn0 : n = 0
    · simp [hn0, h0, show ¬ (0 = d) by omega]
    · by_cases hnd : n = d
      · subst hnd
        cases b <;> simp [hn0, hn]
      · have : ¬ (n - d = 0 ∧ d ≤ n) := by omega
        cases b
        · simp only [h0, hn0, hnd, if_false, Bool.false_eq_true, false_and, BitVec.getLsbD_and, BitVec.getLsbD_not,
            BitVec.getLsbD_shiftLeft]
          by_cases hlt : n < d
          · simp [hlt, hn]
          · have h1 : n - d ≠ 0 := by omega
            simp [hlt, hn, h1]
        · simp only [h0, hn0, hnd, if_false, if_true, false_and, BitVec.getLsbD_or, BitVec.getLsbD_shiftLeft]
          by_cases hlt : n < d
          · simp [hlt]
          · have h1 : n - d ≠ 0 := by omega
            simp [hlt, h1]

/-- Reading a vector register after a write. -/
theorem Ctx.rv_wv (x : Ctx) (d n : Nat) (w : Vec) : (x.wv d w).rv n = if n = d then w else x.rv n := NMap.get_set _ _ _ _ _

/-- Reading an accumulator element after a write. -/
theorem Ctx.ra_wa (x : Ctx) (a i j b k l : Nat) (w : BitVec 32) (hj : j < 16) (hl : l < 16) (hi : i < 16) (hk : k < 16) :
    (x.wa a i j w).ra b k l = if b = a ∧ k = i ∧ l = j then w else x.ra b k l := by
  unfold Ctx.wa Ctx.ra
  rw [NMap.get_set]
  by_cases h : b * 256 + k * 16 + l = a * 256 + i * 16 + j
  · have : b = a ∧ k = i ∧ l = j := by omega
    simp [this]
  · have : ¬ (b = a ∧ k = i ∧ l = j) := by rintro ⟨rfl, rfl, rfl⟩; exact h rfl
    simp [h, this]

end Sys2Proof.Machine
end

