-- ==== Sys2Proof/Laws/Ops.lean ====
section
/-! SUPPORT. One lemma for each shared operation: everything it can do. -/

namespace Sys2Proof.Machine

/-! ### Going on -/

/-- A context that keeps its PC and its line has the same NextPC. -/
theorem State.nextPc_putCtx (s : State) (c : CtxId) (x : Ctx) (hp : x.pc = (s.ctx c).pc) (hl : x.line = (s.ctx c).line) :
    (s.putCtx c x).nextPc c = s.nextPc c := by
  simp [State.nextPc, State.lineOfPc, hp, hl, State.lineAt, State.sramBytes]

theorem wentOn_goto (x : Ctx) (f : Ctx → Ctx) (hm : (f x).member = x.member) (hp : (f x).pc = x.pc) (np : Word) :
    wentOn x ((f x).goto np) np := by
  unfold wentOn Ctx.goto
  cases h : x.member with
  | none => simp [hm, h]
  | some m => cases hd : m.det <;> simp [hm, h, hd, hp]

theorem Ctx.goto_placedAs (x : Ctx) (np : Word) : x.goto np = x.placedAs (x.goto np) := by
  have h : ∀ m : Option Member, m = x.member → x.goto np = x.placedAs (x.goto np) := by
    rintro (_ | m) hm
    · simp [Ctx.goto, Ctx.placedAs, ← hm]
    · cases hd : m.det <;> simp [Ctx.goto, Ctx.placedAs, ← hm, hd]
  exact h _ rfl

/-- Changing the acting context alone leaves everything else. -/
theorem onlyActing_putCtx (s : State) (x : Ctx) : onlyActing s (s.putCtx s.cur x) :=
  ⟨fun c hc => State.ctx_putCtx_other s _ c x hc, rfl⟩

/-- FINISH: what changes only the context's own record, neither its PC nor its line, completes so. -/
theorem completes_finish (s : State) (f : Ctx → Ctx) (hp : (f (s.ctx s.cur)).pc = (s.ctx s.cur).pc)
    (hl : (f (s.ctx s.cur)).line = (s.ctx s.cur).line) (hm : (f (s.ctx s.cur)).member = (s.ctx s.cur).member) :
    completes s (.next (s.finish f)) f := by
  refine ⟨_, rfl, ?_, ?_, ?_⟩
  · simp only [State.finish, State.complete, State.modCtx_eq, State.ctx_putCtx_same, State.putCtx_putCtx]
    exact onlyActing_putCtx s _
  · simp only [State.finish, State.complete, State.modCtx_eq, State.ctx_putCtx_same]
    rw [State.nextPc_putCtx s s.cur _ hp hl]
    exact wentOn_goto _ f hm hp _
  · simp only [State.finish, State.complete, State.modCtx_eq, State.ctx_putCtx_same]
    exact Ctx.goto_placedAs _ _

@[simp] theorem Ctx.wg_pc (x : Ctx) (d : Nat) (w : Word) : (x.wg d w).pc = x.pc := by unfold Ctx.wg; split <;> rfl
@[simp] theorem Ctx.wg_line (x : Ctx) (d : Nat) (w : Word) : (x.wg d w).line = x.line := by unfold Ctx.wg; split <;> rfl
@[simp] theorem Ctx.wg_member (x : Ctx) (d : Nat) (w : Word) : (x.wg d w).member = x.member := by
  unfold Ctx.wg; split <;> rfl
@[simp] theorem Ctx.wp_pc (x : Ctx) (d : Nat) (b : Bool) : (x.wp d b).pc = x.pc := by unfold Ctx.wp; split <;> rfl
@[simp] theorem Ctx.wp_line (x : Ctx) (d : Nat) (b : Bool) : (x.wp d b).line = x.line := by unfold Ctx.wp; split <;> rfl
@[simp] theorem Ctx.wp_member (x : Ctx) (d : Nat) (b : Bool) : (x.wp d b).member = x.member := by
  unfold Ctx.wp; split <;> rfl

/-- An instruction whose result goes to a g register. -/
theorem completes_wg (s : State) (f : Ctx → Word) (d : Nat) :
    completes s (.next (s.finish (fun x => x.wg d (f x)))) (fun x => x.wg d (f x)) :=
  completes_finish s _ (by simp) (by simp) (by simp)

/-- An instruction whose result goes to a predicate. -/
theorem completes_wp (s : State) (f : Ctx → Bool) (d : Nat) :
    completes s (.next (s.finish (fun x => x.wp d (f x)))) (fun x => x.wp d (f x)) :=
  completes_finish s _ (by simp) (by simp) (by simp)

/-- An instruction whose result goes to a vector register. -/
theorem completes_wv (s : State) (f : Ctx → Vec) (d : Nat) :
    completes s (.next (s.finish (fun x => x.wv d (f x)))) (fun x => x.wv d (f x)) :=
  completes_finish s _ rfl rfl rfl

/-- An instruction whose result goes to a g register with its conditions recorded. -/
theorem completes_putFlags (s : State) (f : Ctx → Word × FFlags) (d : Nat) :
    completes s (.next (s.finish (fun x => x.putFlags d (f x)))) (fun x => x.putFlags d (f x)) :=
  completes_finish s _ (by simp [Ctx.putFlags, Ctx.orFlags]) (by simp [Ctx.putFlags, Ctx.orFlags])
    (by simp [Ctx.putFlags, Ctx.orFlags])

/-- An instruction that completes with nothing else. -/
theorem completes_id (s : State) : completes s (.next (s.complete s.cur)) id := by
  have h := completes_finish s id rfl rfl rfl
  have e : s.finish id = (s.putCtx s.cur (s.ctx s.cur)).complete s.cur := rfl
  have e2 : (s.putCtx s.cur (s.ctx s.cur)).complete s.cur = s.complete s.cur := by
    simp only [State.complete, State.modCtx_eq, State.ctx_putCtx_same, State.putCtx_putCtx]
    rw [State.nextPc_putCtx s s.cur _ rfl rfl]
  rw [e, e2] at h
  exact h

end Sys2Proof.Machine
end

