-- ==== Sys2Proof/Laws/Lanes.lean ====
section
/-! SUPPORT. Fields of numbers, and reading a lane of a register that was put together from lanes. -/

namespace Sys2Proof.Machine

/-- A sum of digits of w bits holds digit j where it was put. -/
theorem digits_get (w : Nat) (f : Nat → Nat) (l : List Nat) (h : l.Pairwise (· < ·)) (j : Nat) :
    (l.foldr (fun i acc => f i % 2 ^ w * 2 ^ (w * i) + acc) 0) / 2 ^ (w * j) % 2 ^ w = if j ∈ l then f j % 2 ^ w else 0 := by
  induction l with
  | nil => simp
  | cons a r ih =>
    obtain ⟨ha, hr⟩ := List.pairwise_cons.mp h
    have ih := ih hr
    simp only [List.foldr_cons]
    have hpos : ∀ n, 0 < 2 ^ n := fun n => Nat.two_pow_pos n
    -- everything after a is a multiple of the weight of the digit above a
    have hdvd : ∀ (r : List Nat), (∀ b ∈ r, a < b) →
        2 ^ (w * (a + 1)) ∣ r.foldr (fun i acc => f i % 2 ^ w * 2 ^ (w * i) + acc) 0 := by
      intro r
      induction r with
      | nil => simp
      | cons b r ih =>
        intro hb
        simp only [List.foldr_cons]
        refine Nat.dvd_add ?_ (ih (fun c hc => hb c (List.mem_cons_of_mem _ hc)))
        refine Dvd.dvd.mul_left (Nat.pow_dvd_pow 2 ?_) _
        exact Nat.mul_le_mul_left w (hb b List.mem_cons_self)
    obtain ⟨k, hk⟩ := hdvd r ha
    rw [hk] at ih ⊢
    have hlt : f a % 2 ^ w < 2 ^ w := Nat.mod_lt _ (hpos w)
    rcases Nat.lt_trichotomy j a with hja | rfl | hja
    · have hnot : j ∉ r := fun hm => by have := ha j hm; omega
      have hnot' : ¬ (j = a ∨ j ∈ r) := by rintro (h | h); omega; exact hnot h
      simp only [List.mem_cons, hnot', if_false]
      have e1 : f a % 2 ^ w * 2 ^ (w * a) + 2 ^ (w * (a + 1)) * k
          = 2 ^ (w * j) * (2 ^ w * (2 ^ (w * (a - j - 1)) * (f a % 2 ^ w + 2 ^ w * k))) := by
        have e2 : w * a = w * j + w + w * (a - j - 1) := by
          obtain ⟨d, rfl⟩ : ∃ d, a = j + 1 + d := ⟨a - j - 1, by omega⟩
          have : j + 1 + d - j - 1 = d := by omega
          rw [this]; ring
        rw [Nat.mul_add, e2]
        ring
      rw [e1, Nat.mul_div_cancel_left _ (hpos _)]
      simp
    · have hnot : j ∉ r := fun hm => lt_irrefl _ (ha j hm)
      simp only [List.mem_cons, true_or, if_true]
      have e1 : f j % 2 ^ w * 2 ^ (w * j) + 2 ^ (w * (j + 1)) * k = 2 ^ (w * j) * (f j % 2 ^ w + 2 ^ w * k) := by ring
      rw [e1, Nat.mul_div_cancel_left _ (hpos _)]
      simp [Nat.add_mul_mod_self_left, Nat.mod_eq_of_lt hlt]
    · have hne : j ≠ a := by omega
      simp only [List.mem_cons, hne, false_or]
      rw [← ih]
      congr 1
      have e2 : w * j = w * (a + 1) + w * (j - a - 1) := by
        obtain ⟨d, rfl⟩ : ∃ d, j = a + 1 + d := ⟨j - a - 1, by omega⟩
        have : a + 1 + d - a - 1 = d := by omega
        rw [this]; ring
      have e3 : w * (a + 1) = w * a + w := by ring
      rw [e2, Nat.pow_add, ← Nat.div_div_eq_div_mul, ← Nat.div_div_eq_div_mul, Nat.mul_div_cancel_left _ (hpos _),
        Nat.add_mul_div_left _ _ (hpos _)]
      have hsmall : f a % 2 ^ w * 2 ^ (w * a) / 2 ^ (w * (a + 1)) = 0 := by
        apply Nat.div_eq_of_lt
        rw [e3, Nat.pow_add, Nat.mul_comm (2 ^ (w * a))]
        exact Nat.mul_lt_mul_of_pos_right hlt (hpos _)
      rw [hsmall, Nat.zero_add]

/-- The value of the digits stays below the weight of the next one. -/
theorem digits_lt (w : Nat) (f : Nat → Nat) (n : Nat) :
    (List.range n).foldr (fun i acc => f i % 2 ^ w * 2 ^ (w * i) + acc) 0 < 2 ^ (w * n) := by
  induction n with
  | zero => simp
  | succ n ih =>
    rw [List.range_succ, List.foldr_append]
    simp only [List.foldr_cons, List.foldr_nil, Nat.add_zero]
    have hshift : ∀ (l : List Nat) (c : Nat), l.foldr (fun i acc => f i % 2 ^ w * 2 ^ (w * i) + acc) c
        = l.foldr (fun i acc => f i % 2 ^ w * 2 ^ (w * i) + acc) 0 + c := by
      intro l c
      induction l with
      | nil => simp
      | cons a r ih => simp only [List.foldr_cons, ih]; ring
    rw [hshift]
    have hlt : f n % 2 ^ w < 2 ^ w := Nat.mod_lt _ (Nat.two_pow_pos w)
    have e : 2 ^ (w * (n + 1)) = 2 ^ w * 2 ^ (w * n) := by rw [Nat.mul_add, Nat.mul_one, Nat.pow_add, Nat.mul_comm]
    rw [e]
    have := Nat.mul_le_mul_right (2 ^ (w * n)) (Nat.succ_le_of_lt hlt)
    rw [Nat.succ_mul] at this
    omega

/-- A lane of a register that was put together from lanes (R154). -/
theorem lane_lanes (w n : Nat) (f : Nat → Nat) (i : Nat) (hi : i < n) (hn : w * n ≤ 512) :
    lane (lanes w n f) w i = f i % 2 ^ w := by
  unfold lane lanes fld
  have hlt := Nat.lt_of_lt_of_le (digits_lt w f n) (Nat.pow_le_pow_right (by decide) hn)
  rw [BitVec.toNat_ofNat, Nat.mod_eq_of_lt hlt, digits_get w f _ (List.pairwise_lt_range) i]
  simp [hi]

/-- The width of a lane type times its lanes is the register. -/
theorem width_mul_lanes (t : VTy) : t.width * t.lanes = 512 := by cases t <;> rfl

theorem lanes_eq (t : VTy) : 512 / t.width = t.lanes := rfl

/-- A lane after a merge: what the lane receives where it is enabled, what it held where it is not (R155). -/
theorem lane_laneMerge (m : Word) (t : VTy) (old : Vec) (f : Nat → Nat) (i : Nat) (hi : i < t.lanes) :
    lane (laneMerge m t.width old f) t.width i = if m.getLsbD i then f i % 2 ^ t.width else lane old t.width i := by
  unfold laneMerge
  rw [lanes_eq, lane_lanes _ _ _ _ hi (le_of_eq (width_mul_lanes t))]
  split
  · rfl
  · unfold lane fld
    rw [Nat.mod_mod]

/-- Bit i of the mask that OM names (R155). -/
theorem Ctx.mask_bit (x : Ctx) (om : GReg) (i : Nat) (hi : i < 64) :
    (x.mask om).getLsbD i = true ↔ om = 0 ∨ (x.rg om.toNat).getLsbD i = true := by
  unfold Ctx.mask
  split
  · rename_i h
    simp only [h, true_or, iff_true, BitVec.getLsbD_allOnes, decide_eq_true_eq]
    exact hi
  · rename_i h
    exact (or_iff_right h).symm

end Sys2Proof.Machine
end

