-- ==== Sys2Proof/Laws/Memory.lean ====
section
/-! SUPPORT. Every operation on the memories of the machine keeps their canonical form: bytes, side bits, poison, cleared
granules, the granule table. -/

namespace Sys2Proof.Machine

/-! ### Bytes -/

theorem wrBytes_wf (m : NMap Byte) (k v n : Nat) (h : Memory.wf m = true) : Memory.wf (wrBytes m k v n) = true := by
  induction n generalizing m k v with
  | zero => exact h
  | succ n ih => exact ih _ _ _ (NMap.wf_set 0 m k _ h)

theorem putBytes_wf (m : NMap Byte) (k : Nat) (l : List Byte) (h : Memory.wf m = true) : Memory.wf (putBytes m k l) = true := by
  induction l generalizing m k with
  | nil => exact h
  | cons b r ih => exact ih _ _ (NMap.wf_set 0 m k b h)

@[inherit_doc NMap.wf_keep]
theorem Memory.wf_keep (m : NMap Byte) (p : Nat → Bool) (h : Memory.wf m = true) : Memory.wf (NMap.keep m p) = true :=
  NMap.wf_keep 0 m p h

/-! ### What the canonical form of a state says -/

/-- The canonical form of a state, memory by memory. -/
theorem State.wf_iff (s : State) : s.wf = true ↔
    Memory.wf s.mem = true ∧ NMap.wf 0 s.side = true ∧ NSet.wf s.pois = true ∧ NSet.wf s.poisLine = true ∧
    NSet.wf s.badLine = true ∧ NSet.wf s.written = true ∧ NMap.wf 0 s.granules = true := by
  simp only [State.wf, Bool.and_eq_true]
  tauto

theorem State.reset_wf : State.reset.wf = true := by decide

/-! ### The operations -/

@[simp] theorem State.tally_wf (s : State) (p i n : Nat) : (s.tally p i n).wf = s.wf := by
  unfold State.tally
  split <;> rfl

@[simp] theorem State.tallyHbm_wf (s : State) (g i n : Nat) : (s.tallyHbm g i n).wf = s.wf := by
  unfold State.tallyHbm
  simp only
  split
  · exact s.tally_wf _ _ _
  · rfl

@[simp] theorem State.fireSram_wf (s : State) (v : VtId) (a : Nat) : (s.fireSram v a).wf = s.wf := rfl
@[simp] theorem State.fireHome_wf (s : State) (pa n : Nat) : (s.fireHome pa n).wf = s.wf := rfl

/-- A granule that is zeroed (R245). -/
theorem State.zeroGranule_wf (s : State) (g : Nat) (h : s.wf = true) : (s.zeroGranule g).wf = true := by
  rw [← State.tallyHbm_wf s g 6 65536, State.wf_iff] at h
  obtain ⟨h1, h2, h3, h4, h5, h6, h7⟩ := h
  exact (State.wf_iff _).mpr ⟨
    Memory.wf_keep _ (fun k => !(decide (g * 65536 ≤ k) && decide (k < (g + 1) * 65536))) h1,
    NMap.wf_keep _ _ (fun k => decide (k / 1024 ≠ g)) h2, h3, NSet.wf_filter _ _ h4, NSet.wf_filter _ _ h5,
    NSet.wf_ins _ _ h6, h7⟩

/-- A write at home (R242). -/
theorem State.homeWrite_wf (s : State) (pa n v : Nat) (h : s.wf = true) : (s.homeWrite pa n v).wf = true := by
  rw [← State.tallyHbm_wf s (granuleOf pa) 6 n, State.wf_iff] at h
  obtain ⟨h1, h2, h3, h4, h5, h6, h7⟩ := h
  exact (State.wf_iff _).mpr ⟨wrBytes_wf _ _ _ _ h1, h2, h3, NSet.wf_put _ _ _ h4, NSet.wf_erase _ _ h5, h6, h7⟩

/-- A write by the wafer manager or the host, which zeroes the granule itself (R245). -/
theorem State.homeWriteNow_wf (s : State) (pa n v : Nat) (h : s.wf = true) : (s.homeWriteNow pa n v).wf = true := by
  unfold State.homeWriteNow
  rw [State.fireHome_wf]
  apply State.homeWrite_wf
  split
  · exact State.zeroGranule_wf s _ h
  · exact h

/-- A store at its bank (R230). -/
theorem State.sramWrite_wf (s : State) (v : VtId) (a n w : Nat) (h : s.wf = true) : (s.sramWrite v a n w).wf = true := by
  rw [State.wf_iff] at h
  obtain ⟨h1, h2, h3, h4, h5, h6, h7⟩ := h
  unfold State.sramWrite
  rw [State.fireSram_wf]
  refine (State.wf_iff _).mpr ⟨wrBytes_wf _ _ _ _ h1, h2, ?_, h4, h5, h6, h7⟩
  show NSet.wf (if n = 8 then NSet.erase s.pois (sramWord v a) else s.pois) = true
  split
  · exact NSet.wf_erase _ _ h3
  · exact h3

/-- An engine's write of a word (R240). -/
theorem State.sramWord64_wf (s : State) (v : VtId) (a w : Nat) (p : Bool) (h : s.wf = true) : (s.sramWord64 v a w p).wf = true := by
  rw [State.wf_iff] at h
  obtain ⟨h1, h2, h3, h4, h5, h6, h7⟩ := h
  unfold State.sramWord64
  rw [State.fireSram_wf]
  exact (State.wf_iff _).mpr ⟨wrBytes_wf _ _ _ _ h1, h2, NSet.wf_put _ _ _ h3, h4, h5, h6, h7⟩

/-- An engine's write of bytes at a place (R230, R240, R242). -/
theorem State.engWrite_wf (s : State) (v : VtId) (l : Loc) (n w : Nat) (p : Bool) (h : s.wf = true) :
    (s.engWrite v l n w p).wf = true := by
  cases l with
  | sram a =>
    simp only [State.engWrite]
    split
    · exact s.sramWord64_wf v a w p h
    · split
      · have h' := (State.wf_iff _).mp (s.sramWrite_wf v a n w h)
        obtain ⟨h1, h2, h3, h4, h5, h6, h7⟩ := h'
        exact (State.wf_iff _).mpr ⟨h1, h2, NSet.wf_ins _ _ h3, h4, h5, h6, h7⟩
      · exact s.sramWrite_wf v a n w h
  | home pa va g =>
    simp only [State.engWrite]
    have h' := (State.wf_iff _).mp (s.homeWrite_wf pa n w h)
    obtain ⟨h1, h2, h3, h4, h5, h6, h7⟩ := h'
    split
    · exact (State.wf_iff _).mpr ⟨h1, h2, h3, NSet.wf_ins _ _ h4, h5, h6, h7⟩
    · rw [State.fireHome_wf]; exact s.homeWrite_wf pa n w h
  | device o => exact h

/-- Lines and words that are about to be written whole (R230, R242). -/
theorem State.clearLines_wf (s : State) (ls : List Nat) (h : s.wf = true) : (s.clearLines ls).wf = true := by
  obtain ⟨h1, h2, h3, h4, h5, h6, h7⟩ := (State.wf_iff _).mp h
  exact (State.wf_iff _).mpr ⟨h1, h2, h3, NSet.wf_filter _ _ h4, NSet.wf_filter _ _ h5, h6, h7⟩

@[inherit_doc State.clearLines_wf]
theorem State.clearWords_wf (s : State) (v : VtId) (as : List Nat) (h : s.wf = true) : (s.clearWords v as).wf = true := by
  obtain ⟨h1, h2, h3, h4, h5, h6, h7⟩ := (State.wf_iff _).mp h
  exact (State.wf_iff _).mpr ⟨h1, h2, NSet.wf_filter _ _ h3, h4, h5, h6, h7⟩

/-- A vtile that is wiped (R14). -/
theorem State.wipeVt_wf (s : State) (v : VtId) (h : s.wf = true) : (s.wipeVt v).wf = true := by
  obtain ⟨h1, h2, h3, h4, h5, h6, h7⟩ := (State.wf_iff _).mp h
  exact (State.wf_iff _).mpr ⟨
    Memory.wf_keep _ (fun k => !(decide (sramKey v 0 ≤ k) && decide (k < sramKey v 0 + 2 ^ 48))) h1, h2, NSet.wf_filter _ _ h3, h4, h5, h6, h7⟩

/-- A granule given to a partition (R384). -/
theorem State.giveGranule_wf (s : State) (p g : Nat) (b : Bool) (h : s.wf = true) : (s.giveGranule p g b).wf = true := by
  obtain ⟨h1, h2, h3, h4, h5, h6, h7⟩ := (State.wf_iff _).mp h
  exact (State.wf_iff _).mpr ⟨h1, h2, h3, h4, h5, h6, NMap.wf_set _ _ _ _ h7⟩

/-- The granules of a freed partition (R245). -/
theorem State.freeGranules_wf (s : State) (p : Nat) (h : s.wf = true) : (s.freeGranules p).wf = true := by
  obtain ⟨h1, h2, h3, h4, h5, h6, h7⟩ := (State.wf_iff _).mp h
  exact (State.wf_iff _).mpr ⟨h1, h2, h3, h4, h5, NSet.wf_filter _ _ h6, NMap.wfFrom_filter _ _ _ _ h7⟩

/-- Bytes of a section of an image (R77). -/
theorem State.loadHeap_wf (s : State) (v : VtId) (a : Nat) (l : List Byte) (h : s.wf = true) : (s.loadHeap v a l).wf = true := by
  unfold State.loadHeap
  generalize linePieces a l = r
  induction r generalizing s with
  | nil => exact h
  | cons e r ih =>
    rw [List.foldl_cons]
    apply ih
    simp only
    split
    · exact State.homeWriteNow_wf _ _ _ _ h
    · exact h

@[inherit_doc State.loadHeap_wf]
theorem State.loadSec_wf (s : State) (v : VtId) (c : ImgSec) (h : s.wf = true) : (s.loadSec v c).wf = true := by
  unfold State.loadSec
  split
  · obtain ⟨h1, h2, h3, h4, h5, h6, h7⟩ := (State.wf_iff _).mp h
    exact (State.wf_iff _).mpr ⟨putBytes_wf _ _ _ h1, h2, h3, h4, h5, h6, h7⟩
  · split
    · exact s.loadHeap_wf v _ _ h
    · exact h

/-- Bytes written to the system granules of a partition (R238, R245). -/
theorem State.sysWrite_wf (s : State) (p n : Nat) (h : s.wf = true) : (s.sysWrite p n).wf = true := by
  unfold State.sysWrite
  split
  · exact h
  · rename_i g r hq; clear hq
    rw [State.tallyHbm_wf]
    generalize g :: r = q
    induction q generalizing s with
    | nil => exact h
    | cons e q ih =>
      rw [List.foldl_cons]
      apply ih
      split
      · exact s.zeroGranule_wf _ h
      · exact h

@[inherit_doc State.sysWrite_wf]
theorem State.sysRead_wf (s : State) (p n : Nat) : (s.sysRead p n).wf = s.wf := by
  unfold State.sysRead
  split
  · rfl
  · split
    · rfl
    · exact State.tallyHbm_wf _ _ _ _

end Sys2Proof.Machine
end

