-- ==== Sys2Proof/Laws/PerInstr.lean ====
section
/-! SUPPORT. One lemma for every constructor of Instr: an instruction without an encoding (a micro-operation, an event) has no
field checks. -/

namespace Sys2Proof.Laws.WellFormed

open Sys2Proof

/-- An instruction has words of its own, or nothing of it is checked at decoding (R67). -/
def Statement (i : Instr) : Prop := (encode i).isSome = true ∨ i.wf = true

theorem addReg : ∀ x0, Statement (.addReg x0) := fun _ => .inl rfl
theorem addImm16 : ∀ x0, Statement (.addImm16 x0) := fun _ => .inl rfl
theorem addImm32 : ∀ x0, Statement (.addImm32 x0) := fun _ => .inl rfl
theorem subReg : ∀ x0, Statement (.subReg x0) := fun _ => .inl rfl
theorem subImm16 : ∀ x0, Statement (.subImm16 x0) := fun _ => .inl rfl
theorem subImm32 : ∀ x0, Statement (.subImm32 x0) := fun _ => .inl rfl
theorem mulReg : ∀ x0, Statement (.mulReg x0) := fun _ => .inl rfl
theorem mulImm16 : ∀ x0, Statement (.mulImm16 x0) := fun _ => .inl rfl
theorem mulImm32 : ∀ x0, Statement (.mulImm32 x0) := fun _ => .inl rfl
theorem mulhReg : ∀ x0, Statement (.mulhReg x0) := fun _ => .inl rfl
theorem mulhImm16 : ∀ x0, Statement (.mulhImm16 x0) := fun _ => .inl rfl
theorem mulhImm32 : ∀ x0, Statement (.mulhImm32 x0) := fun _ => .inl rfl
theorem divReg : ∀ x0, Statement (.divReg x0) := fun _ => .inl rfl
theorem divImm16 : ∀ x0, Statement (.divImm16 x0) := fun _ => .inl rfl
theorem divImm32 : ∀ x0, Statement (.divImm32 x0) := fun _ => .inl rfl
theorem remReg : ∀ x0, Statement (.remReg x0) := fun _ => .inl rfl
theorem remImm16 : ∀ x0, Statement (.remImm16 x0) := fun _ => .inl rfl
theorem remImm32 : ∀ x0, Statement (.remImm32 x0) := fun _ => .inl rfl
theorem andReg : ∀ x0, Statement (.andReg x0) := fun _ => .inl rfl
theorem andImm16 : ∀ x0, Statement (.andImm16 x0) := fun _ => .inl rfl
theorem andImm32 : ∀ x0, Statement (.andImm32 x0) := fun _ => .inl rfl
theorem orReg : ∀ x0, Statement (.orReg x0) := fun _ => .inl rfl
theorem orImm16 : ∀ x0, Statement (.orImm16 x0) := fun _ => .inl rfl
theorem orImm32 : ∀ x0, Statement (.orImm32 x0) := fun _ => .inl rfl
theorem xorReg : ∀ x0, Statement (.xorReg x0) := fun _ => .inl rfl
theorem xorImm16 : ∀ x0, Statement (.xorImm16 x0) := fun _ => .inl rfl
theorem xorImm32 : ∀ x0, Statement (.xorImm32 x0) := fun _ => .inl rfl
theorem andnReg : ∀ x0, Statement (.andnReg x0) := fun _ => .inl rfl
theorem andnImm16 : ∀ x0, Statement (.andnImm16 x0) := fun _ => .inl rfl
theorem andnImm32 : ∀ x0, Statement (.andnImm32 x0) := fun _ => .inl rfl
theorem shlReg : ∀ x0, Statement (.shlReg x0) := fun _ => .inl rfl
theorem shlImm16 : ∀ x0, Statement (.shlImm16 x0) := fun _ => .inl rfl
theorem shlImm32 : ∀ x0, Statement (.shlImm32 x0) := fun _ => .inl rfl
theorem shrReg : ∀ x0, Statement (.shrReg x0) := fun _ => .inl rfl
theorem shrImm16 : ∀ x0, Statement (.shrImm16 x0) := fun _ => .inl rfl
theorem shrImm32 : ∀ x0, Statement (.shrImm32 x0) := fun _ => .inl rfl
theorem sarReg : ∀ x0, Statement (.sarReg x0) := fun _ => .inl rfl
theorem sarImm16 : ∀ x0, Statement (.sarImm16 x0) := fun _ => .inl rfl
theorem sarImm32 : ∀ x0, Statement (.sarImm32 x0) := fun _ => .inl rfl
theorem rotReg : ∀ x0, Statement (.rotReg x0) := fun _ => .inl rfl
theorem rotImm16 : ∀ x0, Statement (.rotImm16 x0) := fun _ => .inl rfl
theorem rotImm32 : ∀ x0, Statement (.rotImm32 x0) := fun _ => .inl rfl
theorem minReg : ∀ x0, Statement (.minReg x0) := fun _ => .inl rfl
theorem minImm16 : ∀ x0, Statement (.minImm16 x0) := fun _ => .inl rfl
theorem minImm32 : ∀ x0, Statement (.minImm32 x0) := fun _ => .inl rfl
theorem maxReg : ∀ x0, Statement (.maxReg x0) := fun _ => .inl rfl
theorem maxImm16 : ∀ x0, Statement (.maxImm16 x0) := fun _ => .inl rfl
theorem maxImm32 : ∀ x0, Statement (.maxImm32 x0) := fun _ => .inl rfl
theorem clz : ∀ x0, Statement (.clz x0) := fun _ => .inl rfl
theorem ctz : ∀ x0, Statement (.ctz x0) := fun _ => .inl rfl
theorem popc : ∀ x0, Statement (.popc x0) := fun _ => .inl rfl
theorem bfx : ∀ x0, Statement (.bfx x0) := fun _ => .inl rfl
theorem bfi : ∀ x0, Statement (.bfi x0) := fun _ => .inl rfl
theorem sel : ∀ x0, Statement (.sel x0) := fun _ => .inl rfl
theorem mov : ∀ x0, Statement (.mov x0) := fun _ => .inl rfl
theorem liImm16 : ∀ x0, Statement (.liImm16 x0) := fun _ => .inl rfl
theorem liImm32 : ∀ x0, Statement (.liImm32 x0) := fun _ => .inl rfl
theorem leaOff16 : ∀ x0, Statement (.leaOff16 x0) := fun _ => .inl rfl
theorem leaOff32 : ∀ x0, Statement (.leaOff32 x0) := fun _ => .inl rfl
theorem ptag : ∀ x0, Statement (.ptag x0) := fun _ => .inl rfl
theorem pget : ∀ x0, Statement (.pget x0) := fun _ => .inl rfl
theorem ext : ∀ x0, Statement (.ext x0) := fun _ => .inl rfl
theorem cmpReg : ∀ x0, Statement (.cmpReg x0) := fun _ => .inl rfl
theorem cmpImm16 : ∀ x0, Statement (.cmpImm16 x0) := fun _ => .inl rfl
theorem cmpImm32 : ∀ x0, Statement (.cmpImm32 x0) := fun _ => .inl rfl
theorem pand : ∀ x0, Statement (.pand x0) := fun _ => .inl rfl
theorem por : ∀ x0, Statement (.por x0) := fun _ => .inl rfl
theorem pxor : ∀ x0, Statement (.pxor x0) := fun _ => .inl rfl
theorem pnot : ∀ x0, Statement (.pnot x0) := fun _ => .inl rfl
theorem brNear : ∀ x0, Statement (.brNear x0) := fun _ => .inl rfl
theorem brFar : ∀ x0, Statement (.brFar x0) := fun _ => .inl rfl
theorem jmpNear : ∀ x0, Statement (.jmpNear x0) := fun _ => .inl rfl
theorem jmpFar : ∀ x0, Statement (.jmpFar x0) := fun _ => .inl rfl
theorem jalNear : ∀ x0, Statement (.jalNear x0) := fun _ => .inl rfl
theorem jalFar : ∀ x0, Statement (.jalFar x0) := fun _ => .inl rfl
theorem jr : ∀ x0, Statement (.jr x0) := fun _ => .inl rfl
theorem loop : ∀ x0, Statement (.loop x0) := fun _ => .inl rfl
theorem nop : Statement (.nop) := .inl rfl
theorem fadd : ∀ x0, Statement (.fadd x0) := fun _ => .inl rfl
theorem fsub : ∀ x0, Statement (.fsub x0) := fun _ => .inl rfl
theorem fmul : ∀ x0, Statement (.fmul x0) := fun _ => .inl rfl
theorem fma : ∀ x0, Statement (.fma x0) := fun _ => .inl rfl
theorem fdiv : ∀ x0, Statement (.fdiv x0) := fun _ => .inl rfl
theorem fsqrt : ∀ x0, Statement (.fsqrt x0) := fun _ => .inl rfl
theorem fmin : ∀ x0, Statement (.fmin x0) := fun _ => .inl rfl
theorem fmax : ∀ x0, Statement (.fmax x0) := fun _ => .inl rfl
theorem fcmp : ∀ x0, Statement (.fcmp x0) := fun _ => .inl rfl
theorem fcvt : ∀ x0, Statement (.fcvt x0) := fun _ => .inl rfl
theorem fclass : ∀ x0, Statement (.fclass x0) := fun _ => .inl rfl
theorem fsgn : ∀ x0, Statement (.fsgn x0) := fun _ => .inl rfl
theorem ldOff16 : ∀ x0, Statement (.ldOff16 x0) := fun _ => .inl rfl
theorem ldOff32 : ∀ x0, Statement (.ldOff32 x0) := fun _ => .inl rfl
theorem stOff16 : ∀ x0, Statement (.stOff16 x0) := fun _ => .inl rfl
theorem stOff32 : ∀ x0, Statement (.stOff32 x0) := fun _ => .inl rfl
theorem ldpOff16 : ∀ x0, Statement (.ldpOff16 x0) := fun _ => .inl rfl
theorem ldpOff32 : ∀ x0, Statement (.ldpOff32 x0) := fun _ => .inl rfl
theorem stpOff16 : ∀ x0, Statement (.stpOff16 x0) := fun _ => .inl rfl
theorem stpOff32 : ∀ x0, Statement (.stpOff32 x0) := fun _ => .inl rfl
theorem acq : ∀ x0, Statement (.acq x0) := fun _ => .inl rfl
theorem rel : ∀ x0, Statement (.rel x0) := fun _ => .inl rfl
theorem fence : ∀ x0, Statement (.fence x0) := fun _ => .inl rfl
theorem pwait : ∀ x0, Statement (.pwait x0) := fun _ => .inl rfl
theorem tlook : ∀ x0, Statement (.tlook x0) := fun _ => .inl rfl
theorem tset : ∀ x0, Statement (.tset x0) := fun _ => .inl rfl
theorem tclr : ∀ x0, Statement (.tclr x0) := fun _ => .inl rfl
theorem mon : ∀ x0, Statement (.mon x0) := fun _ => .inl rfl
theorem mwait : ∀ x0, Statement (.mwait x0) := fun _ => .inl rfl
theorem sbr : ∀ x0, Statement (.sbr x0) := fun _ => .inl rfl
theorem sbw : ∀ x0, Statement (.sbw x0) := fun _ => .inl rfl
theorem aadd : ∀ x0, Statement (.aadd x0) := fun _ => .inl rfl
theorem amin : ∀ x0, Statement (.amin x0) := fun _ => .inl rfl
theorem amax : ∀ x0, Statement (.amax x0) := fun _ => .inl rfl
theorem aand : ∀ x0, Statement (.aand x0) := fun _ => .inl rfl
theorem aor : ∀ x0, Statement (.aor x0) := fun _ => .inl rfl
theorem axor : ∀ x0, Statement (.axor x0) := fun _ => .inl rfl
theorem aswp : ∀ x0, Statement (.aswp x0) := fun _ => .inl rfl
theorem acas : ∀ x0, Statement (.acas x0) := fun _ => .inl rfl
theorem afadd : ∀ x0, Statement (.afadd x0) := fun _ => .inl rfl
theorem vldNoOffset : ∀ x0, Statement (.vldNoOffset x0) := fun _ => .inl rfl
theorem vldOff32 : ∀ x0, Statement (.vldOff32 x0) := fun _ => .inl rfl
theorem vstNoOffset : ∀ x0, Statement (.vstNoOffset x0) := fun _ => .inl rfl
theorem vstOff32 : ∀ x0, Statement (.vstOff32 x0) := fun _ => .inl rfl
theorem vldxNoOffset : ∀ x0, Statement (.vldxNoOffset x0) := fun _ => .inl rfl
theorem vldxOff32 : ∀ x0, Statement (.vldxOff32 x0) := fun _ => .inl rfl
theorem vstxNoOffset : ∀ x0, Statement (.vstxNoOffset x0) := fun _ => .inl rfl
theorem vstxOff32 : ∀ x0, Statement (.vstxOff32 x0) := fun _ => .inl rfl
theorem vldfNoOffset : ∀ x0, Statement (.vldfNoOffset x0) := fun _ => .inl rfl
theorem vldfOff32 : ∀ x0, Statement (.vldfOff32 x0) := fun _ => .inl rfl
theorem vstfNoOffset : ∀ x0, Statement (.vstfNoOffset x0) := fun _ => .inl rfl
theorem vstfOff32 : ∀ x0, Statement (.vstfOff32 x0) := fun _ => .inl rfl
theorem vadd : ∀ x0, Statement (.vadd x0) := fun _ => .inl rfl
theorem vsub : ∀ x0, Statement (.vsub x0) := fun _ => .inl rfl
theorem vmul : ∀ x0, Statement (.vmul x0) := fun _ => .inl rfl
theorem vfma : ∀ x0, Statement (.vfma x0) := fun _ => .inl rfl
theorem vmin : ∀ x0, Statement (.vmin x0) := fun _ => .inl rfl
theorem vmax : ∀ x0, Statement (.vmax x0) := fun _ => .inl rfl
theorem vabs : ∀ x0, Statement (.vabs x0) := fun _ => .inl rfl
theorem vand : ∀ x0, Statement (.vand x0) := fun _ => .inl rfl
theorem vor : ∀ x0, Statement (.vor x0) := fun _ => .inl rfl
theorem vxor : ∀ x0, Statement (.vxor x0) := fun _ => .inl rfl
theorem vshl : ∀ x0, Statement (.vshl x0) := fun _ => .inl rfl
theorem vshr : ∀ x0, Statement (.vshr x0) := fun _ => .inl rfl
theorem vcmp : ∀ x0, Statement (.vcmp x0) := fun _ => .inl rfl
theorem vsel : ∀ x0, Statement (.vsel x0) := fun _ => .inl rfl
theorem vcvt : ∀ x0, Statement (.vcvt x0) := fun _ => .inl rfl
theorem vred : ∀ x0, Statement (.vred x0) := fun _ => .inl rfl
theorem vscan : ∀ x0, Statement (.vscan x0) := fun _ => .inl rfl
theorem vbcast : ∀ x0, Statement (.vbcast x0) := fun _ => .inl rfl
theorem vperm : ∀ x0, Statement (.vperm x0) := fun _ => .inl rfl
theorem vslide : ∀ x0, Statement (.vslide x0) := fun _ => .inl rfl
theorem vfn : ∀ x0, Statement (.vfn x0) := fun _ => .inl rfl
theorem vmov : ∀ x0, Statement (.vmov x0) := fun _ => .inl rfl
theorem vext : ∀ x0, Statement (.vext x0) := fun _ => .inl rfl
theorem vins : ∀ x0, Statement (.vins x0) := fun _ => .inl rfl
theorem mmq : ∀ x0, Statement (.mmq x0) := fun _ => .inl rfl
theorem mmqg : ∀ x0, Statement (.mmqg x0) := fun _ => .inl rfl
theorem mzero : ∀ x0, Statement (.mzero x0) := fun _ => .inl rfl
theorem mld : ∀ x0, Statement (.mld x0) := fun _ => .inl rfl
theorem mst : ∀ x0, Statement (.mst x0) := fun _ => .inl rfl
theorem mqz : ∀ x0, Statement (.mqz x0) := fun _ => .inl rfl
theorem mdq : ∀ x0, Statement (.mdq x0) := fun _ => .inl rfl
theorem mgeoReg : ∀ x0, Statement (.mgeoReg x0) := fun _ => .inl rfl
theorem mgeoImm : ∀ x0, Statement (.mgeoImm x0) := fun _ => .inl rfl
theorem msub : ∀ x0, Statement (.msub x0) := fun _ => .inl rfl
theorem mdrain : Statement (.mdrain) := .inl rfl
theorem mstat : ∀ x0, Statement (.mstat x0) := fun _ => .inl rfl
theorem cpq : ∀ x0, Statement (.cpq x0) := fun _ => .inl rfl
theorem cpqt : ∀ x0, Statement (.cpqt x0) := fun _ => .inl rfl
theorem semw : ∀ x0, Statement (.semw x0) := fun _ => .inl rfl
theorem semt : ∀ x0, Statement (.semt x0) := fun _ => .inl rfl
theorem semadd : ∀ x0, Statement (.semadd x0) := fun _ => .inl rfl
theorem semset : ∀ x0, Statement (.semset x0) := fun _ => .inl rfl
theorem semget : ∀ x0, Statement (.semget x0) := fun _ => .inl rfl
theorem chs : ∀ x0, Statement (.chs x0) := fun _ => .inl rfl
theorem chr : ∀ x0, Statement (.chr x0) := fun _ => .inl rfl
theorem alt : ∀ x0, Statement (.alt x0) := fun _ => .inl rfl
theorem chbs : ∀ x0, Statement (.chbs x0) := fun _ => .inl rfl
theorem chbr : ∀ x0, Statement (.chbr x0) := fun _ => .inl rfl
theorem chq : ∀ x0, Statement (.chq x0) := fun _ => .inl rfl
theorem spawn : ∀ x0, Statement (.spawn x0) := fun _ => .inl rfl
theorem spawnt : ∀ x0, Statement (.spawnt x0) := fun _ => .inl rfl
theorem pend : Statement (.pend) := .inl rfl
theorem yield : Statement (.yield) := .inl rfl
theorem vsift : ∀ x0, Statement (.vsift x0) := fun _ => .inl rfl
theorem swl : ∀ x0, Statement (.swl x0) := fun _ => .inl rfl
theorem swj : ∀ x0, Statement (.swj x0) := fun _ => .inl rfl
theorem split : Statement (.split) := .inl rfl
theorem rejoin : Statement (.rejoin) := .inl rfl
theorem bar : ∀ x0, Statement (.bar x0) := fun _ => .inl rfl
theorem bara : ∀ x0, Statement (.bara x0) := fun _ => .inl rfl
theorem barw : ∀ x0, Statement (.barw x0) := fun _ => .inl rfl
theorem whoami : ∀ x0, Statement (.whoami x0) := fun _ => .inl rfl
theorem trap : ∀ x0, Statement (.trap x0) := fun _ => .inl rfl
theorem tret : Statement (.tret) := .inl rfl
theorem crd : ∀ x0, Statement (.crd x0) := fun _ => .inl rfl
theorem cwr : ∀ x0, Statement (.cwr x0) := fun _ => .inl rfl
theorem brk : ∀ x0, Statement (.brk x0) := fun _ => .inl rfl
theorem rdtime : ∀ x0, Statement (.rdtime x0) := fun _ => .inl rfl
theorem wdog : ∀ x0, Statement (.wdog x0) := fun _ => .inl rfl
theorem idle : Statement (.idle) := .inl rfl
theorem tlbi : ∀ x0, Statement (.tlbi x0) := fun _ => .inl rfl
theorem cload : ∀ x0, Statement (.cload x0) := fun _ => .inl rfl
theorem cbind : ∀ x0, Statement (.cbind x0) := fun _ => .inl rfl
theorem cunbind : ∀ x0, Statement (.cunbind x0) := fun _ => .inl rfl
theorem dadd : ∀ x0, Statement (.dadd x0) := fun _ => .inl rfl
theorem dsub : ∀ x0, Statement (.dsub x0) := fun _ => .inl rfl
theorem dmul : ∀ x0, Statement (.dmul x0) := fun _ => .inl rfl
theorem dfma : ∀ x0, Statement (.dfma x0) := fun _ => .inl rfl
theorem ddiv : ∀ x0, Statement (.ddiv x0) := fun _ => .inl rfl
theorem dsqrt : ∀ x0, Statement (.dsqrt x0) := fun _ => .inl rfl
theorem dcvt : ∀ x0, Statement (.dcvt x0) := fun _ => .inl rfl
theorem vdfma : ∀ x0, Statement (.vdfma x0) := fun _ => .inl rfl
theorem combTail0 : ∀ x0, Statement (.combTail0 x0) := fun _ => .inl rfl
theorem combTail1 : ∀ x0, Statement (.combTail1 x0) := fun _ => .inl rfl
theorem combTail2 : ∀ x0, Statement (.combTail2 x0) := fun _ => .inl rfl
theorem combTail3 : ∀ x0, Statement (.combTail3 x0) := fun _ => .inl rfl
theorem combMicroOp : Statement (.combMicroOp) := .inr rfl
theorem extensionMoveComplete : ∀ x0, Statement (.extensionMoveComplete x0) := fun _ => .inr rfl
theorem migratingContextMove : ∀ x0, Statement (.migratingContextMove x0) := fun _ => .inr rfl
theorem asyncCauseTaken : ∀ x0, Statement (.asyncCauseTaken x0) := fun _ => .inr rfl
theorem faultMessageAccepted : ∀ x0, Statement (.faultMessageAccepted x0) := fun _ => .inr rfl
theorem resume : ∀ x0, Statement (.resume x0) := fun _ => .inr rfl
theorem resumeAt : ∀ x0, Statement (.resumeAt x0) := fun _ => .inr rfl
theorem remove : ∀ x0, Statement (.remove x0) := fun _ => .inr rfl
theorem toHandler : ∀ x0, Statement (.toHandler x0) := fun _ => .inr rfl
theorem restartGang : ∀ x0, Statement (.restartGang x0) := fun _ => .inr rfl
theorem summon : ∀ x0, Statement (.summon x0) := fun _ => .inr rfl
theorem offerArrival : ∀ x0, Statement (.offerArrival x0) := fun _ => .inr rfl
theorem readyNoticeArrival : ∀ x0, Statement (.readyNoticeArrival x0) := fun _ => .inr rfl
theorem acknowledgementArrival : ∀ x0, Statement (.acknowledgementArrival x0) := fun _ => .inr rfl
theorem startArrival : ∀ x0, Statement (.startArrival x0) := fun _ => .inr rfl
theorem commitNoticeArrival : ∀ x0, Statement (.commitNoticeArrival x0) := fun _ => .inr rfl
theorem releaseNoticeArrival : ∀ x0, Statement (.releaseNoticeArrival x0) := fun _ => .inr rfl
theorem withdrawalArrival : ∀ x0, Statement (.withdrawalArrival x0) := fun _ => .inr rfl
theorem bulkDataStep : ∀ x0, Statement (.bulkDataStep x0) := fun _ => .inr rfl
theorem foragerArrival : ∀ x0, Statement (.foragerArrival x0) := fun _ => .inr rfl
theorem spawnRetry : ∀ x0, Statement (.spawnRetry x0) := fun _ => .inr rfl
theorem foragerStart : ∀ x0, Statement (.foragerStart x0) := fun _ => .inr rfl
theorem probeLaunch : ∀ x0, Statement (.probeLaunch x0) := fun _ => .inr rfl
theorem deadlockReport : ∀ x0, Statement (.deadlockReport x0) := fun _ => .inr rfl
theorem colonyTreeRelease : ∀ x0 x1, Statement (.colonyTreeRelease x0 x1) := fun _ _ => .inr rfl
theorem treeChannelAssigned : Statement (.treeChannelAssigned) := .inr rfl
theorem copyStep : ∀ x0, Statement (.copyStep x0) := fun _ => .inr rfl
theorem packStep : ∀ x0, Statement (.packStep x0) := fun _ => .inr rfl
theorem unpackStep : ∀ x0, Statement (.unpackStep x0) := fun _ => .inr rfl
theorem reduceStep : ∀ x0, Statement (.reduceStep x0) := fun _ => .inr rfl
theorem matrixFetch : ∀ x0, Statement (.matrixFetch x0) := fun _ => .inr rfl
theorem matrixEffect : ∀ x0, Statement (.matrixEffect x0) := fun _ => .inr rfl
theorem matrixCompletion : ∀ x0, Statement (.matrixCompletion x0) := fun _ => .inr rfl
theorem postedStorePerformed : ∀ x0 x1, Statement (.postedStorePerformed x0 x1) := fun _ _ => .inr rfl
theorem writeThroughPerformed : ∀ x0 x1, Statement (.writeThroughPerformed x0 x1) := fun _ _ => .inr rfl
theorem cacheFill : ∀ x0 x1 x2, Statement (.cacheFill x0 x1 x2) := fun _ _ _ => .inr rfl
theorem atomicResultReturn : ∀ x0, Statement (.atomicResultReturn x0) := fun _ => .inr rfl
theorem pageWalk : ∀ x0 x1, Statement (.pageWalk x0 x1) := fun _ _ => .inr rfl
theorem scrubRead : ∀ x0 x1 x2, Statement (.scrubRead x0 x1 x2) := fun _ _ _ => .inr rfl
theorem selfTestComplete : ∀ x0 x1 x2, Statement (.selfTestComplete x0 x1 x2) := fun _ _ _ => .inr rfl
theorem thermalMigration : ∀ x0, Statement (.thermalMigration x0) := fun _ => .inr rfl
theorem thermalMigrationComplete : ∀ x0, Statement (.thermalMigrationComplete x0) := fun _ => .inr rfl
theorem stopNotice : ∀ x0 x1, Statement (.stopNotice x0 x1) := fun _ _ => .inr rfl
theorem stopAckDeadline : ∀ x0 x1, Statement (.stopAckDeadline x0 x1) := fun _ _ => .inr rfl
theorem stopCount : ∀ x0, Statement (.stopCount x0) := fun _ => .inr rfl
theorem flushTokenArrival : ∀ x0 x1, Statement (.flushTokenArrival x0 x1) := fun _ _ => .inr rfl
theorem saveBufferDrain : ∀ x0 x1, Statement (.saveBufferDrain x0 x1) := fun _ _ => .inr rfl
theorem tileContextSave : ∀ x0, Statement (.tileContextSave x0) := fun _ => .inr rfl
theorem tileSaveDone : ∀ x0, Statement (.tileSaveDone x0) := fun _ => .inr rfl
theorem saveTimeout : ∀ x0, Statement (.saveTimeout x0) := fun _ => .inr rfl
theorem gangPlacement : ∀ x0 x1, Statement (.gangPlacement x0 x1) := fun _ _ => .inr rfl
theorem gangStartCount : ∀ x0, Statement (.gangStartCount x0) := fun _ => .inr rfl
theorem quantumExpiry : ∀ x0, Statement (.quantumExpiry x0) := fun _ => .inr rfl
theorem watchdogExpiry : ∀ x0, Statement (.watchdogExpiry x0) := fun _ => .inr rfl
theorem mwaitLimitExpiry : ∀ x0, Statement (.mwaitLimitExpiry x0) := fun _ => .inr rfl
theorem altTimeout : ∀ x0, Statement (.altTimeout x0) := fun _ => .inr rfl
theorem swarmFormationTimeout : ∀ x0, Statement (.swarmFormationTimeout x0) := fun _ => .inr rfl
theorem idleTimeout : ∀ x0, Statement (.idleTimeout x0) := fun _ => .inr rfl
theorem tokenRefill : Statement (.tokenRefill) := .inr rfl
theorem logIntervalClose : ∀ x0, Statement (.logIntervalClose x0) := fun _ => .inr rfl
theorem thermalSample : ∀ x0 x1, Statement (.thermalSample x0 x1) := fun _ _ => .inr rfl
theorem holdTimerExpiry : ∀ x0, Statement (.holdTimerExpiry x0) := fun _ => .inr rfl
theorem transitionTimerExpiry : ∀ x0, Statement (.transitionTimerExpiry x0) := fun _ => .inr rfl
theorem operatingPointGrant : ∀ x0 x1, Statement (.operatingPointGrant x0 x1) := fun _ _ => .inr rfl
theorem activationWindowAdjust : ∀ x0 x1, Statement (.activationWindowAdjust x0 x1) := fun _ _ => .inr rfl
theorem quadSleep : ∀ x0, Statement (.quadSleep x0) := fun _ => .inr rfl
theorem quadWake : ∀ x0, Statement (.quadWake x0) := fun _ => .inr rfl
theorem quadWakeComplete : ∀ x0, Statement (.quadWakeComplete x0) := fun _ => .inr rfl
theorem quadPowerOff : ∀ x0, Statement (.quadPowerOff x0) := fun _ => .inr rfl
theorem granuleZeroingComplete : ∀ x0, Statement (.granuleZeroingComplete x0) := fun _ => .inr rfl
theorem keyReencryptLine : ∀ x0, Statement (.keyReencryptLine x0) := fun _ => .inr rfl
theorem gradeReencode : ∀ x0, Statement (.gradeReencode x0) := fun _ => .inr rfl
theorem hbmRemapLineCopy : ∀ x0, Statement (.hbmRemapLineCopy x0) := fun _ => .inr rfl
theorem rtgoPortRead : ∀ x0, Statement (.rtgoPortRead x0) := fun _ => .inr rfl
theorem rtgoPortWrite : ∀ x0, Statement (.rtgoPortWrite x0) := fun _ => .inr rfl
theorem rtgoPermissionRead : ∀ x0, Statement (.rtgoPermissionRead x0) := fun _ => .inr rfl
theorem rtgoPermissionWrite : ∀ x0, Statement (.rtgoPermissionWrite x0) := fun _ => .inr rfl
theorem rtgoVtileMapRead : ∀ x0, Statement (.rtgoVtileMapRead x0) := fun _ => .inr rfl
theorem rtgoRootWrite : ∀ x0, Statement (.rtgoRootWrite x0) := fun _ => .inr rfl
theorem rtgoSpillRead : ∀ x0, Statement (.rtgoSpillRead x0) := fun _ => .inr rfl
theorem rtgoSpillWrite : ∀ x0, Statement (.rtgoSpillWrite x0) := fun _ => .inr rfl
theorem rtgoColonyRead : ∀ x0, Statement (.rtgoColonyRead x0) := fun _ => .inr rfl
theorem rtgoColonyWrite : ∀ x0, Statement (.rtgoColonyWrite x0) := fun _ => .inr rfl
theorem rtgoPartitionRead : ∀ x0, Statement (.rtgoPartitionRead x0) := fun _ => .inr rfl
theorem rtgoLpctRead : ∀ x0, Statement (.rtgoLpctRead x0) := fun _ => .inr rfl
theorem rtgoEngineRead : ∀ x0, Statement (.rtgoEngineRead x0) := fun _ => .inr rfl
theorem rtgoGranuleRead : ∀ x0, Statement (.rtgoGranuleRead x0) := fun _ => .inr rfl
theorem rtgoRefused : ∀ x0, Statement (.rtgoRefused x0) := fun _ => .inr rfl
theorem plainRegisterWrite : ∀ x0 x1 x2, Statement (.plainRegisterWrite x0 x1 x2) := fun _ _ _ => .inr rfl
theorem doorbell : ∀ x0 x1 x2, Statement (.doorbell x0 x1 x2) := fun _ _ _ => .inr rfl
theorem eventDoorbell : ∀ x0 x1, Statement (.eventDoorbell x0 x1) := fun _ _ => .inr rfl
theorem errorBitsClear : ∀ x0 x1, Statement (.errorBitsClear x0 x1) := fun _ _ => .inr rfl
theorem notify : ∀ x0 x1 x2, Statement (.notify x0 x1 x2) := fun _ _ _ => .inr rfl
theorem errClear : ∀ x0 x1 x2, Statement (.errClear x0 x1 x2) := fun _ _ _ => .inr rfl
theorem bar4Write : ∀ x0 x1 x2, Statement (.bar4Write x0 x1 x2) := fun _ _ _ => .inr rfl
theorem dispatchPacket : ∀ x0, Statement (.dispatchPacket x0) := fun _ => .inr rfl
theorem createPartition : ∀ x0 x1, Statement (.createPartition x0 x1) := fun _ _ => .inr rfl
theorem freePartition : ∀ x0 x1, Statement (.freePartition x0 x1) := fun _ _ => .inr rfl
theorem repartition : ∀ x0 x1 x2 x3, Statement (.repartition x0 x1 x2 x3) := fun _ _ _ _ => .inr rfl
theorem setSaveto : ∀ x0, Statement (.setSaveto x0) := fun _ => .inr rfl
theorem setQuantum : ∀ x0, Statement (.setQuantum x0) := fun _ => .inr rfl
theorem setFquota : ∀ x0, Statement (.setFquota x0) := fun _ => .inr rfl
theorem setRate : ∀ x0, Statement (.setRate x0) := fun _ => .inr rfl
theorem setDepth : ∀ x0, Statement (.setDepth x0) := fun _ => .inr rfl
theorem setLend : ∀ x0, Statement (.setLend x0) := fun _ => .inr rfl
theorem setPowerCap : ∀ x0, Statement (.setPowerCap x0) := fun _ => .inr rfl
theorem setLogInterval : ∀ x0, Statement (.setLogInterval x0) := fun _ => .inr rfl
theorem setSummonPolicy : ∀ x0, Statement (.setSummonPolicy x0) := fun _ => .inr rfl
theorem setScaleOutPortMode : ∀ x0, Statement (.setScaleOutPortMode x0) := fun _ => .inr rfl
theorem scaleOutModeApplied : ∀ x0, Statement (.scaleOutModeApplied x0) := fun _ => .inr rfl
theorem mapWindow : ∀ x0 x1 x2 x3 x4, Statement (.mapWindow x0 x1 x2 x3 x4) := fun _ _ _ _ _ => .inr rfl
theorem gradeChange : ∀ x0 x1 x2, Statement (.gradeChange x0 x1 x2) := fun _ _ _ => .inr rfl
theorem keyChange : ∀ x0, Statement (.keyChange x0) := fun _ => .inr rfl
theorem launchImage : ∀ x0 x1, Statement (.launchImage x0 x1) := fun _ _ => .inr rfl
theorem galleryWrite : ∀ x0 x1 x2 x3, Statement (.galleryWrite x0 x1 x2 x3) := fun _ _ _ _ => .inr rfl
theorem curatorColonyResume : ∀ x0, Statement (.curatorColonyResume x0) := fun _ => .inr rfl
theorem curatorColonyRemove : ∀ x0, Statement (.curatorColonyRemove x0) := fun _ => .inr rfl
theorem createHostQueue : ∀ x0, Statement (.createHostQueue x0) := fun _ => .inr rfl
theorem destroyHostQueue : ∀ x0, Statement (.destroyHostQueue x0) := fun _ => .inr rfl
theorem hostQueueDestroyed : ∀ x0, Statement (.hostQueueDestroyed x0) := fun _ => .inr rfl
theorem channelGrant : ∀ x0 x1, Statement (.channelGrant x0 x1) := fun _ _ => .inr rfl
theorem channelGrantLapse : ∀ x0, Statement (.channelGrantLapse x0) := fun _ => .inr rfl
theorem attestationQuote : ∀ x0 x1 x2, Statement (.attestationQuote x0 x1 x2) := fun _ _ _ => .inr rfl
theorem readLog : ∀ x0 x1 x2 x3 x4 x5, Statement (.readLog x0 x1 x2 x3 x4 x5) := fun _ _ _ _ _ _ => .inr rfl
theorem closeRecord : ∀ x0 x1, Statement (.closeRecord x0 x1) := fun _ _ => .inr rfl
theorem residencyReport : ∀ x0 x1, Statement (.residencyReport x0 x1) := fun _ _ => .inr rfl
theorem stageFirmware : ∀ x0 x1, Statement (.stageFirmware x0 x1) := fun _ _ => .inr rfl
theorem activateFirmware : ∀ x0, Statement (.activateFirmware x0) := fun _ => .inr rfl
theorem rimControllerRestartDone : ∀ x0, Statement (.rimControllerRestartDone x0) := fun _ => .inr rfl
theorem retireTile : ∀ x0 x1, Statement (.retireTile x0 x1) := fun _ _ => .inr rfl
theorem remapHbmChannel : ∀ x0 x1 x2, Statement (.remapHbmChannel x0 x1 x2) := fun _ _ _ => .inr rfl
theorem restartRimController : ∀ x0 x1, Statement (.restartRimController x0 x1) := fun _ _ => .inr rfl
theorem retireRimController : ∀ x0 x1, Statement (.retireRimController x0 x1) := fun _ _ => .inr rfl
theorem unknownRequest : ∀ x0, Statement (.unknownRequest x0) := fun _ => .inr rfl
theorem scaleOutLaunchPacket : ∀ x0 x1 x2 x3, Statement (.scaleOutLaunchPacket x0 x1 x2 x3) := fun _ _ _ _ => .inr rfl
theorem scaleOutReportRequest : ∀ x0 x1, Statement (.scaleOutReportRequest x0 x1) := fun _ _ => .inr rfl
theorem linkPortFailure : ∀ x0, Statement (.linkPortFailure x0) := fun _ => .inr rfl
theorem deviceReset : Statement (.deviceReset) := .inr rfl
theorem errorInAUnit : ∀ x0 x1, Statement (.errorInAUnit x0 x1) := fun _ _ => .inr rfl
theorem refusalArrival : ∀ x0, Statement (.refusalArrival x0) := fun _ => .inr rfl
theorem probeAbandoned : ∀ x0, Statement (.probeAbandoned x0) := fun _ => .inr rfl
theorem tlbiAcknowledgement : ∀ x0, Statement (.tlbiAcknowledgement x0) := fun _ => .inr rfl
theorem operatingPointChangeEnd : ∀ x0, Statement (.operatingPointChangeEnd x0) := fun _ => .inr rfl
theorem partitionPreEmption : ∀ x0, Statement (.partitionPreEmption x0) := fun _ => .inr rfl
theorem partitionResumption : ∀ x0, Statement (.partitionResumption x0) := fun _ => .inr rfl
theorem rimControllerRestartFailure : ∀ x0, Statement (.rimControllerRestartFailure x0) := fun _ => .inr rfl

end Sys2Proof.Laws.WellFormed
end

