-- ==== Sys2Proof/Tests/Slice0.lean ====
section
/-! SUPPORT. Tests: words written out from the encoding tables of spec/ and what they decode to; an ill-formed term for every
field check; examples of the manual; and for every statement that has hypotheses a state and operands that meet them. -/

open Sys2Proof Sys2Proof.Machine Sys2Proof.Claims

set_option maxRecDepth 20000
set_option exponentiation.threshold 600

namespace Sys2Proof.Tests

/-! ### Decoding -/

/-- Words of the register forms of R110, written from the tables. -/
theorem test_decode_integer1 :
    decode 0x0041 0x7C2 = .ok (.addReg ⟨1, 2, 31, false, false⟩) ∧
    decode 0x0142 0x17C2 = .ok (.subReg ⟨2, 2, 31, true, false⟩) ∧
    decode 0x0243 0x27C2 = .ok (.mulReg ⟨3, 2, 31, false, true⟩) ∧
    decode 0x0344 0x37C2 = .ok (.mulhReg ⟨4, 2, 31, true, true⟩) ∧
    decode 0x0445 0x7C2 = .ok (.divReg ⟨5, 2, 31, false, false⟩) ∧
    decode 0x0546 0x17C2 = .ok (.remReg ⟨6, 2, 31, true, false⟩) ∧
    decode 0x0647 0x27C2 = .ok (.andReg ⟨7, 2, 31, false, true⟩) ∧
    decode 0x0748 0x37C2 = .ok (.orReg ⟨8, 2, 31, true, true⟩) ∧
    decode 0x0849 0x7C2 = .ok (.xorReg ⟨9, 2, 31, false, false⟩) ∧
    decode 0x094A 0x17C2 = .ok (.andnReg ⟨10, 2, 31, true, false⟩) ∧
    decode 0x0A4B 0x27C2 = .ok (.shlReg ⟨11, 2, 31, false, true⟩) ∧
    decode 0x0B4C 0x37C2 = .ok (.shrReg ⟨12, 2, 31, true, true⟩) ∧
    decode 0x0C4D 0x7C2 = .ok (.sarReg ⟨13, 2, 31, false, false⟩) ∧
    decode 0x0D4E 0x17C2 = .ok (.rotReg ⟨14, 2, 31, true, false⟩) ∧
    decode 0x0E4F 0x27C2 = .ok (.minReg ⟨15, 2, 31, false, true⟩) ∧
    decode 0x0F50 0x37C2 = .ok (.maxReg ⟨16, 2, 31, true, true⟩) := by
  decide

/-- Words of the 16-bit immediate forms of R110, written from the tables. -/
theorem test_decode_integer2 :
    decode 0x0081 0xFFFD001E = .ok (.addImm16 ⟨1, 30, -3, false, false⟩) ∧
    decode 0x0182 0xFFFD101E = .ok (.subImm16 ⟨2, 30, -3, true, false⟩) ∧
    decode 0x0283 0xFFFD201E = .ok (.mulImm16 ⟨3, 30, -3, false, true⟩) ∧
    decode 0x0384 0xFFFD301E = .ok (.mulhImm16 ⟨4, 30, -3, true, true⟩) ∧
    decode 0x0485 0xFFFD001E = .ok (.divImm16 ⟨5, 30, -3, false, false⟩) ∧
    decode 0x0586 0xFFFD101E = .ok (.remImm16 ⟨6, 30, -3, true, false⟩) ∧
    decode 0x0687 0xFFFD201E = .ok (.andImm16 ⟨7, 30, -3, false, true⟩) ∧
    decode 0x0788 0xFFFD301E = .ok (.orImm16 ⟨8, 30, -3, true, true⟩) ∧
    decode 0x0889 0xFFFD001E = .ok (.xorImm16 ⟨9, 30, -3, false, false⟩) ∧
    decode 0x098A 0xFFFD101E = .ok (.andnImm16 ⟨10, 30, -3, true, false⟩) ∧
    decode 0x0A8B 0x9201E = .ok (.shlImm16 ⟨11, 30, 9, false, true⟩) ∧
    decode 0x0B8C 0x9301E = .ok (.shrImm16 ⟨12, 30, 9, true, true⟩) ∧
    decode 0x0C8D 0x9001E = .ok (.sarImm16 ⟨13, 30, 9, false, false⟩) ∧
    decode 0x0D8E 0x9101E = .ok (.rotImm16 ⟨14, 30, 9, true, false⟩) ∧
    decode 0x0E8F 0xFFFD201E = .ok (.minImm16 ⟨15, 30, -3, false, true⟩) ∧
    decode 0x0F90 0xFFFD301E = .ok (.maxImm16 ⟨16, 30, -3, true, true⟩) := by
  decide

/-- Words of the 32-bit immediate forms of R110, written from the tables. -/
theorem test_decode_integer3 :
    decode 0x00C1 0xFFFEEE900000001D = .ok (.addImm32 ⟨1, 29, -70000, false, false⟩) ∧
    decode 0x01C2 0xFFFEEE900000101D = .ok (.subImm32 ⟨2, 29, -70000, true, false⟩) ∧
    decode 0x02C3 0xFFFEEE900000201D = .ok (.mulImm32 ⟨3, 29, -70000, false, true⟩) ∧
    decode 0x03C4 0xFFFEEE900000301D = .ok (.mulhImm32 ⟨4, 29, -70000, true, true⟩) ∧
    decode 0x04C5 0xFFFEEE900000001D = .ok (.divImm32 ⟨5, 29, -70000, false, false⟩) ∧
    decode 0x05C6 0xFFFEEE900000101D = .ok (.remImm32 ⟨6, 29, -70000, true, false⟩) ∧
    decode 0x06C7 0xFFFEEE900000201D = .ok (.andImm32 ⟨7, 29, -70000, false, true⟩) ∧
    decode 0x07C8 0xFFFEEE900000301D = .ok (.orImm32 ⟨8, 29, -70000, true, true⟩) ∧
    decode 0x08C9 0xFFFEEE900000001D = .ok (.xorImm32 ⟨9, 29, -70000, false, false⟩) ∧
    decode 0x09CA 0xFFFEEE900000101D = .ok (.andnImm32 ⟨10, 29, -70000, true, false⟩) ∧
    decode 0x0ACB 0x110000201D = .ok (.shlImm32 ⟨11, 29, 17, false, true⟩) ∧
    decode 0x0BCC 0x110000301D = .ok (.shrImm32 ⟨12, 29, 17, true, true⟩) ∧
    decode 0x0CCD 0x110000001D = .ok (.sarImm32 ⟨13, 29, 17, false, false⟩) ∧
    decode 0x0DCE 0x110000101D = .ok (.rotImm32 ⟨14, 29, 17, true, false⟩) ∧
    decode 0x0ECF 0xFFFEEE900000201D = .ok (.minImm32 ⟨15, 29, -70000, false, true⟩) ∧
    decode 0x0FD0 0xFFFEEE900000301D = .ok (.maxImm32 ⟨16, 29, -70000, true, true⟩) := by
  decide

/-- Words of the R113 to R120, written from the tables. -/
theorem test_decode_bits :
    decode 0x1043 0x1004 = .ok (.clz ⟨3, 4, true, false⟩) ∧
    decode 0x1143 0x2004 = .ok (.ctz ⟨3, 4, false, true⟩) ∧
    decode 0x1245 0x3006 = .ok (.popc ⟨5, 6, true, true⟩) ∧
    decode 0x1383 0x2C80004 = .ok (.bfx ⟨3, 4, 8, 11, false⟩) ∧
    decode 0x1483 0x5E80004 = .ok (.bfi ⟨3, 4, 40, 23⟩) ∧
    decode 0x1583 0x360144 = .ok (.sel ⟨3, 4, 5, 6⟩) ∧
    decode 0x1673 0x4 = .ok (.mov ⟨.p 3, .g 4⟩) ∧
    decode 0x1643 0x34 = .ok (.mov ⟨.g 3, .p 4⟩) ∧
    decode 0x1783 0xFFFE1000 = .ok (.liImm16 ⟨3, -2, true⟩) ∧
    decode 0x17C7 0x12345600000000 = .ok (.liImm32 ⟨7, 0x123456, false⟩) ∧
    decode 0x1883 0xFFF80100 = .ok (.leaOff16 ⟨3, 4, -8⟩) ∧
    decode 0x18C3 0x1117000000100 = .ok (.leaOff32 ⟨3, 4, 70000⟩) ∧
    decode 0x1985 0xD00004 = .ok (.ptag ⟨5, 4, 0x10, 3⟩) ∧
    decode 0x1A46 0x5 = .ok (.pget ⟨6, 5⟩) ∧
    decode 0x1B46 0x6005 = .ok (.ext ⟨6, 5, 2, true⟩) := by
  decide

/-- Words of the R61, R121 to R128, written from the tables. -/
theorem test_decode_control :
    decode 0x2073 0xC144 = .ok (.cmpReg ⟨3, 4, 5, .ltn, true⟩) ∧
    decode 0x20B3 0xFFFB3004 = .ok (.cmpImm16 ⟨3, 4, -5, .ge, false⟩) ∧
    decode 0x20F3 0x186A00000F004 = .ok (.cmpImm32 ⟨3, 4, 100000, .ntst, true⟩) ∧
    decode 0x2171 0xCF2 = .ok (.pand ⟨1, 2, 3⟩) ∧
    decode 0x2271 0xCF2 = .ok (.por ⟨1, 2, 3⟩) ∧
    decode 0x2371 0xCF2 = .ok (.pxor ⟨1, 2, 3⟩) ∧
    decode 0x2471 0x32 = .ok (.pnot ⟨1, 2⟩) ∧
    decode 0x25B2 0xFFA71000 = .ok (.brNear ⟨2, true, -3, 7⟩) ∧
    decode 0x25F2 0xFFDDD20700000000 = .ok (.brFar ⟨2, false, -70000, 7⟩) ∧
    decode 0x2680 0x10000 = .ok (.jmpNear ⟨0, 1⟩) ∧
    decode 0x26C0 0x2711F00000000 = .ok (.jmpFar ⟨5000, 31⟩) ∧
    decode 0x279F 0x7FE20000 = .ok (.jalNear ⟨31, 1023, 2⟩) ∧
    decode 0x27DF 0xFFFFFFE200000000 = .ok (.jalFar ⟨31, -1, 2⟩) ∧
    decode 0x285E 0x1D = .ok (.jr ⟨30, 29⟩) ∧
    decode 0x2989 0x80040000 = .ok (.loop ⟨9, -1024, 4⟩) ∧
    decode 0x2A00 0x0 = .ok (.nop) := by
  decide

/-- Words of the R136, R145, written from the tables. -/
theorem test_decode_float :
    decode 0x3083 0x20004081 = .ok (.fadd ⟨3, 1, 2, .rtz, .bf16⟩) ∧
    decode 0x3183 0x40008081 = .ok (.fsub ⟨3, 1, 2, .rdn, .h16⟩) ∧
    decode 0x3283 0x60000081 = .ok (.fmul ⟨3, 1, 2, .rup, .f32⟩) ∧
    decode 0x3383 0x60048081 = .ok (.fma ⟨3, 1, 2, 4, .rup, .h16⟩) ∧
    decode 0x3483 0x81 = .ok (.fdiv ⟨3, 1, 2, .rne, .f32⟩) ∧
    decode 0x3583 0x40004001 = .ok (.fsqrt ⟨3, 1, .rdn, .bf16⟩) ∧
    decode 0x3683 0x8081 = .ok (.fmin ⟨3, 1, 2, .h16⟩) ∧
    decode 0x3783 0x4081 = .ok (.fmax ⟨3, 1, 2, .bf16⟩) ∧
    decode 0x38B3 0x40004081 = .ok (.fcmp ⟨3, 1, 2, .le, .bf16⟩) ∧
    decode 0x3982 0xA0201 = .ok (.fcvt ⟨2, 1, 0x08, 0x0A, .rne, false⟩) ∧
    decode 0x3A83 0x8001 = .ok (.fclass ⟨3, 1, .h16⟩) ∧
    decode 0x3B83 0x6081 = .ok (.fsgn ⟨3, 1, 2, .xor, .bf16⟩) ∧
    decode 0xD083 0x20000081 = .ok (.dadd ⟨3, 1, 2, .rtz⟩) ∧
    decode 0xD183 0x40000081 = .ok (.dsub ⟨3, 1, 2, .rdn⟩) ∧
    decode 0xD283 0x60000081 = .ok (.dmul ⟨3, 1, 2, .rup⟩) ∧
    decode 0xD383 0x60040081 = .ok (.dfma ⟨3, 1, 2, 4, .rup⟩) ∧
    decode 0xD483 0x81 = .ok (.ddiv ⟨3, 1, 2, .rne⟩) ∧
    decode 0xD583 0x20000001 = .ok (.dsqrt ⟨3, 1, .rtz⟩) ∧
    decode 0xD683 0x502402C1 = .ok (.dcvt ⟨3, 1, 0x0B, 0x24, .rdn, true⟩) ∧
    decode 0xD7A3 0x826408A1 = .ok (.vdfma ⟨3, 1, 2, 4, 9, .sr⟩) := by
  decide

/-- Words of the R269 to R282, written from the tables. -/
theorem test_decode_memory :
    decode 0x4083 0xFFF89101 = .ok (.ldOff16 ⟨3, 4, -8, 2, true, 1⟩) ∧
    decode 0x40C3 0x111700000E100 = .ok (.ldOff32 ⟨3, 4, 70000, 3, false, 2⟩) ∧
    decode 0x4186 0x108C300 = .ok (.stOff16 ⟨6, 12, 0x108, 3, 0⟩) ∧
    decode 0x41C3 0xFFFEEE9000007100 = .ok (.stOff32 ⟨3, 4, -70000, 1, 3⟩) ∧
    decode 0x4283 0x40 = .ok (.ldpOff16 ⟨3, 1, 0, 0⟩) ∧
    decode 0x42C3 0x1000001100 = .ok (.ldpOff32 ⟨3, 4, 16, 1⟩) ∧
    decode 0x439E 0xFFF02100 = .ok (.stpOff16 ⟨30, 4, -16, 2⟩) ∧
    decode 0x43C3 0x1000003100 = .ok (.stpOff32 ⟨3, 4, 16, 3⟩) ∧
    decode 0x4440 0x4000 = .ok (.acq ⟨.quad, 0⟩) ∧
    decode 0x4540 0x9000 = .ok (.rel ⟨.tile, 1⟩) ∧
    decode 0x4640 0x3000 = .ok (.fence ⟨.core, 3⟩) ∧
    decode 0x4745 0x2000 = .ok (.pwait ⟨5, 2⟩) ∧
    decode 0x4845 0x1006 = .ok (.tlook ⟨5, 6, 1⟩) ∧
    decode 0x4945 0x21C6 = .ok (.tset ⟨5, 6, 7, 2⟩) ∧
    decode 0x4A45 0x31C0 = .ok (.tclr ⟨5, 7, 3⟩) ∧
    decode 0x4B45 0x11C0 = .ok (.mon ⟨5, 7, 1⟩) ∧
    decode 0x4C45 0x2006 = .ok (.mwait ⟨5, 6, 2⟩) ∧
    decode 0x4D45 0x31C0 = .ok (.sbr ⟨5, 7, 3⟩) ∧
    decode 0x4E40 0x11C6 = .ok (.sbw ⟨7, 6, 1⟩) ∧
    decode 0x5085 0xA00001C6 = .ok (.aadd ⟨5, 7, 6, true, false, true, false, 0⟩) ∧
    decode 0x5185 0x500011C6 = .ok (.amin ⟨5, 7, 6, false, true, false, true, 1⟩) ∧
    decode 0x5285 0x300021C6 = .ok (.amax ⟨5, 7, 6, true, true, false, false, 2⟩) ∧
    decode 0x5385 0xC00031C6 = .ok (.aand ⟨5, 7, 6, false, false, true, true, 3⟩) ∧
    decode 0x5485 0x600001C6 = .ok (.aor ⟨5, 7, 6, true, false, false, true, 0⟩) ∧
    decode 0x5585 0x900011C6 = .ok (.axor ⟨5, 7, 6, false, true, true, false, 1⟩) ∧
    decode 0x5685 0xF00021C6 = .ok (.aswp ⟨5, 7, 6, true, true, true, true, 2⟩) ∧
    decode 0x5785 0xA00811C6 = .ok (.acas ⟨5, 7, 6, 8, true, false, true, false, 1⟩) ∧
    decode 0x5885 0x500061C6 = .ok (.afadd ⟨5, 7, 6, .bf16, true, false, true, 2⟩) := by
  decide

/-- Words of the R156, R158, written from the tables. -/
theorem test_decode_vector :
    decode 0x60A1 0x2409100 = .ok (.vldNoOffset ⟨1, 4, 9, 2, 1⟩) ∧
    decode 0x60E1 0xFFFFFFC00240E100 = .ok (.vldOff32 ⟨1, 4, 9, 3, 2, -64⟩) ∧
    decode 0x61AF 0x3100 = .ok (.vstNoOffset ⟨15, 4, 0, 0, 3⟩) ∧
    decode 0x61E1 0x4002404100 = .ok (.vstOff32 ⟨1, 4, 9, 1, 0, 64⟩) ∧
    decode 0x62A1 0x62629100 = .ok (.vldxNoOffset ⟨1, 4, 2, 9, 3, 2, 1⟩) ∧
    decode 0x62E1 0x82262C100 = .ok (.vldxOff32 ⟨1, 4, 2, 9, 1, 3, 0, 8⟩) ∧
    decode 0x63A1 0x4262E100 = .ok (.vstxNoOffset ⟨1, 4, 2, 9, 2, 3, 2⟩) ∧
    decode 0x63E1 0xFFFFFFF802628100 = .ok (.vstxOff32 ⟨1, 4, 2, 9, 0, 2, 0, -8⟩) ∧
    decode 0x64A1 0x80140 = .ok (.vldfNoOffset ⟨1, 5, 0, 0, .f32, .rne, false, 0⟩) ∧
    decode 0x64E2 0x2000180140 = .ok (.vldfOff32 ⟨2, 5, 0, 1, .f32, .rne, false, 0, 32⟩) ∧
    decode 0x65A1 0x92421140 = .ok (.vstfNoOffset ⟨1, 5, 9, 0, .i16, .sr, true, 1⟩) ∧
    decode 0x65E8 0x4603A2140 = .ok (.vstfOff32 ⟨8, 5, 0, 3, .h16, .rup, false, 2, 4⟩) ∧
    decode 0x66A3 0x100008A1 = .ok (.vadd ⟨3, 1, 2, 0, .i8, .rne, true⟩) ∧
    decode 0x67A3 0x224088A1 = .ok (.vsub ⟨3, 1, 2, 9, .f32, .rtz, false⟩) ∧
    decode 0x68A3 0x924098A1 = .ok (.vmul ⟨3, 1, 2, 9, .bf16, .sr, true⟩) ∧
    decode 0x69A3 0x6264A8A1 = .ok (.vfma ⟨3, 1, 2, 4, 9, .h16, .rup, false⟩) ∧
    decode 0x6AA3 0x24018A1 = .ok (.vmin ⟨3, 1, 2, 9, .n8⟩) ∧
    decode 0x6BA3 0x24068A1 = .ok (.vmax ⟨3, 1, 2, 9, .i64⟩) ∧
    decode 0x6DA3 0x24038A1 = .ok (.vand ⟨3, 1, 2, 9, .n16⟩) ∧
    decode 0x6EA3 0x24058A1 = .ok (.vor ⟨3, 1, 2, 9, .n32⟩) ∧
    decode 0x6FA3 0x24078A1 = .ok (.vxor ⟨3, 1, 2, 9, .n64⟩) ∧
    decode 0x78A3 0x24048A1 = .ok (.vperm ⟨3, 1, 2, 9, .i32⟩) ∧
    decode 0x6CA3 0x12402021 = .ok (.vabs ⟨3, 1, 9, .i16, true⟩) ∧
    decode 0x70A3 0x124048A1 = .ok (.vshl ⟨3, 1, .v 2, 9, .i32, true⟩) ∧
    decode 0x70A3 0xA4040A1 = .ok (.vshl ⟨3, 1, .g 2, 9, .i32, false⟩) ∧
    decode 0x71A3 0xA4010A1 = .ok (.vshr ⟨3, 1, .g 2, 9, .n8⟩) ∧
    decode 0x7283 0x824088A1 = .ok (.vcmp ⟨3, 1, 2, 9, .f32, .un⟩) ∧
    decode 0x73A3 0x247A8A1 = .ok (.vsel ⟨3, 1, 2, 7, 9, .h16⟩) ∧
    decode 0x74A3 0x3A560021 = .ok (.vcvt ⟨3, 1, 9, .i8, .i64, 5, .rtz, true⟩) ∧
    decode 0x7582 0x8021 = .ok (.vred ⟨2, 1, 0, .f32, .add, .rne, false⟩) ∧
    decode 0x76A3 0xA453021 = .ok (.vscan ⟨3, 1, 9, .n16, .xor, .rne, false, true⟩) ∧
    decode 0x77A3 0x2404004 = .ok (.vbcast ⟨3, .g 4, 9, .i32⟩) ∧
    decode 0x77A3 0x24F4024 = .ok (.vbcast ⟨3, .v 4 15, 9, .i32⟩) ∧
    decode 0x79A3 0xA4748A1 = .ok (.vslide ⟨3, 1, 2, 7, 9, .i32, true⟩) ∧
    decode 0x7AA3 0x5246A021 = .ok (.vfn ⟨3, 1, 9, .h16, .tanh, .rdn, true⟩) ∧
    decode 0x7BA3 0x2407021 = .ok (.vmov ⟨3, 1, 9, .n64⟩) ∧
    decode 0x7C83 0x1F2021 = .ok (.vext ⟨3, 1, .imm 31, .i16⟩) ∧
    decode 0x7DA3 0x80021C1 = .ok (.vins ⟨3, 1, .g 7, .i16⟩) := by
  decide

/-- Words of the R191, R201 to R204, R289, R408, R412, written from the tables. -/
theorem test_decode_engines :
    decode 0x80F9 0x614401040103 = .ok (.mmq ⟨1, 4, 5, 6, ⟨3, 1, 4, 1⟩⟩) ∧
    decode 0x81FA 0x2C61440708090A = .ok (.mmqg ⟨2, 4, 5, 6, 11, ⟨10, 9, 8, 7⟩⟩) ∧
    decode 0x82FB 0x708090A = .ok (.mzero ⟨3, ⟨10, 9, 8, 7⟩⟩) ∧
    decode 0x83F8 0x1440708090A = .ok (.mld ⟨0, 4, 5, ⟨10, 9, 8, 7⟩⟩) ∧
    decode 0x84F9 0x1440708090A = .ok (.mst ⟨1, 4, 5, ⟨10, 9, 8, 7⟩⟩) ∧
    decode 0x85F9 0x2C01440708090A = .ok (.mqz ⟨1, 4, 5, .rup, true, ⟨10, 9, 8, 7⟩⟩) ∧
    decode 0x86F9 0x401440708090A = .ok (.mdq ⟨1, 4, 5, true, ⟨10, 9, 8, 7⟩⟩) ∧
    decode 0x8743 0x4 = .ok (.mgeoReg ⟨3, 4⟩) ∧
    decode 0x8783 0x15400000 = .ok (.mgeoImm ⟨3, 5, 20⟩) ∧
    decode 0x8880 0x20000 = .ok (.msub ⟨0, 2⟩) ∧
    decode 0x8900 0x0 = .ok (.mdrain) ∧
    decode 0x8A45 0x0 = .ok (.mstat 5) ∧
    decode 0x90C0 0x61440708090A = .ok (.cpq ⟨4, 5, 6, ⟨10, 9, 8, 7⟩⟩) ∧
    decode 0x91C3 0x61440708090A = .ok (.cpqt ⟨3, 4, 5, 6, ⟨10, 9, 8, 7⟩⟩) ∧
    decode 0x9280 0x1050000 = .ok (.semw ⟨5, .imm 1, false⟩) ∧
    decode 0x9383 0x72006 = .ok (.semt ⟨3, 7, .g 6, true⟩) ∧
    decode 0x9480 0x50244 = .ok (.semadd ⟨5, .g 4, 9⟩) ∧
    decode 0x9580 0xC8060000 = .ok (.semset ⟨6, .imm 200, 0⟩) ∧
    decode 0x9643 0x4 = .ok (.semget ⟨3, 4⟩) := by
  decide

/-- Words of the R308, R315, R318, R319, R416 and the words of their chapters, written from the tables. -/
theorem test_decode_channels :
    decode 0xA081 0x40000 = .ok (.chs ⟨1, 4, 0⟩) ∧
    decode 0xA188 0xFF7000 = .ok (.chr ⟨8, 255, 7⟩) ∧
    decode 0xA283 0x60144 = .ok (.alt ⟨3, 4, 5, 6⟩) ∧
    decode 0xA383 0x90144 = .ok (.chbs ⟨3, 9, 4, 5⟩) ∧
    decode 0xA483 0x90004 = .ok (.chbr ⟨3, 9, 4⟩) ∧
    decode 0xA583 0x90000 = .ok (.chq ⟨3, 9⟩) ∧
    decode 0xA680 0x144 = .ok (.spawn ⟨4, 5⟩) ∧
    decode 0xA783 0x144 = .ok (.spawnt ⟨3, 4, 5⟩) ∧
    decode 0xA800 0x0 = .ok (.pend) ∧
    decode 0xA900 0x0 = .ok (.yield) ∧
    decode 0xAA83 0x2459121 = .ok (.vsift ⟨3, 1, 4, 5, 9, .bf16⟩) ∧
    decode 0xAB47 0x6 = .ok (.swl ⟨7, 6⟩) ∧
    decode 0xAC47 0x0 = .ok (.swj ⟨7, 0⟩) ∧
    decode 0xAD00 0x0 = .ok (.split) ∧
    decode 0xAE00 0x0 = .ok (.rejoin) ∧
    decode 0xAF40 0x8000 = .ok (.bar ⟨0, .tile⟩) ∧
    decode 0xB044 0xC000 = .ok (.bara ⟨4, .colony⟩) ∧
    decode 0xB140 0x8005 = .ok (.barw ⟨5, .tile⟩) ∧
    decode 0xB248 0x0 = .ok (.whoami 8) := by
  decide

/-- Words of the R69, R216 to R222, R367, R395, R422, written from the tables. -/
theorem test_decode_system :
    decode 0xC080 0x420000 = .ok (.trap 0x42) ∧
    decode 0xC100 0x0 = .ok (.tret) ∧
    decode 0xC283 0x20000 = .ok (.crd ⟨3, 2⟩) ∧
    decode 0xC380 0x40004 = .ok (.cwr ⟨4, 4⟩) ∧
    decode 0xC480 0xBEEF0000 = .ok (.brk 0xBEEF) ∧
    decode 0xC505 0x0 = .ok (.rdtime 5) ∧
    decode 0xC680 0x2580000 = .ok (.wdog 600) ∧
    decode 0xC700 0x0 = .ok (.idle) ∧
    decode 0xC843 0x2144 = .ok (.tlbi ⟨3, 4, 5, 2, false⟩) ∧
    decode 0xC940 0x1C6 = .ok (.cload ⟨0, 6, 7⟩) ∧
    decode 0xCA80 0xE30000 = .ok (.cbind ⟨0, 3, 7⟩) ∧
    decode 0xCB40 0x6 = .ok (.cunbind 6) ∧
    decode 0xFF20 0x0 = .ok (.combTail0 ⟨31, 32⟩) ∧
    decode 0xE341 0x144 = .ok (.combTail1 ⟨3, 1, 4, 5⟩) ∧
    decode 0xE081 0xFFFE0144 = .ok (.combTail2 ⟨0, 1, 4, 5, -2⟩) ∧
    decode 0xE7F0 0x123456780000016F = .ok (.combTail3 ⟨7, 48, 47, 5, 0x12345678⟩) := by
  decide

/-! ### Ill-formed terms -/

/-- A field check refuses each of these (R112, R114, R120, R127, R136, R137, R142). -/
theorem test_wf_refuses_scalar :
    [Instr.shlImm16 ⟨1, 2, 64, false, false⟩, .shlImm32 ⟨1, 2, -1, false, false⟩, .shrImm16 ⟨1, 2, 32, true, false⟩,
     .shrImm32 ⟨1, 2, 64, false, true⟩, .sarImm16 ⟨1, 2, -1, true, true⟩, .sarImm32 ⟨1, 2, 32, true, false⟩,
     .rotImm16 ⟨1, 2, 64, false, false⟩, .rotImm32 ⟨1, 2, 70000, false, false⟩, .bfx ⟨1, 2, 1, 63, false⟩, .bfi ⟨1, 2, 63, 1⟩,
     .ext ⟨1, 2, 3, false⟩, .loop ⟨0, 0, 1⟩, .fadd ⟨1, 2, 3, .sr, .f32⟩, .fsub ⟨1, 2, 3, .rne, .f64⟩, .fmul ⟨1, 2, 3, .sr, .h16⟩,
     .fma ⟨1, 2, 3, 4, .rne, .f64⟩, .fdiv ⟨1, 2, 3, .sr, .bf16⟩, .fsqrt ⟨1, 2, .sr, .f32⟩, .fmin ⟨1, 2, 3, .f64⟩, .fmax ⟨1, 2, 3, .f64⟩,
     .fcmp ⟨1, 2, 3, .eq, .f64⟩, .fcvt ⟨1, 2, 0x01, 0x02, .rne, false⟩, .fcvt ⟨1, 2, 0x0B, 0x08, .rne, false⟩,
     .fcvt ⟨1, 2, 0x28, 0x08, .rne, false⟩, .fcvt ⟨1, 2, 0x08, 0x09, .sr, false⟩, .fclass ⟨1, 2, .f64⟩, .fsgn ⟨1, 2, 3, .neg, .f64⟩,
     .dadd ⟨1, 2, 3, .sr⟩, .dsub ⟨1, 2, 3, .sr⟩, .dmul ⟨1, 2, 3, .sr⟩, .dfma ⟨1, 2, 3, 4, .sr⟩, .ddiv ⟨1, 2, 3, .sr⟩, .dsqrt ⟨1, 2, .sr⟩,
     .dcvt ⟨1, 2, 0x08, 0x09, .rne, false⟩, .dcvt ⟨1, 2, 0x0B, 0x08, .sr, false⟩].all (fun i => !i.wf) = true := by decide

/-- A field check refuses each of these (R160 to R163, R157, R164 to R176, R269, R271, R282). -/
theorem test_wf_refuses_memory_and_lanes :
    [Instr.ldOff16 ⟨1, 2, 0, 3, true, 0⟩, .ldOff32 ⟨1, 2, 0, 3, true, 0⟩, .ldpOff16 ⟨31, 2, 0, 0⟩, .ldpOff32 ⟨31, 2, 0, 0⟩,
     .stpOff16 ⟨31, 2, 0, 0⟩, .stpOff32 ⟨31, 2, 0, 0⟩, .afadd ⟨1, 2, 3, .f64, false, false, false, 0⟩,
     .vldxNoOffset ⟨1, 2, 3, 0, 0, 1, 0⟩, .vldxOff32 ⟨1, 2, 3, 0, 0, 0, 0, 0⟩, .vstxNoOffset ⟨1, 2, 3, 0, 0, 1, 0⟩,
     .vstxOff32 ⟨1, 2, 3, 0, 0, 1, 0, 0⟩, .vldfNoOffset ⟨15, 2, 0, 1, .f32, .rne, false, 0⟩,
     .vldfOff32 ⟨13, 2, 0, 2, .f32, .rne, false, 0, 0⟩, .vstfNoOffset ⟨0, 2, 5, 1, .f32, .rne, false, 0⟩,
     .vstfOff32 ⟨9, 2, 0, 3, .f32, .rne, false, 0, 0⟩, .vadd ⟨1, 2, 3, 0, .i8, .rtz, false⟩, .vsub ⟨1, 2, 3, 0, .n64, .sr, false⟩,
     .vmul ⟨1, 2, 3, 0, .i32, .rup, false⟩, .vfma ⟨1, 2, 3, 4, 0, .n8, .rdn, false⟩, .vabs ⟨1, 2, 0, .f32, true⟩,
     .vshl ⟨1, 2, .v 3, 0, .f32, false⟩, .vshr ⟨1, 2, .g 3, 0, .bf16⟩, .vcmp ⟨1, 2, 3, 0, .i8, .un⟩,
     .vcvt ⟨1, 2, 0, .n64, .i8, 0, .rne, false⟩, .vcvt ⟨1, 2, 0, .f32, .n64, 0, .rne, false⟩, .vcvt ⟨1, 2, 0, .f32, .i8, 4, .rne, false⟩,
     .vcvt ⟨1, 2, 0, .f32, .f32, 1, .rne, false⟩, .vred ⟨1, 2, 0, .f32, .and, .rne, false⟩, .vred ⟨1, 2, 0, .i8, .max, .rne, true⟩,
     .vscan ⟨1, 2, 0, .f32, .min, .rtz, false, false⟩, .vscan ⟨1, 2, 0, .i8, .add, .rtz, false, false⟩, .vbcast ⟨1, .v 2 16, 0, .f32⟩,
     .vfn ⟨1, 2, 0, .i8, .exp2, .rne, false⟩, .vfn ⟨1, 2, 0, .f32, .exp2, .rtz, false⟩, .vext ⟨1, 2, .imm 16, .f32⟩,
     .vins ⟨1, 2, .imm 8, .i64⟩].all (fun i => !i.wf) = true := by decide

/-- A field check refuses each of these (R64, R209, R308, R397, R408). -/
theorem test_wf_refuses_engines_and_system :
    [Instr.mmq ⟨0, 1, 2, 3, ⟨1, 0, 0, 0⟩⟩, .mmqg ⟨0, 1, 2, 3, 4, ⟨0, 0, 1, 0⟩⟩, .mzero ⟨0, ⟨255, 0, 0, 0⟩⟩, .mld ⟨0, 1, 2, ⟨0, 0, 255, 0⟩⟩,
     .mst ⟨0, 1, 2, ⟨1, 0, 0, 0⟩⟩, .mqz ⟨0, 1, 2, .rne, false, ⟨1, 0, 0, 0⟩⟩, .mdq ⟨0, 1, 2, false, ⟨0, 0, 1, 0⟩⟩,
     .cpq ⟨1, 2, 3, ⟨1, 0, 0, 0⟩⟩, .cpqt ⟨1, 2, 3, 4, ⟨0, 0, 1, 0⟩⟩, .semw ⟨0, .g 0, false⟩, .semt ⟨1, 0, .g 0, false⟩,
     .semadd ⟨0, .g 0, 0⟩, .semset ⟨0, .g 0, 0⟩, .chs ⟨25, 0, 7⟩, .chr ⟨31, 0, 1⟩, .crd ⟨1, 0x006⟩, .crd ⟨1, 0x0A0⟩, .cwr ⟨0x030, 1⟩,
     .cwr ⟨0x077, 1⟩, .combTail0 ⟨0, 56⟩, .combTail1 ⟨0, 0, 63, 0⟩, .combTail2 ⟨0, 0, 0, 56, 0⟩, .combTail3 ⟨0, 57, 0, 0, 0⟩].all
      (fun i => !i.wf) = true := by decide

/-- The same fields at the last value that is accepted. -/
theorem test_wf_accepts :
    [Instr.shlImm16 ⟨1, 2, 63, false, false⟩, .rotImm32 ⟨1, 2, 31, true, false⟩, .bfx ⟨1, 2, 0, 63, false⟩, .bfi ⟨1, 2, 63, 0⟩,
     .ext ⟨1, 2, 2, false⟩, .ldOff16 ⟨1, 2, 0, 3, false, 0⟩, .stpOff32 ⟨30, 2, 0, 0⟩, .vldfNoOffset ⟨8, 2, 0, 3, .f32, .rne, false, 0⟩,
     .vcvt ⟨1, 2, 0, .f32, .i8, 3, .rne, false⟩, .vbcast ⟨1, .v 2 15, 0, .f32⟩, .chs ⟨24, 0, 7⟩, .crd ⟨1, 0x09F⟩, .cwr ⟨0x09F, 1⟩,
     .combTail0 ⟨31, 55⟩, .mmq ⟨3, 1, 2, 3, ⟨0, 0, 255, 255⟩⟩].all Instr.wf = true := by decide

/-! ### States of the tests -/

/-- The process that the tests look at: slot 0 of core 0 of the vtile (0, 0). -/
abbrev X : CtxId := probeCtx
@[inherit_doc X]
abbrev K : CoreId := probeCtx.coreId
@[inherit_doc X]
abbrev V : VtId := probeVt

/-- A user process of a running partition, before a `nop` at 0x0100_0002 whose line it holds. -/
def base : State :=
  (State.reset.withFetchWord 16 0x2A00).modCtx X (fun x => { x with line := some (0x01000000, lineOne 0x2A00 0) })

/-- A state with the record of the process changed. -/
def on (s : State) (f : Ctx → Ctx) : State := s.modCtx X f

/-- Its registers from g1 on. -/
def regs (s : State) (ws : List Word) : State := on s (fun x => x.wgs 1 ws)

/-- The process at privilege C. -/
def priv (s : State) : State := on s (fun x => { x with cstat := 0x400 })

/-- An entry of a translation cache: the heap page at 0x1_0000_0000 on the first page of granule 1, with every right. -/
def entry0 : TEntry := ⟨0x100000, 0, 0x10, true, true, true, false, true⟩

/-- The same for the gallery page at 0x8000_0000_0000, to read. -/
def entry1 : TEntry := ⟨0x800000000, 0, 0x11, true, false, true, true, false⟩

/-- A process with these translations; granule 1 is its partition's and has been written. -/
def heap : State :=
  { (base.modCore K (fun k => { k with tlb := [entry0, entry1] })) with
    granules := [(1, 0x10)]
    written := [1] }

/-! ### Examples of the manual: integers, addresses, predicates -/

/-- A g register of the process after a step. -/
def g? (r : Step) (n : Nat) : Option Nat := match r with
  | .next t => some ((t.ctx X).rg n).toNat
  | _ => none

/-- A predicate of the process after a step. -/
def p? (r : Step) (n : Nat) : Option Bool := match r with
  | .next t => some ((t.ctx X).rp n)
  | _ => none

/-- The table of R112. -/
theorem test_integer_table :
    g? (exec (.divReg ⟨3, 1, 2, false, false⟩) (regs base [-7, 2])) 3 = some 0xFFFFFFFFFFFFFFFD ∧
    g? (exec (.remReg ⟨3, 1, 2, false, false⟩) (regs base [-7, 2])) 3 = some 0xFFFFFFFFFFFFFFFF ∧
    g? (exec (.divReg ⟨3, 1, 2, false, false⟩) (regs base [5, 0])) 3 = some 0xFFFFFFFFFFFFFFFF ∧
    g? (exec (.remReg ⟨3, 1, 2, false, false⟩) (regs base [5, 0])) 3 = some 5 ∧
    g? (exec (.divReg ⟨3, 1, 2, false, false⟩) (regs base [0x8000000000000000, -1])) 3 = some 0x8000000000000000 ∧
    g? (exec (.addImm16 ⟨3, 1, 1, true, false⟩) (regs base [0x7FFFFFFF])) 3 = some 0xFFFFFFFF80000000 ∧
    g? (exec (.addImm16 ⟨3, 1, 1, true, true⟩) (regs base [0x7FFFFFFF])) 3 = some 0x80000000 ∧
    g? (exec (.mulhReg ⟨3, 1, 2, false, false⟩) (regs base [-1, 2])) 3 = some 0xFFFFFFFFFFFFFFFF ∧
    g? (exec (.mulhReg ⟨3, 1, 2, false, true⟩) (regs base [-1, 2])) 3 = some 1 ∧
    g? (exec (.shrImm16 ⟨3, 1, 4, true, false⟩) (regs base [0xFFFFFFFF80000000])) 3 = some 0x08000000 ∧
    g? (exec (.sarImm16 ⟨3, 1, 4, true, false⟩) (regs base [0xFFFFFFFF80000000])) 3 = some 0xFFFFFFFFF8000000 ∧
    g? (exec (.rotImm16 ⟨3, 1, 1, false, false⟩) (regs base [1])) 3 = some 0x8000000000000000 ∧
    g? (exec (.maxReg ⟨3, 1, 2, false, false⟩) (regs base [-1, 1])) 3 = some 1 ∧
    g? (exec (.maxReg ⟨3, 1, 2, false, true⟩) (regs base [-1, 1])) 3 = some 0xFFFFFFFFFFFFFFFF := by decide

/-- R111, by hand: a source that is the destination, shift counts past the width, the sign of a remainder. -/
theorem test_integer_corners :
    g? (exec (.subReg ⟨1, 1, 1, false, false⟩) (regs base [7])) 1 = some 0 ∧
    g? (exec (.andnReg ⟨1, 2, 1, false, false⟩) (regs base [0x0F, 0xFF])) 1 = some 0xF0 ∧
    g? (exec (.shlReg ⟨3, 1, 2, false, false⟩) (regs base [1, 65])) 3 = some 2 ∧
    g? (exec (.shlReg ⟨3, 1, 2, true, false⟩) (regs base [1, 63])) 3 = some 0xFFFFFFFF80000000 ∧
    g? (exec (.minImm32 ⟨3, 1, -70000, false, false⟩) (regs base [3])) 3 = some 0xFFFFFFFFFFFEEE90 ∧
    g? (exec (.mulImm32 ⟨3, 1, -1, true, true⟩) (regs base [2])) 3 = some 0xFFFFFFFE ∧
    g? (exec (.addReg ⟨0, 1, 2, false, false⟩) (regs base [3, 4])) 0 = some 0 ∧
    g? (exec (.orImm16 ⟨3, 1, -1, false, false⟩) (regs base [3])) 3 = some 0xFFFFFFFFFFFFFFFF ∧
    g? (exec (.xorImm16 ⟨3, 1, 0xF, false, false⟩) (regs base [3])) 3 = some 0xC ∧
    g? (exec (.andReg ⟨3, 1, 2, true, true⟩) (regs base [-1, -1])) 3 = some 0xFFFFFFFF := by decide

/-- R113, R114: counts, and the two fields of the manual. -/
theorem test_bits :
    g? (exec (.clz ⟨3, 1, false, false⟩) (regs base [1])) 3 = some 63 ∧
    g? (exec (.clz ⟨3, 1, true, false⟩) (regs base [0x100000000])) 3 = some 32 ∧
    g? (exec (.ctz ⟨3, 1, false, false⟩) (regs base [0])) 3 = some 64 ∧
    g? (exec (.ctz ⟨3, 1, true, false⟩) (regs base [8])) 3 = some 3 ∧
    g? (exec (.popc ⟨3, 1, false, false⟩) (regs base [-1])) 3 = some 64 ∧
    g? (exec (.bfx ⟨3, 1, 8, 11, false⟩) (regs base [0xABCDEF])) 3 = some 0xFFFFFFFFFFFFFBCD ∧
    g? (exec (.bfx ⟨3, 1, 8, 11, true⟩) (regs base [0xABCDEF])) 3 = some 0xBCD ∧
    g? (exec (.bfi ⟨2, 1, 56, 7⟩) (regs base [0x1FF, 5])) 2 = some 0xFF00000000000005 := by decide

/-- R115 to R120: selects, moves, the constant of R117, `lea` at the top of 48 bits, the tag of R119, extensions. -/
theorem test_moves :
    g? (exec (.sel ⟨3, 1, 2, 0⟩) (regs base [5, 6])) 3 = some 5 ∧
    g? (exec (.sel ⟨3, 1, 2, 1⟩) (regs base [5, 6])) 3 = some 6 ∧
    p? (exec (.mov ⟨.p 2, .g 1⟩) (regs base [0x100])) 2 = some true ∧
    g? (exec (.mov ⟨.g 2, .p 0⟩) (regs base [0])) 2 = some 1 ∧
    g? (exec (.liImm16 ⟨1, 0x1000, false⟩) base) 1 = some 0x1000 ∧
    g? (exec (.liImm32 ⟨1, 0x41800000, true⟩) (regs base [0x1000])) 1 = some 0x4180000000001000 ∧
    g? (exec (.leaOff16 ⟨2, 1, 1⟩) (regs base [0x1234FFFFFFFFFFFF])) 2 = some 0x1234000000000000 ∧
    g? (exec (.leaOff32 ⟨2, 1, -1⟩) (regs base [0x1234000000000000])) 2 = some 0x1234FFFFFFFFFFFF ∧
    g? (exec (.ptag ⟨2, 1, 0x10, 3⟩) (regs base [0x1000])) 2 = some 0x4180000000001000 ∧
    g? (exec (.pget ⟨2, 1⟩) (regs base [0x4180000000001000])) 2 = some 0x83 ∧
    g? (exec (.ext ⟨2, 1, 0, false⟩) (regs base [0x180])) 2 = some 0xFFFFFFFFFFFFFF80 ∧
    g? (exec (.ext ⟨2, 1, 2, true⟩) (regs base [-1])) 2 = some 0xFFFFFFFF := by decide

/-- R121, R122: signed and unsigned order, tests, and predicates with p0. -/
theorem test_compares :
    p? (exec (.cmpReg ⟨1, 1, 2, .lt, false⟩) (regs base [-1, 1])) 1 = some true ∧
    p? (exec (.cmpReg ⟨1, 1, 2, .ltn, false⟩) (regs base [-1, 1])) 1 = some false ∧
    p? (exec (.cmpImm16 ⟨1, 1, 100, .lt, false⟩) (regs base [99])) 1 = some true ∧
    p? (exec (.cmpImm32 ⟨1, 1, 0, .eq, true⟩) (regs base [0x100000000])) 1 = some true ∧
    p? (exec (.cmpReg ⟨0, 1, 2, .ne, false⟩) (regs base [1, 1])) 0 = some true ∧
    p? (exec (.pand ⟨1, 0, 2⟩) base) 1 = some false ∧
    p? (exec (.por ⟨1, 0, 2⟩) base) 1 = some true ∧
    p? (exec (.pxor ⟨1, 0, 0⟩) base) 1 = some false ∧
    p? (exec (.pnot ⟨1, 2⟩) base) 1 = some true := by decide

/-! ### Witnesses: integers and control transfer -/

/-- The operands of the statements about checked fields. -/
theorem wit_IntegerArithmetic :
    [Instr.addImm16 ⟨1, 2, -1, false, false⟩, .addImm32 ⟨1, 2, -1, true, true⟩, .subImm16 ⟨1, 2, 1, false, false⟩,
     .subImm32 ⟨1, 2, 1, false, false⟩, .mulImm16 ⟨1, 2, 1, false, false⟩, .mulImm32 ⟨1, 2, 1, false, false⟩,
     .andImm16 ⟨1, 2, 1, false, false⟩, .andImm32 ⟨1, 2, 1, false, false⟩, .orImm16 ⟨1, 2, 1, false, false⟩,
     .orImm32 ⟨1, 2, 1, false, false⟩, .xorImm16 ⟨1, 2, 1, false, false⟩, .xorImm32 ⟨1, 2, 1, false, false⟩,
     .andnImm16 ⟨1, 2, 1, false, false⟩, .andnImm32 ⟨1, 2, 1, false, false⟩, .shlImm16 ⟨1, 2, 63, false, false⟩,
     .shlImm32 ⟨1, 2, 31, true, false⟩, .shrImm16 ⟨1, 2, 31, true, false⟩, .shrImm32 ⟨1, 2, 63, false, false⟩,
     .sarImm16 ⟨1, 2, 63, false, false⟩, .sarImm32 ⟨1, 2, 0, false, false⟩, .rotImm16 ⟨1, 2, 63, false, false⟩,
     .rotImm32 ⟨1, 2, 0, false, false⟩, .mulhImm16 ⟨1, 2, 1, false, false⟩, .mulhImm32 ⟨1, 2, 1, false, false⟩,
     .divImm16 ⟨1, 2, 0, false, false⟩, .divImm32 ⟨1, 2, 0, false, false⟩, .remImm16 ⟨1, 2, 0, false, false⟩,
     .remImm32 ⟨1, 2, 0, false, false⟩, .minImm16 ⟨1, 2, 1, false, false⟩, .minImm32 ⟨1, 2, 1, false, false⟩,
     .maxImm16 ⟨1, 2, 1, false, false⟩, .maxImm32 ⟨1, 2, 1, false, false⟩].all Instr.wf = true := by decide

/-- Fields that end at bit 63, and the widest extension. -/
theorem wit_BitOperations :
    [Instr.bfx ⟨1, 2, 63, 0, false⟩, .bfx ⟨1, 2, 0, 63, true⟩, .bfi ⟨1, 2, 1, 62⟩, .ext ⟨1, 2, 2, false⟩].all Instr.wf = true := by decide

/-- The process at an address, with nothing held, and a line of two heads (`nop`, `nop`) at the last line of its store. -/
def atTop : State :=
  let m := wrBytes (wrBytes base.mem (sramKey V 0x12FFFC0) (lineOne 0x2A00 0).toNat 64) (sramKey V 0x1000040) 0xFFFF 64
  { base with mem := m }

/-- `br` that goes nowhere, `loop` that ends and goes on, a jump within the line, to an address outside the stores, to an
empty slot, to the last line and past it. -/
theorem wit_ControlTransfers :
    [Instr.brNear ⟨0, true, 0, 1⟩, .brFar ⟨0, false, 0, 1⟩, .loop ⟨1, 0, 1⟩, .jmpNear ⟨0, 1⟩, .jmpFar ⟨-1, 1⟩, .jr ⟨1, 2⟩,
     .jalNear ⟨1, 0, 2⟩, .jalFar ⟨1, 0, 1⟩].all Instr.wf = true ∧
    (transferOf base (.brNear ⟨0, true, 0, 1⟩)).map (·.1) = some false ∧
    (transferOf (regs base [1]) (.loop ⟨1, 0, 1⟩)).map (·.1) = some false ∧
    (transferOf (regs base [2]) (.loop ⟨1, 0, 1⟩)).map (·.1) = some true ∧
    (transferOf base (.jmpNear ⟨0, 1⟩)).map (fun p => (p.1, p.2.1)) = some (true, 0x01000002) ∧
    base.checkTarget X 0x01000002 = .ok (0x01000000, lineOne 0x2A00 0) ∧
    base.checkTarget X 0x01000004 = .error (.cause .targetEmpty 0x01000004) ∧
    base.checkTarget X 0x00FFFFC2 = .error (.cause .addressForm 0x00FFFFC2) ∧
    atTop.checkTarget X 0x012FFFC2 = .ok (0x012FFFC0, lineOne 0x2A00 0) ∧
    atTop.checkTarget X 0x01300002 = .error (.cause .addressForm 0x01300002) := by decide

/-- The checks of a target in their order: outside the stores, poison, a line that is not well formed, an empty slot. -/
theorem wit_TargetChecks :
    (atTop.ctx X).line = some (0x01000000, lineOne 0x2A00 0) ∧ atTop.quadAwake V 0x012FFFC0 = true ∧
    atTop.sramPois V 0x1000040 = false ∧ lineOk (BitVec.ofNat 512 (atTop.sramBytes V 0x1000040 64)) = false ∧
    lineOk (BitVec.ofNat 512 (atTop.sramBytes V 0x12FFFC0 64)) = true ∧
    headCount (BitVec.ofNat 512 (atTop.sramBytes V 0x12FFFC0 64)) = 1 ∧
    ({ atTop with pois := [sramKey V 0x1000040 / 8] } : State).sramPois V 0x1000040 = true := by decide

/-- The same context without its line: at the first line of its store, awake, unpoisoned and well formed. -/
def unheld : State := on base (fun x => { x with line := none })
theorem wit_FetchReadsTheStore :
    (unheld.ctx X).line = none ∧ unheld.quadAwake V 0x01000000 = true ∧ (unheld.ctx X).pc = 0x01000002 ∧
    (∀ k, k < 8 → unheld.sramPois V (0x01000000 + 8 * k) = false) ∧
    lineOk (BitVec.ofNat 512 (unheld.sramBytes V 0x01000000 64)) = true ∧
    headCount (BitVec.ofNat 512 (unheld.sramBytes V 0x01000000 64)) = 1 := by decide

/-- A step at `nop`, at a head without an opcode, at a form that is reserved, and at an unbound comb opcode. -/
def before (h : Nat) (tail : Nat) : State := on base (fun x => { x with line := some (0x01000000, lineOne h tail) })
theorem wit_StepRunsDecoded :
    base.agenda = [.issue X] ∧ ({ base with agenda := [] } : State).mayIssue X = true ∧
    ((({ base with agenda := [] } : State).started X).ctx X).pend = [] ∧
    ((({ base with agenda := [] } : State).started X).ctx X).live = none ∧
    (({ base with agenda := [] } : State).started X).fetch X = .ok (0x01000000, lineOne 0x2A00 0) ∧
    ((({ base with agenda := [] } : State).started X).holdLine X (0x01000000, lineOne 0x2A00 0)).decodeAt X (lineOne 0x2A00 0)
      = .ok .nop := by decide
theorem wit_DecodingFaults :
    (({ before 0x7F00 0 with agenda := [] } : State).started X).fetch X = .ok (0x01000000, lineOne 0x7F00 0) ∧
    decode 0x7F00 0 = .undefined ∧
    (({ before 0x2A01 0 with agenda := [] } : State).started X).fetch X = .ok (0x01000000, lineOne 0x2A01 0) ∧
    decode 0x2A01 0 = .reserved ∧
    (({ before 0xE000 0 with agenda := [] } : State).started X).fetch X = .ok (0x01000000, lineOne 0xE000 0) ∧
    (((before 0xE000 0).ctx X).bind 0).valid = false := by decide

/-! ### Examples of the manual: floating point and lanes -/

/-- The status flags of the process after a step: NX, UF, OF, DZ, NV are the low five bits of `cstat`. -/
def flags? (r : Step) : Option Nat := match r with
  | .next t => some ((t.ctx X).cstat.toNat % 32)
  | _ => none

/-- The low n bytes of a v register of the process after a step. -/
def v? (r : Step) (d n : Nat) : Option Nat := match r with
  | .next t => some (((t.ctx X).rv d).toNat % 256 ^ n)
  | _ => none

/-- A process with two v registers. -/
def vregs (s : State) (v1 v2 : Vec) : State := on s (fun x => (x.wv 1 v1).wv 2 v2)

/-- R142: π to h16, 300.0 to i8 with and without saturation; R49: 300.0 to b8p4. -/
theorem test_fcvt :
    g? (exec (.fcvt ⟨2, 1, 0x08, 0x0A, .rne, false⟩) (regs base [0x40490FDB])) 2 = some 0x4248 ∧
    g? (exec (.fcvt ⟨2, 1, 0x08, 0x01, .rne, false⟩) (regs base [0x43960000])) 2 = some 0xFFFFFFFFFFFFFF80 ∧
    g? (exec (.fcvt ⟨2, 1, 0x08, 0x01, .rne, true⟩) (regs base [0x43960000])) 2 = some 0x7F ∧
    g? (exec (.fcvt ⟨2, 1, 0x08, 0x24, .rne, false⟩) (regs base [0x43960000])) 2 = some 0x80 ∧
    g? (exec (.fcvt ⟨2, 1, 0x08, 0x24, .rne, true⟩) (regs base [0x43960000])) 2 = some 0x7F ∧
    g? (exec (.fcvt ⟨2, 1, 0x08, 0x24, .rtz, false⟩) (regs base [0x43960000])) 2 = some 0x7F ∧
    g? (exec (.fcvt ⟨2, 1, 0x08, 0x02, .rdn, false⟩) (regs base [0xBE99999A])) 2 ≠ some 0 ∧
    g? (exec (.fcvt ⟨2, 1, 0x08, 0x02, .rne, false⟩) (regs base [0xBE99999A])) 2 = some 0 := by decide

/-- R134, R137 to R141: sums, a quotient by zero, signed zeros, an unordered compare, classes, signs. -/
theorem test_float :
    g? (exec (.fadd ⟨3, 1, 2, .rne, .f32⟩) (regs base [0x3F800000, 0x40000000])) 3 = some 0x40400000 ∧
    g? (exec (.fsub ⟨3, 1, 1, .rdn, .f32⟩) (regs base [0x3F800000])) 3 = some 0x80000000 ∧
    g? (exec (.fmul ⟨3, 1, 2, .rne, .bf16⟩) (regs base [0x4040, 0xC000])) 3 = some 0xC0C0 ∧
    g? (exec (.fma ⟨4, 1, 2, 3, .rne, .h16⟩) (regs base [0x3C00, 0x4000, 0x3C00])) 4 = some 0x4200 ∧
    g? (exec (.fdiv ⟨3, 1, 2, .rne, .f32⟩) (regs base [0x3F800000, 0])) 3 = some 0x7F800000 ∧
    g? (exec (.fsqrt ⟨3, 1, .rne, .f32⟩) (regs base [0x40800000])) 3 = some 0x40000000 ∧
    g? (exec (.fmin ⟨3, 1, 2, .f32⟩) (regs base [0, 0x80000000])) 3 = some 0x80000000 ∧
    g? (exec (.fmax ⟨3, 1, 2, .f32⟩) (regs base [0x7FC00000, 0x3F800000])) 3 = some 0x3F800000 ∧
    p? (exec (.fcmp ⟨1, 1, 2, .lt, .f32⟩) (regs base [0x3F800000, 0x40000000])) 1 = some true ∧
    p? (exec (.fcmp ⟨1, 1, 2, .un, .f32⟩) (regs base [0x7FC00000, 0])) 1 = some true ∧
    g? (exec (.fclass ⟨3, 1, .f32⟩) (regs base [0x80000000])) 3 = some 8 ∧
    g? (exec (.fsgn ⟨3, 1, 1, .neg, .f32⟩) (regs base [0x3F800000])) 3 = some 0xBF800000 := by decide

/-- The flags of R134 and R211: inexact, division by zero, invalid. -/
theorem test_flags :
    flags? (exec (.fcvt ⟨2, 1, 0x08, 0x0A, .rne, false⟩) (regs base [0x40490FDB])) ≠ flags? (.next base) ∧
    flags? (exec (.fadd ⟨3, 1, 2, .rne, .f32⟩) (regs base [0x3F800000, 0x40000000])) = flags? (.next base) ∧
    flags? (exec (.fcmp ⟨1, 1, 2, .eq, .f32⟩) (regs base [0x7FC00000, 0])) = some 0 ∧
    flags? (exec (.fcmp ⟨1, 1, 2, .lt, .f32⟩) (regs base [0x7FC00000, 0])) = some 0x10 := by decide

/-- R147: binary64 on a core that the partition's tile has wide. -/
def wideBase : State := (base.modTile 0 (fun t => { t with wide := [true, false] })).modVt V (fun v => { v with lpct := [11] })

/-- R164: the two sums of the manual; a lane that is not enabled keeps its value (R155). -/
theorem test_vadd :
    v? (exec (.vadd ⟨3, 1, 2, 0, .i8, .rne, true⟩) (vregs base 0x9C64 0x9C64)) 3 2 = some 0x807F ∧
    v? (exec (.vadd ⟨3, 1, 2, 0, .i8, .rne, false⟩) (vregs base 0x9C64 0x9C64)) 3 2 = some 0x38C8 ∧
    v? (exec (.vadd ⟨2, 1, 1, 4, .i8, .rne, false⟩) (regs (vregs base 0x0101 0x5555) [0, 0, 0, 1])) 2 2 = some 0x5502 ∧
    v? (exec (.vsub ⟨3, 1, 2, 0, .n8, .rne, true⟩) (vregs base 0x0102 0x0201)) 3 2 = some 0x0001 ∧
    v? (exec (.vmul ⟨3, 1, 2, 0, .i16, .rne, false⟩) (vregs base 0x0100 0x0100)) 3 2 = some 0 ∧
    v? (exec (.vfma ⟨3, 1, 2, 1, 0, .f32, .rne, false⟩) (vregs base 0x3F800000 0x40000000)) 3 4 = some 0x40400000 ∧
    v? (exec (.vabs ⟨3, 1, 0, .i8, false⟩) (vregs base 0x80 0)) 3 1 = some 0x80 ∧
    v? (exec (.vabs ⟨3, 1, 0, .i8, true⟩) (vregs base 0x80 0)) 3 1 = some 0x7F ∧
    v? (exec (.vmin ⟨3, 1, 2, 0, .i8⟩) (vregs base 0xFF01 0x0180)) 3 2 = some 0xFF80 ∧
    v? (exec (.vmax ⟨3, 1, 2, 0, .n8⟩) (vregs base 0xFF01 0x0180)) 3 2 = some 0xFF80 := by decide

/-- R165, R166, R168, R173 to R176, by hand. -/
theorem test_lane_moves :
    v? (exec (.vand ⟨3, 1, 2, 0, .i8⟩) (vregs base 0x0FF0 0x3333)) 3 2 = some 0x0330 ∧
    v? (exec (.vor ⟨3, 1, 2, 0, .i8⟩) (vregs base 0x0FF0 0x3333)) 3 2 = some 0x3FF3 ∧
    v? (exec (.vxor ⟨3, 1, 2, 0, .i8⟩) (vregs base 0x0FF0 0x3333)) 3 2 = some 0x3CC3 ∧
    v? (exec (.vshl ⟨3, 1, .g 1, 0, .i8, true⟩) (regs (vregs base 0xC040 0) [9])) 3 2 = some 0x807F ∧
    v? (exec (.vshr ⟨3, 1, .v 2, 0, .i8⟩) (vregs base 0x8080 0x0107)) 3 2 = some 0xC0FF ∧
    v? (exec (.vsel ⟨3, 1, 2, 1, 0, .i8⟩) (regs (vregs base 0x1111 0x2222) [2])) 3 2 = some 0x1122 ∧
    v? (exec (.vbcast ⟨3, .v 1 1, 0, .i8⟩) (vregs base 0x1234 0)) 3 4 = some 0x12121212 ∧
    v? (exec (.vbcast ⟨3, .g 1, 0, .n16⟩) (regs base [0x12345])) 3 4 = some 0x23452345 ∧
    v? (exec (.vperm ⟨3, 1, 2, 0, .i8⟩) (vregs base 0x030201 0x400002)) 3 3 = some 0x000103 ∧
    v? (exec (.vslide ⟨3, 1, 2, 6, 0, .i32, true⟩) (regs (vregs base 0x22 (0xAA <<< 480)) [0, 0, 0, 0, 0, 1])) 3 8
      = some 0x22000000AA ∧
    v? (exec (.vslide ⟨3, 1, 2, 6, 0, .i32, false⟩) (regs (vregs base (0x22 <<< 480) 0xAA) [0, 0, 0, 0, 0, 15])) 3 8
      = some 0xAA00000022 ∧
    g? (exec (.vext ⟨1, 1, .imm 63, .i8⟩) (vregs base (0x80 <<< 504) 0)) 1 = some 0xFFFFFFFFFFFFFF80 ∧
    g? (exec (.vext ⟨1, 1, .g 2, .n8⟩) (regs (vregs base (0x80 <<< 504) 0) [0, 127])) 1 = some 0x80 ∧
    v? (exec (.vins ⟨1, 2, .imm 1, .i16⟩) (regs (vregs base 0x11112222 0) [0, 0xABCDE])) 1 4 = some 0xBCDE2222 ∧
    v? (exec (.vmov ⟨2, 1, 0, .i8⟩) (vregs base 0x1234 0)) 2 2 = some 0x1234 := by decide

/-- R167, R169, R171, R172: compares, parts of conversions, sums and running sums; the sum 8.5 of R172. -/
theorem test_reductions :
    g? (exec (.vcmp ⟨3, 1, 2, 0, .i8, .lt⟩) (vregs base 0xFF01 0x0001)) 3 = some 2 ∧
    g? (exec (.vred ⟨3, 1, 0, .i8, .add, .rne, false⟩) (vregs base 0x7F7F 0)) 3 = some 0xFFFFFFFFFFFFFFFE ∧
    g? (exec (.vred ⟨3, 1, 0, .i8, .add, .rne, true⟩) (vregs base 0x7F7F 0)) 3 = some 0x7F ∧
    g? (exec (.vred ⟨2, 1, 0, .f32, .add, .rne, false⟩) (vregs base 0x40C0000000000000BF00000040400000 0)) 2 = some 0x41080000 ∧
    v? (exec (.vscan ⟨3, 1, 0, .n8, .add, .rne, false, false⟩) (vregs base 0x030201 0)) 3 3 = some 0x060301 ∧
    v? (exec (.vscan ⟨3, 1, 0, .n8, .add, .rne, false, true⟩) (vregs base 0x030201 0)) 3 3 = some 0x030100 ∧
    v? (exec (.vcvt ⟨3, 1, 0, .i8, .i64, 5, .rne, false⟩) (vregs base (0x80 <<< 320) 0)) 3 8 = some 0xFFFFFFFFFFFFFF80 ∧
    v? (exec (.vcvt ⟨3, 1, 0, .f32, .bf16, 0, .rne, false⟩) (vregs base 0x3F800000 0)) 3 2 = some 0x3F80 ∧
    v? (exec (.vcvt ⟨3, 1, 0, .i32, .n8, 0, .rne, false⟩) (vregs base 0xFFFFFFFF 0)) 3 1 = some 0xFF ∧
    v? (exec (.vcvt ⟨3, 1, 0, .i32, .n8, 0, .rne, true⟩) (vregs base 0x0000012CFFFFFFFF 0)) 3 2 = some 0xFF00 := by decide

/-- R177: what the special inputs give in a bf16 and an f32 lane. -/
theorem test_vfn :
    v? (exec (.vfn ⟨3, 1, 0, .bf16, .rcp, .rne, false⟩) (vregs base 0x80007F80 0)) 3 4 = some 0xFF800000 ∧
    v? (exec (.vfn ⟨3, 1, 0, .bf16, .rcp, .rne, true⟩) (vregs base 0x8000 0)) 3 2 = some 0xFF7F ∧
    v? (exec (.vfn ⟨3, 1, 0, .f32, .sigm, .rne, false⟩) (vregs base 0x80000000 0)) 3 4 = some 0x3F000000 ∧
    v? (exec (.vfn ⟨3, 1, 0, .f32, .log2, .rne, false⟩) (vregs base 0x3F800000 0)) 3 4 = some 0 := by decide

/-! ### Witnesses: floating point and lanes -/

/-- A sign and a conversion that are well formed, with the widest and the narrowest formats. -/
theorem wit_ScalarFloat :
    (Instr.fsgn ⟨1, 2, 3, .cp, .h16⟩).wf = true ∧ (Instr.fcvt ⟨1, 2, 0x07, 0x3F, .rne, true⟩).wf = true ∧
    (NFmt.ofCode 0x07).isSome = true ∧ (NFmt.ofCode 0x3F).isSome = true := by decide

/-- 3 cut to units of 2: a tie. -/
theorem wit_RoundingModes : (⟨true, 3, 0, false⟩ : Ex).more = false ∧ (⟨true, 3, 0, false⟩ : Ex).e < 1 := by decide

/-- A working wide core, a conversion between the widest formats, and a vtile without one. -/
theorem wit_WideScalars :
    wideBase.wideCore V 0 = true ∧ wideBase.cur.vt = V ∧ wideBase.cur.core = 0 ∧
    (Instr.dcvt ⟨1, 2, 0x0B, 0x0B, .rne, false⟩).wf = true ∧ (NFmt.ofCode 0x0B).isSome = true ∧
    (base.modTile 0 (fun t => { t with wide := [] })).wideCore V 0 = false ∧ (base.modTile 0 (fun t => { t with wide := [] })).wideCount V = 0 := by decide

/-- A lane inserted at the last index; slides both ways; sums. -/
theorem wit_LaneMovesAndReductions :
    (Instr.vins ⟨1, 2, .imm 63, .i8⟩).wf = true ∧ (⟨1, 2, 3, 4, 0, .i8, false⟩ : VSlide).up = false ∧
    (⟨1, 2, 3, 4, 0, .i8, true⟩ : VSlide).up = true ∧ (⟨1, 2, 0, .n64, .add, .rne, true⟩ : VRed).op = .add ∧
    VTy.n64.isF = false := by decide

/-! ### Memory: states, examples, witnesses -/

/-- The heap's first word holds 0x1122334455667788, quad word 0x100 holds 0xF1F2F3F4F5F6F7F8; granule 1 has been written. -/
def H : State := { heap with
  mem := wrBytes (wrBytes heap.mem 0x10000 0x1122334455667788 8) (sramKey V 0x100) 0xF1F2F3F4F5F6F7F8 8 }
/-- H with a g1 of a and a g2 of b. -/
def Hr (a b : Nat) : State := regs H [BitVec.ofNat 64 a, BitVec.ofNat 64 b, 0x55]
/-- The core's data cache holds these lines. -/
def cached (s : State) (ls : List Line) : State := s.modCore K (fun k => { k with cache := ls })
/-- A line whose valid, dirty and poisoned words are given, with bytes 0x11. -/
def lineAt (l : Nat) (va di po : BitVec 8) : Line := ⟨l, va, di, false, 0x1111111111111111, po⟩
/-- The first n outstanding write-throughs of the core. -/
def through (s : State) (n : Nat) : State := s.modCore K (fun k => { k with through := (List.range n).map (fun i => ⟨5000 + i, 1, 0⟩) })
/-- The data line that the fill of line 0x400 brought. -/
def filled (s : State) : State := on s (fun x => { x with prog := { x.prog with fills := [⟨0x400, 0x1122334455667788, 0, 0⟩] } })
/-- A context's store that has not reached its bank. -/
def posted (s : State) (a : Nat) : State := on s (fun x => { x with posted := [⟨.quad 3, a, [1]⟩] })
/-- A poisoned word of the home quad and its line at home. -/
def poisoned (s : State) : State := { s with pois := [sramKey V 0x100 / 8], poisLine := [0x400] }
/-- A field of the acting process after a step. -/
def x? {A : Type} (r : Step) (f : Ctx → A) : Option A := match r with
  | .next t => some (f (t.ctx X))
  | _ => none
/-- The n bytes at a memory key after a step. -/
def mem? (r : Step) (k n : Nat) : Option Nat := match r with
  | .next t => some (rdBytes t.mem k n)
  | _ => none

/-- R270: sign extension, the quad window, a posted store, a store at home waits for its line, misalignment (R89 code). -/
theorem test_loads_and_stores :
    g? (exec (.ldOff16 ⟨3, 1, 0, 0, false, 0⟩) (Hr 0x100 0)) 3 = some 0xFFFFFFFFFFFFFFF8 ∧
    g? (exec (.ldOff16 ⟨3, 1, 2, 1, true, 0⟩) (Hr 0x100 0)) 3 = some 0xF5F6 ∧
    g? (exec (.ldOff32 ⟨3, 1, -4, 2, false, 0⟩) (Hr 0x108 0)) 3 = some 0xFFFFFFFFF1F2F3F4 ∧
    g? (exec (.ldOff16 ⟨3, 1, 0, 3, false, 0⟩) (filled (Hr 0x100000000 0))) 3 = some 0x1122334455667788 ∧
    mem? (exec (.stOff16 ⟨2, 1, 0, 1, 0⟩) (Hr 0x102 0xABCD)) (sramKey V 0x100) 8 = some 0xF1F2F3F4ABCDF7F8 ∧
    mem? (exec (.stOff32 ⟨2, 1, 0x10, 3, 0⟩) (Hr 0xF00000 5)) (sramKey V 0x10) 8 = some 5 ∧
    x? (exec (.stOff16 ⟨2, 1, 0, 0, 0⟩) (Hr 0x300000 7)) (·.posted) = some [⟨.quad 3, 0x300000, [7]⟩] ∧
    x? (exec (.ldOff16 ⟨3, 1, 0, 3, false, 0⟩) (Hr 0x100000000 0)) (·.prog.need) = some (.fill 0x400 false) := by decide

/-- R271, R160, R161: a pair, contiguous lanes under a mask, gathered and scattered lanes. -/
theorem test_pairs_and_lanes :
    g? (exec (.ldpOff16 ⟨3, 1, 0, 0⟩) (Hr 0x100 0)) 4 = some 0 ∧
    g? (exec (.ldpOff32 ⟨3, 1, -16, 0⟩) (Hr 0x110 0)) 3 = some 0xF1F2F3F4F5F6F7F8 ∧
    mem? (exec (.stpOff16 ⟨1, 1, 0, 0⟩) (Hr 0x100 0xBEEF)) (sramKey V 0x100) 16 = some 0xBEEF0000000000000100 ∧
    mem? (exec (.stpOff32 ⟨2, 1, 0x10, 0⟩) (Hr 0x100 0xBEEF)) (sramKey V 0x110) 16 = some 0x55000000000000BEEF ∧
    v? (exec (.vldNoOffset ⟨1, 1, 2, 0, 0⟩) (vregs (Hr 0x100 2) 0xAAAA 0)) 1 2 = some 0xF7AA ∧
    v? (exec (.vldOff32 ⟨1, 1, 0, 3, 0, 8⟩) (Hr 0xF8 0)) 1 8 = some 0xF1F2F3F4F5F6F7F8 ∧
    mem? (exec (.vstNoOffset ⟨1, 1, 2, 0, 0⟩) (vregs (Hr 0x100 2) 0xAABB 0)) (sramKey V 0x100) 8 = some 0xF1F2F3F4F5F6AAF8 ∧
    v? (exec (.vldxNoOffset ⟨1, 1, 2, 2, 0, 3, 0⟩) (vregs (Hr 0x108 1) 0 (-8))) 1 8 = some 0xF1F2F3F4F5F6F7F8 ∧
    mem? (exec (.vstxNoOffset ⟨1, 1, 2, 2, 0, 2, 0⟩) (vregs (Hr 0x100 3) 0x0000000200000001 0)) (sramKey V 0x100) 4 = some 2 := by
  decide

/-- The table of R55 in quad memory: blocks 0 and 1, and the vector loads of R172 from them. -/
def blocks : State :=
  regs { base with mem := wrBytes (wrBytes base.mem (sramKey V 0x40000) 0x7F 1) (sramKey V 0x40008) 0x7095 2 }
    [0x4180000000040000]
theorem test_vldf :
    v? (exec (.vldfNoOffset ⟨1, 1, 0, 0, .f32, .rne, false, 0⟩) blocks) 1 64 = some 0x40C0000000000000BF00000040400000 ∧
    v? (exec (.vldfOff32 ⟨2, 1, 0, 1, .f32, .rne, false, 0, 32⟩) (vregs blocks 0 (-1))) 3 64 = some 0 := by decide

/-- R163: a bf16 block of 32 ones goes to block 2: its scale is 0x7F less emax 2, each element 4.0 (0b0110). -/
theorem test_vstf :
    mem? (exec (.vstfOff32 ⟨4, 1, 0, 0, .bf16, .rne, false, 0, 64⟩)
      (on (regs base [0x4180000000060000]) (fun x => x.wv 4 (lanes 16 32 (fun _ => 0x3F80))))) (sramKey V 0x60002) 1 = some 0x7D ∧
    mem? (exec (.vstfOff32 ⟨4, 1, 0, 0, .bf16, .rne, false, 0, 64⟩)
      (on (regs base [0x4180000000060000]) (fun x => x.wv 4 (lanes 16 32 (fun _ => 0x3F80))))) (sramKey V 0x60028) 2 = some 0x6666 := by
  decide

/-- R283, R284: the old value is on its way, the new one at home; `acas` that finds another value writes nothing. -/
theorem test_atomics :
    mem? (exec (.aadd ⟨3, 1, 2, false, false, false, false, 0⟩) (Hr 0x100 8)) (sramKey V 0x100) 8 = some 0xF1F2F3F4F5F6F800 ∧
    x? (exec (.aadd ⟨3, 1, 2, true, false, false, false, 0⟩) (Hr 0x100 8)) (·.prog.res) = some (some ⟨3, 0xFFFFFFFFF5F6F7F8, false⟩) ∧
    mem? (exec (.amin ⟨3, 1, 2, false, false, false, false, 0⟩) (Hr 0x100000000 0)) 0x10000 8 = some 0 ∧
    mem? (exec (.amax ⟨3, 1, 2, false, true, false, false, 0⟩) (Hr 0x100 1)) (sramKey V 0x100) 8 = some 0xF1F2F3F4F5F6F7F8 ∧
    mem? (exec (.aand ⟨3, 1, 2, false, false, false, false, 0⟩) (Hr 0x100 0xFF)) (sramKey V 0x100) 8 = some 0xF8 ∧
    mem? (exec (.aor ⟨3, 1, 2, false, false, false, false, 0⟩) (Hr 0x100 7)) (sramKey V 0x100) 8 = some 0xF1F2F3F4F5F6F7FF ∧
    mem? (exec (.axor ⟨3, 1, 2, true, false, false, false, 0⟩) (Hr 0x100 0xF8)) (sramKey V 0x100) 8 = some 0xF1F2F3F4F5F6F700 ∧
    mem? (exec (.aswp ⟨3, 1, 2, true, false, false, false, 0⟩) (Hr 0x104 9)) (sramKey V 0x100) 8 = some 0x00000009F5F6F7F8 ∧
    mem? (exec (.acas ⟨3, 1, 2, 3, false, false, false, false, 0⟩) (Hr 0x100 9)) (sramKey V 0x100) 8 = some 0xF1F2F3F4F5F6F7F8 ∧
    mem? (exec (.afadd ⟨3, 1, 2, .f32, false, false, false, 0⟩) (Hr 0x200 0x3F800000)) (sramKey V 0x200) 4 = some 0x3F800000 := by
  decide

/-- R273, R277 to R281: releases and acquires of a quiet core, the counts, tags, a monitor, side bits. -/
theorem test_order_and_tables :
    x? (exec (.rel ⟨.tile, 0⟩) H) (·.pc) = some 0x01000042 ∧
    x? (exec (.acq ⟨.quad, 0⟩) H) (·.pc) = some 0x01000042 ∧
    x? (exec (.fence ⟨.core, 0⟩) H) (·.pc) = some 0x01000042 ∧
    x? (exec (.rel ⟨.tile, 0⟩) (posted H 0x300000)) (·.pc) = some 0x01000002 ∧
    g? (exec (.pwait ⟨3, 0⟩) (through (posted H 0x300000) 2)) 3 = some 0x20001 ∧
    g? (exec (.tset ⟨3, 1, 2, 0⟩) (Hr 0x100000FFF 511)) 3 = some 0 ∧
    g? (exec (.tlook ⟨3, 1, 0⟩) (Hr 0x100000FFF 511)) 3 = some 0xFFFFFFFFFFFFFFFF ∧
    g? (exec (.tclr ⟨3, 1, 0⟩) (Hr 511 0)) 3 = some 0 ∧
    x? (exec (.mon ⟨3, 1, 0⟩) (Hr 0x100 0)) (·.mon) = some ⟨0x100, none, 0xF1F2F3F4F5F6F7F8, true, false⟩ ∧
    g? (exec (.mwait ⟨3, 1, 0⟩) (Hr 0 0)) 3 = some 2 ∧
    g? (exec (.sbr ⟨3, 1, 0⟩) (Hr 0x100000000 0)) 3 = some 0 ∧
    x? (exec (.sbw ⟨1, 2, 0⟩) (Hr 0x100000000 0)) (·.pc) = some 0x01000042 := by decide

theorem wit_BytesReadAfterWrite : Memory.wf ([(3, 1)] : NMap Byte) = true ∧ (0 : Nat) < 1 := by decide

theorem wit_Places :
    ((0x0001000000000100 : Word).extractLsb' 48 7 ≠ 0 ∧ (0x8000000000000100 : Word).extractLsb' 48 7 = 0) ∧
    0x101 % 2 ≠ 0 ∧
    [0xBFFFF8, 0x01000000, 0x012FFFF8, 0x02000000, 0x0200FFF8, 0x100000000, 0x7FFFFFFFFFF8, 0x800000000000, 0x00C00000, 0x00FFFFF8,
      0x01300000, 0x01FFFFF8, 0x02010000, 0xFFFFFFF8].all (fun a => a % 8 == 0) = true ∧
    (H.lookup K 0x100000000 .read true).isSome = true ∧ H.lookup K 0x7FFFFFFFFFF8 .read true = none ∧
    (H.lookup K 0x800000000000 .read true).isSome = true := by decide

theorem wit_LoadValue :
    H.quadAwake V 0x100 = true ∧ (H.modQuad ⟨0, 0⟩ (fun q => { q with power := .asleep })).quadAwake V 0x100 = false ∧
    ((posted H 0x100).ctx X).posted.any (fun p => p.addr / 8 == 0x100 / 8) = true ∧
    (H.ctx X).posted.any (fun p => p.addr / 8 == 0x100 / 8) = false ∧
    (poisoned H).sramPois V 0x100 = true ∧ H.sramPois V 0x100 = false ∧
    ((cached H [lineAt 0x400 1 0 0]).core K).cache.find? (fun x => decide (x.tag = 0x10000 / 64)) = some (lineAt 0x400 1 0 0) ∧
    (lineAt 0x400 1 0 0).valid.getLsbD 0 = true ∧ (lineAt 0x400 1 0 0).valid.getLsbD 1 = false ∧
    (H.core K).cache.find? (fun x => decide (x.tag = 0x10000 / 64)) = none ∧
    (H.ctx X).prog.fill 0x400 = none ∧ ((filled H).ctx X).prog.fill 0x400 = some ⟨0x400, 0x1122334455667788, 0, 0⟩ := by
  decide

theorem wit_ScalarLoads :
    (Instr.ldOff16 ⟨3, 1, 0, 3, false, 0⟩).wf = true ∧ (Instr.ldOff32 ⟨3, 1, 0, 2, true, 3⟩).wf = true ∧
    (loadOf (Hr 0x100 0) (.ldOff16 ⟨3, 1, 0, 3, false, 0⟩)).map (·.ea) = some 0x100 ∧
    ¬ mayStart (posted H 0x300000) 1 ∧ mayStart H 3 ∧
    (Hr 0x101 0).place X (.scalar 2) 0x101 2 .read = .error (.cause .misaligned 0x101) ∧
    H.place X (.scalar 8) 0x100 8 .read = .ok (.sram 0x100) ∧ H.load X (.sram 0x100) 8 = .ok 0xF1F2F3F4F5F6F7F8 ∧
    (poisoned H).load X (.sram 0x100) 8 = .error (.cause .poisonConsumed 0x100) ∧
    [(0, 0x2000000), (0x100, 0x2000100), (0x108, 0x2000108), (0x110, 0x2000110), (0x118, 0x2000118), (0x120, 0x2000120),
      (0x130, 0x2000130), (0xFFF8, 0x200FFF8)].all (fun (o, a) => decide ((priv H).place X (.scalar 8) a 8 .read = .ok (.device o))) = true := by
  decide

theorem wit_ScalarStores :
    holdsLine H ∧ (storeOf H (.stOff16 ⟨2, 1, 0, 3, 0⟩)).map (·.reg) = some 2 ∧
    H.place X (.scalar 8) 0x100 8 .write = .ok (.sram 0x100) ∧ homeOf 0x100 = .quad X.quad ∧ H.quadAwake V 0x100 = true ∧
    (H.modQuad ⟨0, 0⟩ (fun q => { q with power := .asleep })).quadAwake V 0x100 = false ∧
    homeOf 0x100000 ≠ .quad X.quad ∧ (H.ctx X).posted.length < 1023 ∧
    1023 ≤ ((on H (fun x => { x with posted := List.replicate 1023 ⟨.quad 3, 0, [1]⟩ })).ctx X).posted.length ∧
    H.place X (.scalar 4) 0x100000000 4 .write = .ok (.home 0x10000 0x100000000 false) ∧
    (H.core K).hasWord 0x400 0 = false ∧ (H.ctx X).prog.fill 0x400 = none ∧
    ((cached H [lineAt 0x400 1 0 0]).core K).find 0x400 = some (lineAt 0x400 1 0 0) ∧ (H.core K).find 0x400 = none ∧
    ((H.core K).cache.filter (fun y => y.tag % 64 == 0x400 % 64)).length < 8 ∧
    H.storesReady X 8 [.home 0x10000 0x100000000 false] = .ok () ∧
    (priv H).place X (.scalar 8) 0x2000128 8 .write = .ok (.device 0x128) ∧
    (priv H).place X (.scalar 8) 0x2000100 8 .write = .ok (.device 0x100) := by decide

theorem wit_PairAndLaneLoads :
    (Instr.ldpOff16 ⟨30, 1, 0, 0⟩).wf = true ∧ (loadsOf ((Hr 0x100 0).ctx X) (.ldpOff16 ⟨3, 1, 0, 0⟩)).map (·.1.eas) = some [0x100, 0x108] ∧
    (loadsOf ((Hr 0x100 2).ctx X) (.vldNoOffset ⟨1, 1, 2, 0, 0⟩)).map (·.1.eas) = some [0x101] ∧
    (0x0001000000000100 : Word).extractLsb' 48 7 ≠ 0 ∧ ((0x108 : Word).extractLsb' 0 48).toNat % 16 ≠ 0 ∧
    H.place X .pair 0xBFFFF8 8 .read = .ok (.sram 0xBFFFF8) ∧ H.place X .pair 0xC00000 8 .read = .error (.cause .addressForm 0xC00000) ∧
    H.place X .vector 0x100 1 .read = .ok (.sram 0x100) ∧ H.load X (.sram 0x100) 1 = .ok 0xF8 ∧
    (poisoned H).load X (.sram 0x107) 1 = .error (.cause .poisonConsumed 0x100) := by decide

theorem wit_PairAndLaneStores :
    (Instr.stpOff16 ⟨30, 1, 0, 0⟩).wf = true ∧ (storesOf ((Hr 0x100 3).ctx X) (.vstxNoOffset ⟨1, 1, 2, 2, 0, 3, 0⟩)).map (·.eas) = some [0x100, 0x100] ∧
    holdsLine H ∧ H.place X .pair 0x100 8 .write = .ok (.sram 0x100) ∧
    H.storesReady X 8 [.sram 0x100, .sram 0x108] = .ok () ∧
    (through H 1023).storesReady X 8 [.home 0x10000 0x100000000 false] = .ok () ∧
    (on H (fun x => { x with posted := List.replicate 1022 ⟨.quad 3, 0, [1]⟩ })).storesReady X 8 [.sram 0x300000, .sram 0x300008] =
      .error (.need (.room 2)) := by decide

theorem wit_ReleaseAcquireFence :
    syncOf (.fence ⟨.tile, 3⟩) = some (true, true, true, 3) ∧ syncOf (.rel ⟨.core, 0⟩) = some (true, false, false, 0) ∧
    mayStart H 3 ∧ ¬ mayStart (posted H 0x300000) 1 ∧ ¬ mayStart (through H 1) 2 ∧
    (H.ctx X).prog.rel = false ∧ ((on H (fun x => { x with prog := { x.prog with rel := true } })).ctx X).prog.rel = true ∧
    ((posted H 0x300000).ctx X).q ≠ 0 ∧ (H.ctx X).q = 0 ∧ (H.core K).h = 0 ∧ ((through H 3).core K).h ≠ 0 ∧
    roomForAll ((through (cached H [lineAt 0x400 1 1 0]) 1022).core K) ∧ ¬ roomForAll ((through (cached H [lineAt 0x400 1 1 0]) 1023).core K) ∧
    (H.core K).cache.all (fun y => decide (y.dirty = 0)) = true := by decide

theorem wit_CountsAndTagTables :
    mayStart H 3 ∧ ¬ mayStart (posted H 0x300000) 1 ∧
    ((NMap.get 0 (H.vtile V).tags 511).getLsbD 63) = false ∧
    ((NMap.get 0 ((H.modVt V (fun v => { v with tags := [(511, 0x8000000100000000)] })).vtile V).tags 511).getLsbD 63) = true ∧
    (0xFFFFFFFF : Nat) < 0x100000000 ∧ (0x100000000 : Word).extractLsb' 48 7 = 0 := by decide

theorem wit_Monitors :
    H.place X .mon 0x100 8 .read = .ok (.sram 0x100) ∧ clearQuad H 0x100 ∧
    H.place X .mon 0x01000000 8 .read = .error (.cause .addressForm 0x01000000) ∧
    (poisoned H).sramPois V 0x100 = true ∧ H.place X .mon 0x100000000 8 .read = .ok (.home 0x10000 0x100000000 false) ∧
    clearHome H 0x10000 ∧ readable H 0x10000 ∧ (H.ctx X).mon.armed = false ∧
    ((on H (fun x => { x with mon := ⟨0x100, none, 0, true, false⟩ })).ctx X).mon.armed = true ∧
    ((on H (fun x => { x with mon := ⟨0x100, none, 0, true, true⟩ })).ctx X).mon.fired = true ∧
    roomForAll (H.core K) ∧ ¬ roomForAll ((through (cached H [lineAt 0x400 1 1 0]) 1023).core K) := by decide

theorem wit_SideBits :
    H.place X .sbr 0x100000040 64 .read = .ok (.home 0x10040 0x100000040 false) ∧ H.homeFree 0x10040 = true ∧
    H.place X .sbw 0x100000040 64 .write = .ok (.home 0x10040 0x100000040 false) ∧
    H.place X .sbr 0x100 64 .read = .error (.cause .addressForm 0x100) ∧
    H.place X .sbw 0x800000000000 64 .write = .error (.raise ⟨.permission, 0x800000000000, Acc.write.code, 0⟩) ∧
    H.cleared 1 = false ∧ ({ H with written := [] } : State).cleared 1 = true := by decide

theorem wit_Atomics :
    (Instr.acas ⟨3, 1, 2, 4, true, true, true, true, 3⟩).wf = true ∧ (Instr.afadd ⟨3, 1, 2, .h16, true, true, true, 3⟩).wf = true ∧
    (atomicOf (H.ctx X) (.aadd ⟨3, 1, 2, true, false, false, false, 0⟩)).isSome = true ∧
    H.place X .atomic 0x102 4 .atomic = .error (.cause .misaligned 0x102) ∧
    H.place X .atomic 0x104 4 .atomic = .ok (.sram 0x104) ∧ clearQuad H 0x104 ∧ (poisoned H).sramPois V 0x104 = true ∧
    H.place X .atomic 0x100000000 8 .atomic = .ok (.home 0x10000 0x100000000 false) ∧ clearHome H 0x10000 ∧
    ({ H with written := [] } : State).cleared 1 = true ∧ H.cleared 1 = false ∧ readable H 0x10000 ∧
    NSet.mem (poisoned H).poisLine (0x10000 / 64) = true ∧ NSet.mem ({ H with badLine := [0x400] } : State).badLine (0x10000 / 64) = true := by
  decide

theorem wit_FormattedLoads :
    (Instr.vldfNoOffset ⟨8, 1, 0, 3, .f32, .rne, false, 0⟩).wf = true ∧
    (⟨1, 1, 0, 0, .n64, .rne, false, 0⟩ : VFmtOp).tag 0 = some .raw ∧ (⟨1, 1, 0, 0, .f32, .rne, false, 0⟩ : VFmtOp).tag 0x2C00000000000000 = none ∧
    ((⟨1, 1, 0, 0, .f32, .rne, false, 0⟩ : VFmtOp).tag 0x0400000000000000).isSome = true ∧
    ((⟨1, 1, 0, 0, .f32, .rne, false, 0⟩ : VFmtOp).tag 0x4180000000040000).isSome = true ∧
    elements ⟨1, 1, 2, 0, .f32, .rne, false, 0⟩ ((Hr 0x100 5).ctx X) = [0, 2] ∧
    H.place X .vector 0x100 1 .read = .ok (.sram 0x100) ∧ H.load X (.sram 0x100) 1 = .ok 0xF8 ∧
    blocks.mxRead 0x4180000000040000 .e2m1 [0, 1] = .ok [.fin false 3 0, .fin true 1 (-1)] := by decide

theorem wit_FormattedStores :
    (Instr.vstfOff32 ⟨4, 1, 0, 0, .bf16, .rne, false, 0, 64⟩).wf = true ∧ holdsLine H ∧
    H.placeAll X .vector 1 .write [0x100, 0x101] = .ok [.sram 0x100, .sram 0x101] ∧
    H.storesReady X 1 [.sram 0x100, .sram 0x101] = .ok () ∧
    (64 : Int) % ptrBlock 0x4180000000060000 = 0 ∧ (48 : Int) % ptrBlock 0x4180000000060000 ≠ 0 ∧
    mxAligned 0x4180000000060000 32 4 [64, 65] = .ok () ∧
    mxAligned 0x4180000000060004 32 4 [64] ≠ .ok () := by decide

/-! ### Engines, semaphores, causes -/

/-- A matrix command of the process: accumulator 1, FP32 codes 1.0 at 0x1000 and 0x2000, one product per element. -/
def mcmd (op : MatOp) : MatCmd :=
  { op := op, acc := 1, a := 0x2400000000001000, b := if op = .mld ∨ op = .mst then 64 else 0x2400000000002000
    c := 0x0010001000000001, idx := 0, geo := 0, rng := 1, core := 0, slot := 0, pc := 0, sig := ⟨0, 0, 0, 0⟩, user := true }
/-- A core with this command at the head, in a phase. -/
def matS (s : State) (q : MatCmd) (ph : Phase) (l : Option Latch) : State :=
  s.modCore K (fun k => { k with matQ := [q], matPhase := ph, matLatch := l })
/-- A copy command of the process. -/
def ccmd (src dst : Nat) (mode : Word) : CopyCmd :=
  { src := BitVec.ofNat 64 src, dst := BitVec.ofNat 64 dst, mode := mode, sig := ⟨0, 0, 0, 0⟩, slot := 0, core := 0, pc := 0, user := true }
/-- A core with this copy command at the head. -/
def copyS (s : State) (q : CopyCmd) : State := s.modCore K (fun k => { k with copyQ := [q], copyPhase := .fetch })
/-- A partition with a die's transform engine, whose queue holds the core's command. -/
def engine (s : State) : State :=
  { s.modTile (s.vtile V).ptile (fun t => { t with engine := some 0 }) with dies := [(0, some 0)], dieQ := [(0, [K])] }
/-- Words of quad memory. -/
def words (s : State) (l : List (Nat × Nat)) : State :=
  { s with mem := l.foldl (fun m p => wrBytes m (sramKey V p.1) p.2 8) s.mem }

/-- R187, R201 to R204: the geometry of a register, an origin that moves, `mstat` with nothing pushed. -/
theorem test_matrix_status :
    x? (exec (.mgeoReg ⟨3, 1⟩) (regs base [0x300])) (·.cgeo) = some 0x300 ∧
    x? (exec (.msub ⟨1, 2⟩) base) (fun x => (x.cgeo.extractLsb' 26 10, x.cgeo.extractLsb' 16 10)) = some (1, 2) ∧
    g? (exec (.mstat 3) base) 3 = some 0 ∧
    x? (exec .mdrain base) (·.pc) = some 0x01000042 ∧
    x? (exec .mdrain (matS base (mcmd .mzero) .fetch none)) (·.st) = some .blocked ∧
    x? (exec (.mgeoImm ⟨3, 0, 48⟩) base) (fun x => x.cgeo.extractLsb' 4 6) = some 48 := by decide

/-- R193: commands are captured as they are pushed. -/
theorem test_matrix_push :
    (match exec (.mzero ⟨1, ⟨0, 0, 0, 0⟩⟩) base with
      | .next t => some ((t.core K).matQ.map (fun q => (q.op, q.acc)), (t.core K).matPhase)
      | _ => none) = some ([(.mzero, 1)], .fetch) := by decide

/-- R53: one bf16 group of the manual: 1.0 and two products of 2^-24 make 0x3F800001, and 1.0, -1.0, 2^-60 make +0. -/
theorem test_accumulate :
    accumulate 0 16 [some (.fin false 1 0), some (.fin false 1 (-24)), some (.fin false 1 (-24))] = 0x3F800001 ∧
    accumulate 0 16 [some (.fin false 1 0), some (.fin true 1 0), some (.fin false 1 (-60))] = 0 := by decide

/-- R294: a word moved by `cpq`'s step, a word packed and unpacked. -/
theorem test_copy_steps :
    mem? (exec (.copyStep K) (words (copyS base (ccmd 0x1000 0x2000 8)) [(0x1000, 7)])) (sramKey V 0x2000) 8 = some 7 ∧
    mem? (exec (.packStep K) (words (engine (copyS base (ccmd 0x1000 0x2000 0x2000000000000008))) [(0x1000, 7)])) (sramKey V 0x2000) 24
      = some 0x000000000000000700000000000000010000000000000010 ∧
    mem? (exec (.unpackStep K) (words (engine (copyS base (ccmd 0x1000 0x2000 0x3000000000000008))) [(0x1000, 16), (0x1008, 1), (0x1010, 9)]))
      (sramKey V 0x2000) 8 = some 9 ∧
    mem? (exec (.reduceStep K) (words (engine (copyS base (ccmd 0x1C00000000001000 0x2000 0x4000000000000008))) [(0x1000, 7), (0x2000, 5)]))
      (sramKey V 0x2000) 8 = some 12 := by decide

/-- R405 to R412: semaphores of the own core and of another. -/
theorem test_semaphores :
    g? (exec (.semget ⟨3, 1⟩) (regs (base.modCore K (fun k => { k with sems := [(9, 3)] })) [9])) 3 = some 3 ∧
    g? (exec (.semt ⟨3, 9, .imm 2, false⟩) (base.modCore K (fun k => { k with sems := [(9, 3)] }))) 3 = some 65539 ∧
    g? (exec (.semt ⟨3, 9, .imm 4, false⟩) (base.modCore K (fun k => { k with sems := [(9, 3)] }))) 3 = some 3 ∧
    x? (exec (.semw ⟨9, .imm 1, false⟩) base) (·.why) = some .semaphore ∧
    (match exec (.semadd ⟨9, .imm 1, 1⟩) (regs base [47]) with
      | .next t => some ((t.core ⟨V, 47⟩).sem 9)
      | _ => none) = some 1 ∧
    (match exec (.semset ⟨9, .imm 7, 0⟩) base with
      | .next t => some ((t.core K).sem 9)
      | _ => none) = some 7 ∧
    x? (exec (.semadd ⟨9, .imm 255, 0⟩) (base.modCore K (fun k => { k with sems := [(9, 65535)] }))) (·.pend) =
      some [(.semaphoreOverflow, 9)] := by decide

/-- R84, R216, R218: a trap into the handler at the process's own line and back. -/
def withHandler : State := on base (fun x => { x with ctvec := 0x01000002 })
theorem test_traps :
    x? (exec (.trap 5) withHandler) (fun x => (x.pc, x.cepc, x.ctval, x.ccause)) = some (0x01000002, 0x01000042, 5, 0x16) ∧
    x? (exec (.trap 5) withHandler) (fun x => x.cstat.getLsbD 8) = some true ∧
    x? (exec (.brk 5) withHandler) (·.ccause) = some 0x17 ∧
    x? (exec (.trap 5) base) (·.st) = some .parked ∧
    x? (exec .tret (on base (fun x => { x with cepc := 0x01000002, cstat := 0x100 }))) (fun x => (x.pc, x.cstat.getLsbD 8))
      = some (0x01000002, false) ∧
    x? (exec .tret (on withHandler (fun x => { x with cepc := 0x01000004 }))) (·.ccause) = some 0x03 := by decide

theorem wit_MatrixStatus :
    ((base.core K).matQ.filter (fun q => decide (q.slot = 0) && q.alive)) = [] ∧
    (((matS base (mcmd .mzero) .fetch none).core K).matQ.filter (fun q => decide (q.slot = 0) && q.alive)) ≠ [] ∧
    ((0xBF00 : Word).extractLsb' 10 6).toNat ≤ 47 ∧ ((0xBF00 : Word).extractLsb' 4 6).toNat ≤ 48 ∧ (0xBF00 : Word).extractLsb' 0 4 = 0 ∧
    ¬ ((0xC000 : Word).extractLsb' 10 6).toNat ≤ 47 := by decide

theorem wit_MatrixPush :
    (Instr.mzero ⟨1, ⟨5, 3, 0, 0⟩⟩).wf = true ∧ (commandOf base (.mzero ⟨1, ⟨0, 0, 0, 0⟩⟩)).isSome = true ∧
    (mcmd .mzero).fmtCheck 0 = .ok () ∧ (mcmd .mzero).addrCheck = .ok () ∧
    ({ mcmd .mmq with a := 0x2C00000000001000 } : MatCmd).fmtCheck 7 ≠ .ok () ∧
    ({ mcmd .mld with a := 0x2000000000001001 } : MatCmd).fmtCheck 0 = .ok () ∧
    ({ mcmd .mld with a := 0x2000000000001001 } : MatCmd).addrCheck ≠ .ok () ∧
    quiet base ∧ (base.core K).matQ.length < 8 ∧ (base.core K).matHeld = false ∧ (base.core K).matBlocked = [] ∧
    ((matS base (mcmd .mzero) .fetch none).core K).matQ ≠ [] ∧ (base.core K).matQ = [] ∧
    (base.core K).sem 5 < 3 ∧ ¬ ((base.modCore K (fun k => { k with matQ := List.replicate 8 (mcmd .mzero) })).core K).matQ.length < 8 := by
  decide

theorem wit_MatrixPhases :
    ((matS base (mcmd .mzero) .fetch none).core K).matQ = [mcmd .mzero] ∧ (matS base (mcmd .mzero) .fetch none).runs K = true ∧
    (match (matS base (mcmd .mld) .fetch none).matFetch K (mcmd .mld) with
      | (_, .ok l) => l.codes.length
      | _ => 0) = 256 ∧
    (match (matS { base with pois := [] } { mcmd .mld with a := 0x100000000 } .fetch none).matFetch K { mcmd .mld with a := 0x100000000 } with
      | (_, .stop _) => true
      | _ => false) = true ∧
    ((matS base (mcmd .mzero) .effect (some ⟨[], [], false, []⟩)).core K).matLatch = some ⟨[], [], false, []⟩ ∧
    base.engZero [] = [] ∧ (mcmd .mzero).alive = true ∧ (mcmd .mzero).acc < 4 ∧ (mcmd .mzero).sig.sinc = 0 ∧
    ((matS base (mcmd .mzero) .completion none).core K).matPhase = .completion ∧ (base.core K).matQ = [] := by decide

theorem wit_CopyPush :
    (Instr.cpq ⟨1, 2, 3, ⟨0, 0, 0, 0⟩⟩).wf = true ∧ (Instr.cpqt ⟨4, 1, 2, 3, ⟨0, 0, 255, 255⟩⟩).wf = true ∧
    base.copyCheck 0x1000 0x2000 8 = .ok () ∧ base.copyCheck 0x1000 0x2000 0x2000000000000008 ≠ .ok () ∧
    (engine base).copyCheck 0x1000 0x2000 0x2000000000000008 = .ok () ∧ quiet base ∧
    (base.core K).copyQ.length < 8 ∧ (base.core K).copyHeld = false ∧ (base.core K).copyBlocked = [] ∧
    ((copyS base (ccmd 0 0 8)).core K).copyQ ≠ [] ∧
    8 ≤ ((base.modCore K (fun k => { k with copyQ := List.replicate 8 (ccmd 0 0 8) })).core K).copyQ.length := by decide

theorem wit_CopySteps :
    (copyS base (ccmd 0x1000 0x2000 128)).copyTurn (base.quadOf K) (base.quadPos K) = true ∧ (copyS base (ccmd 0x1000 0x2000 128)).runs K = true ∧
    cpMode 128 = 0 ∧ cpLen 128 = 128 ∧ cpMode 0x2000000000000008 = 2 ∧ cpMode 0x3000000000000008 = 3 ∧ cpMode 0x4000000000000008 = 4 ∧
    (0xBFFF80 + 128 ≤ 0xC00000 ∧ 0xBFFF80 / 0x100000 = (0xBFFF80 + 127) / 0x100000) ∧
    ptrFmt 0x1C00000000001000 = 7 ∧ AMap.get [] (engine base).dieQ 0 = [K] ∧ cpLen 0x2000000000000000 = 0 := by decide

/-- A word for each transform, at the last place of quad memory for one of them. -/
theorem wit_transforms :
    transforms (engine (copyS base (ccmd 0x1000 0x2000 0x2000000000000008))) K (ccmd 0x1000 0x2000 0x2000000000000008) 0 0x1000 0x2000 := by
  decide

theorem wit_transforms2 :
    transforms (engine (copyS base (ccmd 0xBFFFE8 0 0x3000000000000008))) K (ccmd 0xBFFFE8 0 0x3000000000000008) 0 0xBFFFE8 0 := by
  decide
theorem wit_transforms3 :
    transforms (engine (copyS base (ccmd 0x1C00000000001000 0x2000 0x4000000000000008))) K
      (ccmd 0x1C00000000001000 0x2000 0x4000000000000008) 0 0x1000 0x2000 := by decide

/-- Waiters of semaphore 9: one that takes 2, one that only compares with 1, one that takes 5; and one of semaphore 8. -/
theorem wit_Semaphores :
    (base.core K).waiters.all (fun w => decide (w.sem ≠ 9)) = true ∧ (amount (base.ctx X) (.imm 0) ≤ (base.core K).sem 9) ∧
    ((base.core K).sem 9 < amount (base.ctx X) (.imm 1)) ∧ roomForAll (base.core K) ∧ quiet base ∧
    ((base.modCore K (fun k => { k with waiters := [⟨9, .ctx 2, 4, true⟩] })).core K).waiters.any (fun w => decide (w.sem = 9) && w.consume) = true ∧
    (0x8000 : Word).getLsbD 15 = true ∧ 48 ≤ ((0xB000 : Word).extractLsb' 8 6).toNat ∧ ((0xAF00 : Word).extractLsb' 8 6).toNat < 48 ∧
    examineList 9 3 [⟨9, .ctx 1, 2, true⟩, ⟨8, .ctx 2, 1, true⟩, ⟨9, .ctx 3, 1, false⟩, ⟨9, .copy, 5, true⟩] 3 false =
      (1, [⟨8, .ctx 2, 1, true⟩, ⟨9, .copy, 5, true⟩], [.ctx 1, .ctx 3]) := by decide

theorem wit_HandlerEntry :
    (withHandler.ctx X).member = none ∧ Cause.trap.toHandler = true ∧ (withHandler.ctx X).cstat.getLsbD 8 = false ∧
    (withHandler.ctx X).ctvec ≠ 0 ∧ handlerFits withHandler X ∧ (withHandler.ctx X).live = none ∧ (withHandler.ctx X).resume = none ∧
    (withHandler.ctx X).shadow = none := by decide

theorem wit_DeliveryToTheCurator :
    (base.ctx X).member = none ∧ Cause.quota.toHandler = false ∧ (base.part 0).curcol ≠ 0 ∧
    ((base.modPart 0 (fun p => { p with curcol := 0 })).part 0).curcol = 0 ∧
    ((on base (fun x => { x with cstat := 0x100 })).ctx X).cstat.getLsbD 8 = true ∧ (base.ctx X).ctvec = 0 ∧
    ¬ handlerFits (on base (fun x => { x with ctvec := 0x01000004 })) X := by decide

theorem wit_TrapsAndReturn :
    withHandler.checkTarget X 0x01000002 = .ok (0x01000000, lineOne 0x2A00 0) ∧
    withHandler.checkTarget X 0x01000004 = .error (.cause .targetEmpty 0x01000004) ∧
    ((0x100 : Word).getLsbD 8 = true ∧ (0x100 : Word).getLsbD 9 = false ∧ (0x300 : Word).getLsbD 9 = true) ∧
    (match base.frameWords X 48 0 with
      | .ok ws => decide (frameOf ws = none)
      | .error _ => true) = true := by decide

/-! ### Control registers, waits, barriers, swarms, comb sequences -/

/-- Another process of the vtile. -/
def other (s : State) (c : CtxId) (f : Ctx → Ctx) : State := s.modCtx c (fun x => f { x with st := .ready })
/-- The process as the member of a swarm with one on the next core. -/
def swarm2 (s : State) : State :=
  (other (on s (fun x => { x with member := some ⟨3, 0, false, none⟩ })) ⟨V, 1, 2⟩ (fun x => { x with member := some ⟨3, 1, false, none⟩ })).modVt V
    (fun v => { v with swarms := [(3, 1)] })
/-- The sequence of R393's chapter example: `mul h0, $a, $b` and `add $d, h0, $imm`, bound to comb.0. -/
def bound : State :=
  on (base.modCore K (fun k => { k with comb := [(0, 0x080E22C6), (1, 0x00111C47)] })) (fun x => { x with binds := [(0, ⟨true, 0, 2, 1, 1, 1⟩)] })
/-- The same while the sequence of `comb.0 g1, g10, g11, 2` runs, at a micro-PC. -/
def running (upc : Nat) (h0 : Word) : State :=
  on (regs bound [0, 0, 0, 0, 0, 0, 0, 0, 0, 3, 5]) (fun x => { x with live := some ⟨⟨0, upc, upc, if h0 = 0 then [] else [(0, h0)], []⟩, 1, 10, 11, 2⟩ })

/-- R208 to R215, R354: identities, writable bits. -/
theorem test_control_registers :
    g? (exec (.crd ⟨3, 0x041⟩) base) 3 = some 0 ∧
    g? (exec (.crd ⟨3, 0x030⟩) { base with time := 77 }) 3 = some 77 ∧
    g? (exec (.rdtime 3) { base with time := 78 }) 3 = some 78 ∧
    x? (exec (.cwr ⟨0x000, 1⟩) (regs base [-1])) (·.cstat) = some 0x31F ∧
    x? (exec (.cwr ⟨0x020, 1⟩) (regs base [5])) (·.cprobe) = some 1024 ∧
    x? (exec (.cwr ⟨0x012, 1⟩) (regs base [8])) (·.calt) = some 8 ∧
    x? (exec (.cwr ⟨0x012, 1⟩) (regs base [9])) (·.st) = some .parked ∧
    x? (exec (.crd ⟨3, 0x042⟩) (on base (fun x => { x with ctvec := 0x01000002 }))) (·.ccause) = some 0x12 := by decide

/-- R222, R346, R347, R421, R422: `wdog`, `idle`, `yield`, `whoami` in the second member of a swarm. -/
theorem test_waits :
    x? (exec (.wdog 3) base) (·.cwdog) = some 0x00000C0000000C00 ∧
    x? (exec .idle base) (fun x => (x.st, x.why)) = some (.blocked, .mwait) ∧
    x? (exec .yield (other base ⟨V, 0, 2⟩ id)) (·.yielded) = some (some (16, [2])) ∧
    g? (exec (.whoami 3) base) 3 = some 0 ∧
    x? (exec (.tlbi ⟨3, 1, 2, 0, false⟩) base) (·.st) = some .parked := by decide

/-- R414 to R417: alone at a quad barrier; another process of the quad has not come. -/
theorem test_barriers :
    x? (exec (.bar ⟨3, .quad⟩) (other base ⟨V, 2, 0⟩ id)) (fun x => (x.st, x.why, x.arrQuad)) = some (.blocked, .barrier, true) ∧
    (match exec (.bara ⟨3, .quad⟩) base with
      | .next t => some (t.gen V 0 .quad)
      | _ => none) = some 1 ∧
    x? (exec (.barw ⟨1, .tile⟩) (regs base [-1])) (·.st) = some .ready ∧
    x? (exec (.bar ⟨3, .core⟩) withHandler) (·.ccause) = some 0x14 := by decide

/-- R339 to R345: waits for members; no swarm to leave; the end of the process. -/
theorem test_swarms :
    x? (exec (.swl ⟨3, 1⟩) (regs base [2])) (·.why) = some .barrier ∧
    x? (exec (.swl ⟨3, 1⟩) (regs withHandler [1])) (·.ccause) = some 0x02 ∧
    x? (exec (.swj ⟨3, 1⟩) (regs withHandler [0])) (·.ccause) = some 0x02 ∧
    x? (exec .split base) (·.pc) = some 0x01000042 ∧
    x? (exec .rejoin base) (·.pc) = some 0x01000042 ∧
    x? (exec .split (swarm2 base)) (·.member) = some none ∧
    x? (exec .pend base) (·.st) = some .empty := by decide

/-- The comb sequence of the manual's last chapter: 3 × 5 + 2 gives 17. -/
theorem test_comb :
    x? (exec (.combTail2 ⟨0, 1, 10, 11, 2⟩) bound) (fun x => x.live.map (fun l => (l.f.upc, l.d, l.a, l.b, l.imm)))
      = some (some (0, 1, 10, 11, 2)) ∧
    x? (exec .combMicroOp (running 0 0)) (fun x => x.live.map (fun l => (l.f.upc, l.f.h))) = some (some (1, [(0, 15)])) ∧
    x? (exec .combMicroOp (running 1 15)) (fun x => (x.rg 1, x.pc)) = some (17, 0x01000042) := by decide

/-- R395, R396, R398: `cbind` checks the two words, `cunbind` and an unbound `comb.5`. -/
theorem test_comb_tables :
    x? (exec (.cbind ⟨1, 0, 1⟩) (on bound (fun x => { x with binds := [] }))) (fun x => x.bind 0) = some ⟨true, 0, 2, 1, 1, 1⟩ ∧
    x? (exec (.cunbind 1) (regs bound [1])) (fun x => (x.bind 0).valid) = some false ∧
    x? (exec (.combTail0 ⟨5, 0⟩) (on bound (fun x => { x with ctvec := 0x01000002 }))) (·.ccause) = some 0x01 ∧
    (match exec (.cload ⟨3, 1, 2⟩) (regs (words base [(0x1060, 0x00111C47080E22C6)]) [0x1060, 0x20000]) with
      | .next t => some ((t.core K).comb)
      | _ => none) = some [(0, 0x080E22C6), (1, 0x00111C47)] := by decide

theorem wit_ControlRegisterReads :
    (Instr.crd ⟨3, 0x042⟩).wf = true ∧ (Instr.crd ⟨3, 0x09F⟩).wf = true ∧ (base.ctx X).cstat.getLsbD 10 = false ∧
    ((priv base).ctx X).cstat.getLsbD 10 = true := by decide

theorem wit_ControlRegisterWrites :
    (Instr.cwr ⟨0x078, 1⟩).wf = true ∧ (Instr.cwr ⟨0x011, 1⟩).wf = true ∧ (⟨0x030, 1⟩ : Cwr).idx = 0x030 ∧
    ¬ ((0xC000 : Word).extractLsb' 10 6).toNat ≤ 47 ∧ 8 < ((9 : Word).extractLsb' 0 4).toNat := by decide

theorem wit_WaitingInstructions :
    ((on base (fun x => { x with mon := ⟨0x100, none, 0, true, true⟩ })).ctx X).mon.fired = true ∧
    (base.ctx X).mon.armed = false ∧ (base.ctx X).member = none ∧ ((swarm2 base).ctx X).member = some ⟨3, 0, false, none⟩ := by decide

/-- The process's own vtile as the target of a `tlbi` in a grid of one; and its acknowledgement. -/
def grid1 (s : State) : State := s.modColony 0 0 (fun c => { c with gridX := 1, gridY := 1 })
theorem wit_TranslationInvalidate :
    (Instr.tlbi ⟨3, 1, 2, 0, false⟩).wf = true ∧ ((priv base).ctx X).cstat.getLsbD 10 = true ∧ (base.ctx X).cstat.getLsbD 10 = false ∧
    ((grid1 base).colony 0 0).live = true ∧ ((grid1 base).colony 0 0).gridX = 1 ∧
    (0x100000000 : Word).extractLsb' 48 7 = 0 ∧ quiet (priv (grid1 base)) ∧
    (priv (grid1 base)).tlbiRoom ((priv (grid1 base)).tlbiTargets 0 0 0) = true ∧
    (((priv (grid1 base)).block X .queueFull (.tlbi 3 0 [V])).ctx X).wait = some (.tlbi 3 0 [V]) ∧
    [V].all ((priv (grid1 base)).block X .queueFull (.tlbi 3 0 [V])).tlbiAcked = true ∧
    [V].all (posted base 0x300000).tlbiAcked = false := by decide

theorem wit_Barriers :
    (base.colony 0 0).cores = false ∧ ((base.modColony 0 0 (fun c => { c with cores := true })).colony 0 0).cores = true ∧
    (base.ctx X).arrQuad = false ∧ ((on base (fun x => { x with arrQuad := true })).ctx X).arrQuad = true ∧
    base.participants V 0 .quad = [X] ∧ (⟨V, 2, 0⟩ : CtxId) ∈ (other base ⟨V, 2, 0⟩ id).participants V 0 .quad ∧
    (base.ctx X).st ≠ .empty ∧ (base.ctx X).wait = none ∧
    (BitVec.ofNat 32 0 - (0xFFFFFFFF : BitVec 32)).toNat = 1 ∧ (BitVec.ofNat 32 0 - (0x80000000 : BitVec 32)).toNat = 2 ^ 31 ∧
    (BitVec.ofNat 32 0 - (0 : BitVec 32)).toNat = 0 := by decide

theorem wit_Swarms :
    NMap.get 0 (base.vtile V).swarms 0 = 0 ∧
    (List.range 12).all (fun e => decide (NMap.get 0 ((base.modVt V (fun v => { v with swarms := (List.range 12).map (fun i => (i, 1)) })).vtile V).swarms e ≠ 0)) = true ∧
    X ∈ V.slots ∧ (⟨V, 1, 2⟩ : CtxId) ∈ V.slots ∧
    ((other base ⟨V, 1, 2⟩ (fun x => { x with wait := some (.swj 4 0) })).ctx ⟨V, 1, 2⟩).wait = some (.swj 4 0) ∧
    (((swarm2 base).ctx X).member.map (·.det)) = some false ∧ ((swarm2 base).ctx X).wait = none ∧
    (⟨V, 1, 2⟩ : CtxId) ∈ (swarm2 base).swarm V 3 ∧ ((swarm2 base).ctx ⟨V, 1, 2⟩).wait ≠ some .rejoin ∧
    (base.ctx X).member = none := by decide

theorem wit_ProcessEnd :
    base.commandsLeft X = false ∧ (matS base (mcmd .mzero) .fetch none).commandsLeft X = true ∧ quiet base ∧
    (base.ctx X).origin = .launch ∧ (base.ctx X).commit = none ∧ (base.vtile V).ports = [] ∧
    base.ctxs.all (fun e => decide (e.1.vt ≠ V) || decide (e.1 = X)) = true := by decide

theorem wit_CombTables :
    (0x20000 : Word).extractLsb' 26 38 = 0 ∧ ((0x02000000 : Word).extractLsb' 16 10).toNat = 512 ∧
    base.placeAll X .cload 4 .read [0x1060, 0x1064] = .ok [.sram 0x1060, .sram 0x1064] ∧
    base.loadAll X 4 [.sram 0x1060, .sram 0x1064] = .ok [0, 0] ∧
    base.placeAll X .cload 4 .read [0x1062] = .error (.cause .misaligned 0x1062) ∧
    (poisoned base).loadAll X 4 [.sram 0x100] = .error (.cause .poisonConsumed 0x100) ∧
    (Instr.cbind ⟨1, 31, 63⟩).wf = true ∧ 449 + 63 ≤ 512 ∧ 512 < 450 + 63 ∧
    NSet.mem [0] ((512 * 0 + 0) / 2) = true ∧
    (match seqOk 2 0 [0x080E22C6, 0x00111C47] {} with
      | .ok q => (q.d, q.a, q.b)
      | .error _ => (9, 9, 9)) = (1, 1, 1) ∧
    (match seqOk 1 0 [0xFFFFFFFF] {} with
      | .ok _ => none
      | .error i => some i) = some 0 := by decide

theorem wit_CombInvocation :
    (Instr.combTail2 ⟨0, 1, 10, 11, 2⟩).wf = true ∧ combOf (.combTail2 ⟨0, 1, 10, 11, 2⟩) = some (0, 1, 10, 11, 2) ∧
    ((bound.ctx X).bind 0).valid = true ∧ ((bound.ctx X).bind 5).valid = false ∧ classFits 1 31 = true ∧ classFits 1 32 = false ∧
    (bound.ctx X).resume = none ∧
    ((on bound (fun x => { x with resume := some ⟨0, 1, 1, [], []⟩ })).ctx X).resume = some ⟨0, 1, 1, [], []⟩ := by decide

theorem wit_CombMicroOperations :
    ((running 0 0).ctx X).live = some ⟨⟨0, 0, 0, [], []⟩, 1, 10, 11, 2⟩ ∧
    ((0x080E22C6 : BitVec 32).extractLsb' 26 6).toNat = 0x02 ∧ ((0x00111C47 : BitVec 32).extractLsb' 26 6).toNat = 0x00 ∧
    NSet.mem ((running 0 0).core K).combPois 0 = false ∧
    NSet.mem (((running 0 0).modCore K (fun k => { k with combPois := [0] })).core K).combPois 0 = true := by decide

/-! ### Channels, foragers -/

/-- A second vtile of the colony, at (1, 0), resident on tile 1. -/
def W1 : VtId := ⟨0, 0, 1, 0⟩
/-- A third, queued: it exists and is not resident. -/
def W2 : VtId := ⟨0, 0, 2, 0⟩
/-- A vtile of another colony. -/
def Wc : VtId := ⟨0, 5, 0, 0⟩
/-- The process among its neighbours. -/
def world : State :=
  let s := heap.putVt W1 { exist := true, res := true, issue := true, ptile := 1 }
  let s := s.modTile 1 (fun t => { t with owner := some 0, vtile := some W1, quads := NMap.set {} t.quads 0 {} })
  let s := s.putVt W2 { exist := true, res := false, issue := false }
  let s := s.putVt Wc { exist := true, res := true, issue := true, ptile := 2 }
  let s := s.modColony 0 0 (fun c => { c with gridX := 3, gridY := 1 })
  s.modPart 0 (fun p => { p with fquota := 10 })
/-- The port at the other end of port 3. -/
def peer4 : PortId := ⟨W1, 4⟩
/-- The world with this port 3. -/
def port3 (x : Port) : State := world.modPort ⟨V, 3⟩ (fun _ => x)
/-- A port of width 2 in an idle state. -/
def idle (d : Dir) : Port := { decl := true, dir := d, width := 2, max := 64, peer := peer4 }
/-- A port that holds a notice. -/
def held (d : Dir) (n : Notice) : Port := { idle d with st := .held, held := some n }
/-- A packet to port 3. -/
def sends (s : State) (b : Body) : State := { s with net := [{ src := peer4, dst := ⟨V, 3⟩, body := b }] }
/-- A port of the process's vtile after a step. -/
def port? (r : Step) (q : Nat) : Option Port := match r with
  | .next t => some (t.port ⟨V, q⟩)
  | _ => none

/-- R307, R309, R310: a send is OWN until its acknowledgement; a receive of a held offer completes at once. -/
theorem test_channels :
    (port? (exec (.chs ⟨1, 3, 1⟩) (regs (port3 (idle .out)) [7, 8])) 3).map (·.st) = some .own ∧
    g? (exec (.chr ⟨1, 3, 1⟩) (port3 (held .inp (.offer [7, 8] false)))) 2 = some 8 ∧
    (port? (exec (.chr ⟨1, 3, 1⟩) (port3 (held .inp (.offer [7, 8] false)))) 3).map (·.st) = some .idle ∧
    x? (exec (.chr ⟨1, 3, 1⟩) (port3 (idle .inp))) (·.why) = some .channel ∧
    (port? (exec (.chbs ⟨1, 3, 2, 3⟩) (regs (port3 (idle .bout)) [0, 0x1000, 96])) 3).map (·.st) = some .own ∧
    (port? (exec (.chbr ⟨1, 3, 2⟩) (regs (port3 (held .bin (.bulk 0x1000 96))) [0, 0x2000])) 3).map (·.pending) = some 64 ∧
    x? (exec (.chs ⟨1, 3, 0⟩) (on (port3 (idle .out)) (fun x => { x with ctvec := 0x01000002 }))) (·.ccause) = some 0x0E ∧
    g? (exec (.chq ⟨1, 3⟩) (port3 (held .inp (.offer [7, 8] false)))) 1 = some 0x111 := by decide

/-- R315: alternatives 0 (port 3) and 8 (the timeout); `calt` moves past the one taken. -/
theorem test_alt :
    x? (exec (.alt ⟨1, 2, 3, 0⟩) (regs (port3 (held .inp (.offer [7, 8] false))) [9, 3, 1])) (fun x => (x.rg 1, x.calt, x.commit))
      = some (0, 1, some 3) ∧
    x? (exec (.alt ⟨1, 2, 3, 0⟩) (regs (port3 (idle .inp)) [9, 3, 0x101])) (fun x => (x.rg 1, x.calt)) = some (8, 0) ∧
    x? (exec (.alt ⟨1, 2, 3, 0⟩) (regs (port3 (idle .inp)) [9, 3, 1])) (·.why) = some .alt := by decide

/-- R318, R319: two lanes sifted to a port of width 8; a spawn within the quota and at it. -/
theorem test_sift_and_spawn :
    (match exec (.vsift ⟨4, 1, 2, 3, 0, .i64⟩) (regs (vregs (port3 { idle .out with width := 8 }) 0x5 0) [0, 1, 3]) with
      | .next t => t.net.length
      | _ => 9) = 1 ∧
    (match exec (.spawn ⟨1, 2⟩) (regs world [1, 0x01000002]) with
      | .next t => t.net.map (·.dst)
      | _ => []) = [⟨W1, 0⟩] ∧
    g? (exec (.spawnt ⟨3, 1, 2⟩) (regs (world.modPart 0 (fun p => { p with fcount := 10 })) [1, 0x01000002])) 3 = some 2 := by decide

/-- R307, R321, R322: an offer is HELD, an acknowledgement completes a send, a forager starts with its payload. -/
theorem test_arrivals :
    (port? (exec (.offerArrival ⟨V, 3⟩) (sends (port3 (idle .inp)) (.offer (.offer [7, 8] false)))) 3).map (·.st) = some .held ∧
    x? (exec (.acknowledgementArrival ⟨V, 3⟩) (sends (on (port3 { idle .out with st := .own, owner := 0 })
      (fun x => { x with st := .blocked, why := .channel, wait := some (.chs 3) })) .ack)) (fun x => (x.st, x.pc)) = some (.ready, 0x01000042) ∧
    (match exec (.foragerStart V) (world.modVt V (fun v => { v with
        arrivals := [⟨0x01000002, [1, 2, 3, 4, 5, 6, 7, 8], false, .forager, none⟩] })) with
      | .next t => some (t.ctxs.map (fun e => (e.2.pc, e.2.rg 8, e.2.st)))
      | _ => none) = some [(0x01000002, 0, .ready), (0x01000002, 8, .ready)] := by decide

theorem wit_PortChecks :
    ((port3 (idle .out)).port ⟨V, 3⟩).decl = true ∧ (base.port ⟨V, 3⟩).decl = false ∧ Dir.out ≠ Dir.inp ∧
    ((port3 { idle .out with st := .own, owner := 5 }).port ⟨V, 3⟩).owner ≠ ownerOf X ∧
    ((port3 (idle .out)).port ⟨V, 3⟩).st = .idle ∧ (base.ctx X).commit = none ∧
    (((0x501 : Word).getLsbD 0 = true) ∧ ((0x501 : Word).extractLsb' 16 4).toNat = Wc.part ∧ ((0x501 : Word).extractLsb' 8 6).toNat = Wc.col) ∧
    ¬ (V.part = Wc.part ∧ V.col = Wc.col) ∧ (world.vtile V).perms = [] := by decide

theorem wit_ChannelSends :
    (Instr.chs ⟨24, 3, 7⟩).wf = true ∧ (Instr.chbs ⟨1, 3, 2, 3⟩).wf = true ∧ (Instr.vsift ⟨4, 1, 2, 3, 0, .i64⟩).wf = true ∧
    (port3 (idle .out)).checkPort X 3 (some (.out, some 2)) = .ok () ∧ (port3 (idle .bout)).checkPort X 3 (some (.bout, none)) = .ok () ∧
    (port3 { idle .out with width := 8 }).checkPort X 3 (some (.out, some 8)) = .ok () ∧
    (port3 (idle .out)).checkPort X 3 (some (.out, some 1)) = .error (.cause .channelMisuse 3) ∧
    (port3 (idle .out)).checkPeer X 3 = .ok () ∧ (port3 { idle .out with peer := ⟨Wc, 1⟩ }).checkPeer X 3 ≠ .ok () ∧
    quiet (port3 (idle .out)) ∧ portFree (port3 (idle .out)) 3 ∧ ((port3 (idle .out)).vtile W1).exist = true := by decide

theorem wit_ChannelReceives :
    (Instr.chr ⟨24, 3, 7⟩).wf = true ∧ (Instr.chbr ⟨1, 3, 2⟩).wf = true ∧
    (port3 (idle .inp)).checkPort X 3 (some (.inp, some 2)) = .ok () ∧ (port3 (idle .bin)).checkPort X 3 (some (.bin, none)) = .ok () ∧
    ((port3 (idle .inp)).port ⟨V, 3⟩).held = none ∧ (port3 (idle .inp)).mayPeer V W1 = true ∧ roomForAll ((port3 (idle .inp)).core K) ∧
    ((port3 (held .inp (.offer [7, 8] false))).port ⟨V, 3⟩).held = some (.offer [7, 8] false) ∧
    ((port3 (held .bin (.bulk 0x1000 96))).port ⟨V, 3⟩).held = some (.bulk 0x1000 96) ∧
    bulkRange X 0x2000 64 true = true ∧ bulkRange X 0x02000000 64 true = false ∧ bulkRange X 0xBFFFC8 64 true = false ∧ (0x2004 : Word).extractLsb' 0 3 ≠ 0 := by decide

theorem wit_PortQueriesAndAlternatives :
    (port3 (held .inp (.offer [7, 8] false))).altCheck X 3 1 = .ok () ∧ (port3 (idle .inp)).altCheck X 3 1 = .ok () ∧
    base.altCheck X 3 1 = .error (.cause .channelMisuse 3) ∧
    (port3 (held .inp (.offer [7, 8] false))).altReady X 3 false 0 = true ∧ (port3 (idle .inp)).altReady X 3 false 0 = false ∧
    (port3 (idle .inp)).altReady X 3 true 8 = true ∧ (port3 (idle .inp)).present W1 = true ∧ (world.vtile W1).exist = true := by decide

theorem wit_Spawning :
    (world.colony 0 0).gridX = 3 ∧ ¬ (3 : Nat) < (world.colony 0 0).gridX ∧ quiet world ∧
    ¬ (world.part 0).fquota ≤ (world.part 0).fcount ∧ world.present W1 = true ∧ world.present W2 = false ∧
    spawnOf (.spawnt ⟨3, 1, 2⟩) = some (1, 2, some 3) := by decide

/-- A packet of every kind to port 3; the same port while its vtile is away. -/
def away (s : State) : State := s.modVt V (fun v => { v with res := false })
theorem wit_Arrivals :
    world.headTo ⟨V, 3⟩ = none ∧
    arrives (sends world (.offer (.offer [7, 8] false))) ⟨V, 3⟩ { src := peer4, dst := ⟨V, 3⟩, body := .offer (.offer [7, 8] false) } ∧
    arrives (sends world (.ready .ready)) ⟨V, 3⟩ { src := peer4, dst := ⟨V, 3⟩, body := .ready .ready } ∧
    arrives (sends world .ack) ⟨V, 3⟩ { src := peer4, dst := ⟨V, 3⟩, body := .ack } ∧
    arrives (sends world (.commit X)) ⟨V, 3⟩ { src := peer4, dst := ⟨V, 3⟩, body := .commit X } ∧
    arrives (sends world .release) ⟨V, 3⟩ { src := peer4, dst := ⟨V, 3⟩, body := .release } ∧
    arrives (sends world .withdraw) ⟨V, 3⟩ { src := peer4, dst := ⟨V, 3⟩, body := .withdraw } ∧
    arrives (sends world .refuse) ⟨V, 3⟩ { src := peer4, dst := ⟨V, 3⟩, body := .refuse } ∧
    arrives (sends world (.start ⟨0, 0x2000, 8, false, false, false⟩)) ⟨V, 3⟩ { src := peer4, dst := ⟨V, 3⟩, body := .start ⟨0, 0x2000, 8, false, false, false⟩ } ∧
    (sends (away world) .ack).present V = false ∧ world.parkRoom 0 = true := by decide
theorem wit_Arrivals_more :
    ((port3 (idle .inp)).port ⟨V, 3⟩).gone = false ∧ ((port3 { held .inp (.offer [7, 8] false) with gone := true }).port ⟨V, 3⟩).gone = true ∧
    ((on (port3 { idle .inp with st := .own }) (fun x => { x with wait := some (.chr 3 1 2) })).ctx (ownerCtx V 0)).wait = some (.chr 3 1 2) ∧
    bulkRange X 0x1000 8 false = true ∧ bulkRange X 0x02000000 0 false = false ∧
    arrives (sends world (.start ⟨0, 0x2000, 8, false, false, true⟩)) ⟨V, 3⟩
      { src := peer4, dst := ⟨V, 3⟩, body := .start ⟨0, 0x2000, 8, false, false, true⟩ } := by decide

/-- A transfer of the last word: port 3 sends from 0x1000, port 4 of (1, 0) receives at 0x2000. -/
def moving8 : State :=
  ((port3 { idle .bout with st := .move, pending := 8, bulk := some ⟨0x1000, 0x2000, 8, false, false, false⟩ }).modPort peer4 (fun _ =>
    { decl := true, dir := .bin, width := 2, max := 64, peer := ⟨V, 3⟩, st := .move, pending := 8
      bulk := some ⟨0x1000, 0x2000, 8, false, false, false⟩ }))
theorem wit_BulkSteps :
    (world.port ⟨V, 3⟩).bulk = none ∧ (moving8.port ⟨V, 3⟩).bulk = some ⟨0x1000, 0x2000, 8, false, false, false⟩ ∧
    (moving8.port ⟨V, 3⟩).st = .move ∧ (moving8.port ⟨V, 3⟩).peer = peer4 ∧ (moving8.port peer4).st = .move ∧
    (moving8.port ⟨V, 3⟩).dir = .bout ∧ moving8.runs (ownerCtx V 0).coreId = true ∧ moving8.running W1 = true ∧
    moving8.copyTurn (moving8.quadOf (ownerCtx V 0).coreId) (4 + 3) = true ∧ moving8.quadAwake V 0x1000 = true ∧ moving8.quadAwake W1 0x2000 = true := by
  decide

/-- A forager to (1, 0): with room, with a full queue that may spill, and with none. -/
def forager1 : Forager := ⟨0x01000002, [1, 2, 3, 4, 5, 6, 7, 8], false, .forager, none⟩
def foragers (n m cap : Nat) : State :=
  { world.modVt W1 (fun v => { v with arrivals := List.replicate n forager1, spill := List.replicate m forager1, spcap := cap }) with
    net := [{ src := ⟨V, 0⟩, dst := ⟨W1, 0⟩, body := .forager forager1 none, ctx := some X, tile := 1 }] }
theorem wit_Foragers :
    (foragers 0 0 0).net.find? (fun k => decide (k.dst.vt = W1) && !k.stays && (match k.body with
      | .forager _ _ => true
      | _ => false)) = some { src := ⟨V, 0⟩, dst := ⟨W1, 0⟩, body := .forager forager1 none, ctx := some X, tile := 1 } ∧
    (foragers 0 0 0).lands { src := ⟨V, 0⟩, dst := ⟨W1, 0⟩, body := .forager forager1 none, ctx := some X, tile := 1 } = true ∧
    (foragers 0 0 0).foragerParked W1 = false ∧
    ((foragers 63 0 0).vtile W1).arrivals.length < 64 ∧ 64 ≤ ((foragers 64 0 8).vtile W1).arrivals.length ∧
    ((foragers 64 7 8).vtile W1).spill.length < ((foragers 64 7 8).vtile W1).spcap ∧
    ((foragers 64 8 8).vtile W1).spcap ≤ ((foragers 64 8 8).vtile W1).spill.length ∧
    (foragers 1 0 0).foragerSlot W1 = some ⟨W1, 0, 0⟩ ∧ (foragers 1 0 0).running W1 = true ∧ ((foragers 1 0 0).core ⟨W1, 0⟩).moving = false ∧
    roomForAll ((foragers 1 0 0).core ⟨W1, 0⟩) := by decide

theorem wit_GoingOn : base.fetch X = .ok (0x01000000, lineOne 0x2A00 0) ∧ (base.ctx X).member = none := by decide

/-! ### Events of memory, walks, contexts, the curator's port and probes -/

/-- Two stores on their way to two homes; one of a poisoned doubleword; one to an instruction store. -/
def posts : State := on H (fun x => { x with posted :=
  [⟨.quad 0, 0x108, [1, 2]⟩, ⟨.quad 1, 0x100008, [1, 2, 3, 4, 5, 6, 7, 8]⟩, ⟨.quad 0, 0x100, [9]⟩, ⟨.istore 2, 0x01020000, [1, 2, 3, 4]⟩] })
/-- A write-through of line 0x400 of these words. -/
def writes (m : BitVec 8) : State := H.modCore K (fun k => { k with through := [⟨0x400, m, 0xAB⟩, ⟨0x401, 1, 0⟩] })
/-- The process waits for the fill of line 0x400. -/
def waitsFill (s : State) : State := on s (fun x => { x with prog := { x.prog with need := .fill 0x400 false } })
/-- The result of an atomic on its way to g5. -/
def atomicOn (n : Need) (acq : Bool) : State := on H (fun x => { x with prog := { need := n, res := some ⟨5, 77, acq⟩ } })

/-- R251, R237, R284, R245: a store reaches its bank, a line its home, a fill its cache, a result its register. -/
theorem test_memory_events :
    mem? (exec (.postedStorePerformed X 0) posts) (sramKey V 0x108) 2 = some 0x0201 ∧
    mem? (exec (.writeThroughPerformed K 0x400) (writes 1)) 0x10000 8 = some 0xAB ∧
    x? (exec (.cacheFill K 0x400 0) (waitsFill H)) (fun x => (x.prog.need, x.prog.fills.length)) = some (.none, 1) ∧
    g? (exec (.atomicResultReturn X) (atomicOn .result false)) 5 = some 77 ∧
    mem? (exec (.granuleZeroingComplete 1) { H with zeroing := [1], written := [] }) 0x10000 8 = some 0 := by decide

theorem wit_MemoryEvents :
    ((posts.ctx X).posted[1]? = some ⟨.quad 1, 0x100008, [1, 2, 3, 4, 5, 6, 7, 8]⟩ ∧ posts.portOpen V 0x100008 (.store X (.quad 1)) = true ∧ posts.movingAt V 0x100008 = none ∧
      (∀ q ∈ (posts.ctx X).posted.take 1, q.home ≠ .quad 1) ∧ ¬ (∀ q ∈ (posts.ctx X).posted.take 2, q.home ≠ .quad 0) ∧
      (posts.ctx X).posted[4]? = none) ∧
    ((writes 0xFF).core K).through = [⟨0x400, 0xFF, 0xAB⟩, ⟨0x401, 1, 0⟩] ∧
    (writes 1).homeFree (0x400 * 64) = true ∧ (writes 1).homeOpen (0x400 * 64) 0 (.through K 0x400) = true ∧ (writes 1).cleared (0x400 / 1024) = false ∧
    { writes 1 with zeroing := [1] }.homeFree (0x400 * 64) = false ∧
    { writes 1 with zeroing := [1] }.homeOpen (0x400 * 64) 0 (.through K 0x400) = false ∧ { writes 1 with written := [] }.cleared 1 = true ∧
    ((waitsFill H).fillReady K 0x400 = true ∧ ((waitsFill H).core K).find 0x400 = none ∧ (waitsFill H).fillWaiters K 0x400 = [X] ∧
      H.fillReady K 0x400 = true ∧ H.fillWaiters K 0x400 = [] ∧ ((waitsFill H).homeLine 0x400).bad = 0 ∧
      (waitsFill { H with badLine := [0x400] }).fillReady K 0x400 = true ∧ ((waitsFill { H with badLine := [0x400] }).homeLine 0x400).bad ≠ 0) ∧
    (((atomicOn .result true).ctx X).prog.res = some ⟨5, 77, true⟩ ∧ roomForAll ((atomicOn .result true).core K) ∧
      ((atomicOn .none false).ctx X).prog.need ≠ .result ∧ ((atomicOn .none false).ctx X).prog.need ≠ .acquire) ∧
    NSet.mem { H with zeroing := [1] }.zeroing 1 = true ∧ NSet.mem H.zeroing 1 = false ∧
    (H.vtile V).exist = true ∧ H.quadAwake V 0x00BFFFFF = true := by decide

/-- Six tables from 0x10000 on, each with its pointer in entry 0, the last with this leaf in entry 5. -/
def tables (leaf : Nat) : NMap Byte :=
  (List.range 6).foldl (fun m i => wrBytes m (0x10000 + 512 * i + 8 * (if i = 5 then 5 else 0))
    (if i = 5 then leaf else (0x10000 + 512 * (i + 1)) / 512 * 512 + 1) 8) H.mem
/-- A process that waits for the walk of page 5; a leaf to page 0x10 of memory, to read and write. -/
def walks (root leaf : Nat) : State :=
  let s : State := { H with mem := tables leaf }
  let s := s.modVt V (fun v => { v with root := root, misses := [{ ctx := X, ea := 0x5008, acc := .read, user := true, tval := 0x5008 }] })
  (s.modCore K (fun k => { k with tlb := [] })).modCtx X (fun x => { x with prog := { need := .walk 5 } })
/-- The leaf. -/
def leaf1 : Nat := 0x10 * 4096 + 0x1C3
/-- What the walk of an event gives: the entry, or the cause. -/
def walked (s : State) : Option Cause := match (s.modVt V (fun x => { x with misses := [] })).walkFor K 0x5008 .read true with
  | (_, .ok _) => none
  | (_, .error (k, _)) => some k

/-- R358: a walk that finds a leaf; one that finds none raises page absent with the address. -/
theorem test_walks :
    (match exec (.pageWalk V 5) (walks 0x80 leaf1) with
      | .next t => (t.core K).tlb.map (fun (e : TEntry) => (e.vpn, e.frame, e.rd, e.wr))
      | _ => []) = [(5, 0x10, true, true)] ∧
    x? (exec (.pageWalk V 5) (walks 0x80 0)) (·.st) = some .parked ∧
    (match exec (.pageWalk V 5) (walks 0x80 0) with
      | .next t => (t.part 0).offered.map (fun (m : Msg) => (m.cause, m.val))
      | _ => []) = [(7, 0x5008)] := by
  decide

theorem wit_Translation :
    ((base.vtile V).root = 0) ∧
    (let s : State := { H with mem := tables leaf1 }
     s.granOk 0 1 = true ∧ s.entryOk 0x10000 = true ∧ s.entryOk 0x10A28 = true ∧
     (BitVec.ofNat 64 (s.homeBytes 0x10000 8)).getLsbD 0 = true ∧ (BitVec.ofNat 64 (s.homeBytes 0x10000 8)).getLsbD 1 = false ∧
     (BitVec.ofNat 64 (s.homeBytes 0x10000 8)).extractLsb' 41 15 = 0 ∧ (BitVec.ofNat 64 (s.homeBytes 0x10000 8)).extractLsb' 2 7 = 0 ∧
     (BitVec.ofNat 64 (s.homeBytes 0x10008 8)).getLsbD 0 = false) ∧
    (let s : State := { H with mem := tables 0x10201 }
     (BitVec.ofNat 64 (s.homeBytes 0x10A28 8)).getLsbD 0 = true ∧ (BitVec.ofNat 64 (s.homeBytes 0x10A28 8)).getLsbD 1 = false) ∧
    ((walks 0x80 leaf1).vtile V).walking = [5] ∧
    walked (walks 0x80 leaf1) = none ∧ walked (walks 0x80 0) = some .pageAbsent ∧ walked (walks 0 leaf1) = some .pageAbsent ∧
    walked (walks 0x80 (leaf1 - 0x40)) = some .permission := by decide

/-- A process that waits, with its limit. -/
def waiting (s : State) (w : Wait) (l : Nat) : State := on s (fun x => { x with st := .blocked, wait := some w, lim := some l })
/-- One with asynchronous causes. -/
def raised (l : List (Cause × Word)) : State := on base (fun x => { x with pend := l })
/-- One that is to move to the other core. -/
def leaves : State := on heap (fun x => { x with st := .migrating, moveTo := some (1, 0) })
/-- A colony with a tree whose participants have all arrived. -/
def tree (s : State) : State :=
  (on s (fun x => { x with arrColony := true, st := .blocked, wait := some (.gen .colony 0) })).modColony 0 0 (fun c => { c with cores := true, tree := some 3 })

/-- R222, R26, R80: an `idle` that times out goes on; the watchdog reloads and leaves its cause, which a boundary takes. -/
theorem test_context_events :
    x? (exec (.idleTimeout X) (waiting base .idle 0)) (fun x => (x.st, x.pc)) = some (.ready, 0x01000042) ∧
    x? (exec (.watchdogExpiry X) (on base (fun x => { x with cwdog := 0x700000001 }))) (fun x => (x.cwdog, x.pend)) =
      some (0x700000007, [(.watchdog, 7)]) ∧
    x? (exec (.asyncCauseTaken X) (on (raised [(.watchdog, 7)]) (fun x => { x with ctvec := 0x01000002 }))) (fun x => (x.ctval, x.pend)) = some (7, []) ∧
    x? (exec (.plainRegisterWrite X 0x100 0xFFFFFFFFFFFFFFFF) (priv base)) (·.rtsel) = some 0xFFFFFFFF7FFF01FF := by decide

theorem wit_ContextEvents :
    (((waiting base .idle 0).ctx X).wait = some .idle ∧ ((waiting base .idle 0).ctx X).lim = some 0 ∧ ((waiting base .idle 5).ctx X).lim ≠ some 0) ∧
    (((waiting base (.mwait 4) 0).ctx X).wait = some (.mwait 4) ∧ roomForAll ((waiting base (.mwait 4) 0).core K)) ∧
    ((waiting base (.swl 4 2) 0).ctx X).wait = some (.swl 4 2) ∧
    (let s := waiting (port3 (idle .inp)) (.alt 1 3 0x101) 0
     (s.ctx X).wait = some (.alt 1 3 0x101) ∧ (0x101 : Word).getLsbD 8 = true ∧
      (∀ i, i < 8 → (0x101 : Word).getLsbD i = true → s.altReady X 3 true i = false) ∧ ((s.ctx X).calt.extractLsb' 0 4).toNat ≤ 8) ∧
    (let s := waiting world (.spawnFull W1 forager1) 0
     (s.ctx X).wait = some (.spawnFull W1 forager1) ∧ (s.translateVt (s.vtile V).ptile W1).2 = some 1) ∧
    (let x := (on base (fun x => { x with cwdog := 0x700000001 })).ctx X
     x.cwdog.extractLsb' 32 32 ≠ 0 ∧ x.cwdog.extractLsb' 0 32 = 1 ∧ x.st = .ready) ∧ base.running V = true ∧
    (base.ctx X).cwdog.extractLsb' 0 32 ≠ 1 ∧ (base.ctx X).pend = [] ∧ (away base).running V = false ∧
    (let x := (raised [(.watchdog, 7)]).ctx X
     x.pend = [(.watchdog, 7)] ∧ x.st = .ready ∧ x.prog = {} ∧ x.member = none) ∧
    (((priv base).ctx X).st ≠ .empty ∧ ((priv base).ctx X).cstat.getLsbD 10 = true) ∧ (base.ctx X).moveTo = none ∧
    ((leaves.ctx X).moveTo = some (1, 0) ∧ (leaves.ctx X).q = 0 ∧ (leaves.core K).h = 0 ∧ (leaves.core K).cache = [] ∧
      (leaves.core ⟨V, 1⟩).h = 0 ∧ (leaves.core ⟨V, 1⟩).cache = []) := by decide

theorem wit_ContextEvents_vtile :
    ((base.vtile V).migs = []) ∧
    (let s := base.modVt V (fun v => { v with migs := [(X, 0xD004)] })
     (s.vtile V).migs = [(X, 0xD004)] ∧ s.closing V = false ∧ s.wideCount V ≠ 0 ∧ (s.wideSlot V).isSome = true ∧ s.matOf X = []) ∧
    (let s := (base.modTile 0 (fun t => { t with wide := [] })).modVt V (fun v => { v with migs := [(X, 0xD004)] })
     s.closing V = false ∧ s.wideCount V = 0) ∧
    ((tree base).colony 0 0).cores = true ∧ ((tree base).colony 0 0).tree ≠ none ∧
    (tree base).gangs.all (fun e => decide (e.1.part ≠ 0) || decide (e.1.col ≠ 0) || decide (e.2.st = .resident)) = true ∧
    ((tree base).participants ⟨0, 0, 0, 0⟩ 0 .colony).all (fun c => (tree base).present c.vt) = true ∧
    (tree base).allArrived ⟨0, 0, 0, 0⟩ 0 .colony = true ∧ base.allArrived ⟨0, 0, 0, 0⟩ 0 .colony = false := by decide

/-- The fault agent with these messages offered. -/
def offers (l : List Msg) (seq : Nat) : State := (on base (fun x => { x with st := .parked })).modPart 0 (fun q => { q with offered := l, lastSeq := seq })
/-- A message about the process; one of an engine. -/
def msg1 (eng : Bool) : Msg := { part := 0, col := 0, cause := 6, eng := eng, ctx := some X }
/-- The curator's context; a command of this opcode, SEQ and colony about the process, whose message was 7. -/
def CC : CtxId := ⟨⟨0, 63, 0, 0⟩, 0, 0⟩
@[inherit_doc CC]
def command (w0 w1 w2 w3 : Word) : State :=
  let s := base.modPart 0 (fun q => { q with cmdQ := [(CC, [w0, w1, w2, w3])] })
  let s := s.modCtx CC (fun x => { x with st := .blocked, wait := some (.chs 255) })
  let s := s.putVt CC.vt { exist := true, res := true, issue := true }
  on s (fun x => { x with st := .parked, parked := { seq := some 7 } })
/-- The reason its next command fails a check for, 0 for none. -/
def reason (s : State) (ws : List Word) : Nat := ((s.modPart 0 (fun q => { q with cmdQ := [] })).cmdTaken CC).cmdReason 0 ws

/-- R88, R91: SEQ counts to 2^32 - 1 and then from 1; RESUME and RESUME_AT. -/
theorem test_curator_port :
    (match exec (.faultMessageAccepted 0) (offers [msg1 false] 0xFFFFFFFF) with
      | .next t => ((t.part 0).lastSeq, (t.part 0).faultQ.map (fun (m : Msg) => m.seq), (t.ctx X).parked.seq)
      | _ => (0, [], none)) = (1, [1], some 1) ∧
    x? (exec (.resume 0) (command 0x700000001 0 0 0)) (·.st) = some .parked ∧
    x? (exec (.resume 0) (command 0x700000001 0x100000000000 0 0)) (fun x => (x.st, x.parked.seq)) = some (.ready, none) ∧
    x? (exec (.resumeAt 0) (command 0x700000002 0x100000000000 0x01000040 0)) (fun x => (x.st, x.pc)) = some (.ready, 0x01000040) ∧
    x? (exec (.remove 0) (command 0x700000003 0x100000000000 0 0)) (·.st) = some .empty := by decide

theorem wit_FaultMessages :
    (base.part 0).offered = [] ∧ ((offers [msg1 false] 7).part 0).offered = [msg1 false] ∧
    ((offers [msg1 false] 7).part 0).faultQ.length < 65536 ∧ (msg1 false).eng = false ∧ (msg1 false).ctx = some X ∧ (msg1 false).kind = 0 ∧
    ((offers [msg1 false] 7).ctx X).st = .parked ∧ ((offers [msg1 false] 7).ctx X).parked = {} := by decide

theorem wit_CuratorCommands :
    nextCommand (command 0x700000001 0x100000000000 0 0) 0 1 CC [0x700000001, 0x100000000000, 0, 0] [] ∧
    reason (command 0x700000001 0x100000000000 0 0) [0x700000001, 0x100000000000, 0, 0] = 0 ∧ reason (command 0x800000001 0x100000000000 0 0) [0x800000001, 0x100000000000, 0, 0] ≠ 0 ∧
    reason (command 0x700000002 0x100000000000 0x01000040 0) [0x700000002, 0x100000000000, 0x01000040, 0] = 0 ∧
    reason (command 0x700000003 0x100000000000 0 0) [0x700000003, 0x100000000000, 0, 0] = 0 ∧
    reason (command 0x700000004 0x100000000000 0x1C 0) [0x700000004, 0x100000000000, 0x1C, 0] = 0 ∧
    (command 0x700000001 0x100000000000 0 0).namedCtx 0 0 0x100000000000 7 = some X ∧ ((command 0x700000001 0x100000000000 0 0).ctx X).parked.seq = some 7 := by decide

/-- The process receives from (1, 0) on port 3; the process there receives from it on port 4; a probe. -/
def stuck (l : Nat) (ps : List Probe) : State :=
  let w (q : Nat) (x : Ctx) : Ctx := { x with st := .blocked, why := .channel, wait := some (.chr q 1 2), stamp := 9, probeLeft := l }
  let s := on (port3 { idle .inp with st := .own }) (w 3)
  let s := (s.modCtx ⟨W1, 0, 0⟩ (w 4)).modPort peer4 (fun _ => { idle .inp with st := .own, peer := ⟨V, 6⟩ })
  { s with probes := ps, time := 900 }

/-- R328, R330: two processes that wait for each other are reported, each as a member. -/
theorem test_deadlock :
    x? (exec (.deadlockReport X) (stuck 5 [⟨X, 800, 0⟩])) (·.knot) = some true ∧
    (match exec (.deadlockReport X) (stuck 5 [⟨X, 800, 0⟩]) with
      | .next t => (t.part 0).offered.map (fun (m : Msg) => (m.cause, m.w4))
      | _ => []) = [(0x21, 0x10002), (0x21, 0)] := by decide

theorem wit_DeadlockProbes :
    base.counts X = false ∧ (stuck 0 []).counts X = true ∧ ((stuck 0 []).ctx X).probeLeft = 0 ∧ ((stuck 5 []).ctx X).probeLeft ≠ 0 ∧
    (stuck 0 []).probes.any (fun p => decide (p.init = X)) = false ∧ (stuck 0 [⟨X, 800, 0⟩]).probes.any (fun p => decide (p.init = X)) = true ∧
    (stuck 5 [⟨X, 800, 0⟩]).probes.find? (fun p => decide (p.init = X)) = some ⟨X, 800, 0⟩ ∧
    (stuck 5 [⟨X, 800, 0⟩]).probeLost ⟨X, 800, 0⟩ = false ∧
    (stuck 5 [⟨X, 800, 0⟩]).reached ⟨X, 800, 0⟩ = some [X, ⟨W1, 0, 0⟩] ∧ [X, ⟨W1, 0, 0⟩].all (stuck 5 []).saved? = true ∧
    (stuck 5 []).stirs [X] = false ∧ { stuck 5 [] with net := [{ src := peer4, dst := ⟨V, 3⟩, body := .offer .ready }] }.stirs [X] = true := by decide

/-! ### Power, heat, tokens, records, keys, grades and remaps -/

/-- A quad of tile 0. -/
abbrev Q (n : Nat) : QuadId := ⟨0, n⟩
/-- The state with quad n changed. -/
def quadIn (s : State) (n : Nat) (f : Quad → Quad) : State := s.modQuad (Q n) f
/-- A quad after a step. -/
def q? {A : Type} (r : Step) (n : Nat) (f : Quad → A) : Option A := match r with
  | .next t => some (f (t.quad (Q n)))
  | _ => none
/-- Quad 0 throttled at 95 degrees. -/
def hot : State := quadIn base 0 (fun x => { x with throttled := true, reading := 95 })
/-- A thermal migration under way: core 0 from physical core 0 to 4. -/
def moves : State := { base with thermals := [⟨V, 0, 0, 4⟩] }
/-- Every process of the vtile at rest. -/
def resting : State := waiting base .idle 5
/-- A cap that its partition's draw does not pass. -/
def capped (w : Nat) : State := base.modPart 0 (fun p => { p with cap := some w })

/-- R434 to R436, R440, R441: a grant of OP0 to a busy quad; a throttled quad goes to OP2; the sleep of one at rest. -/
theorem test_power :
    q? (exec (.operatingPointGrant (Q 0) 0) (quadIn base 0 (fun x => { x with granted := some 1, op := 1 }))) 0 (fun x => (x.granted, x.op, x.trans, x.stall)) =
      some (some 0, 0, 600000, 601) ∧
    q? (exec (.thermalSample (Q 0) 95) base) 0 (fun x => (x.throttled, x.op)) = some (true, 2) ∧
    q? (exec (.thermalSample (Q 0) 94) base) 0 (fun x => (x.throttled, x.op)) = some (false, 0) ∧
    q? (exec (.quadSleep (Q 0)) (quadIn resting 0 (fun x => { x with idle := 6000 }))) 0 (·.power) = some .asleep ∧
    q? (exec (.quadWake (Q 0)) (quadIn base 0 (fun x => { x with power := .asleep }))) 0 (fun x => (x.power, x.wake)) = some (.waking, 1200) ∧
    (match exec (.thermalMigration (Q 0)) hot with
      | .next t => t.thermals
      | _ => []) = [⟨V, 0, 0, 4⟩] ∧
    (match exec (.thermalMigrationComplete 0) moves with
      | .next t => ((t.vtile V).lpct.getD 0 0, (t.vtile V).lpct.getD 4 0, (t.part 0).offered.map (fun (m : Msg) => (m.cause, m.w5)))
      | _ => (9, 9, [])) = (4, 0, [(0x22, 4)]) := by decide

theorem wit_OperatingPoints :
    (Q 11).quad < 12 ∧ (base.quad (Q 0)).granted.getD 0 = 0 ∧ ((quadIn base 0 (fun x => { x with granted := some 3 })).quad (Q 0)).granted.getD 0 = 3 ∧
    (base.tile 5).owner = none ∧ base.mayLower ⟨5, 0⟩ = false ∧
    (let x := (quadIn base 0 (fun x => { x with pendOp := some 2 })).quad (Q 0)
     x.trans = 0 ∧ x.pendOp.isSome = true) ∧
    (base.quad (Q 0)).pendOp = none ∧ ((quadIn base 0 (fun x => { x with trans := 9 })).quad (Q 0)).trans ≠ 0 ∧
    ((quadIn base 0 (fun x => { x with stall := 1 })).quad (Q 0)).stall = 1 ∧ (base.quad (Q 0)).stall ≠ 1 := by decide
theorem wit_OperatingPoints_cap : ∃ w, ((capped w).tile 0).owner = some 0 ∧ ((capped w).part 0).cap = some w ∧ (capped w).draw 0 ≤ w :=
  ⟨base.draw 0, rfl, rfl, Nat.le_of_eq (by
    have h : ∀ w, (capped w).ownedTiles 0 = base.ownedTiles 0 := fun w => by
      unfold State.ownedTiles
      rfl
    have h' : ∀ w, (capped w).time = base.time := fun w => rfl
    simp only [State.draw, h, h'])⟩

theorem wit_Throttling :
    (0 : Nat) < base.form.tiles ∧ base.fw.threshold = 95 ∧ (hot.quad (Q 0)).throttled = true ∧ (base.quad (Q 0)).throttled = false ∧
    base.form.tiles ≤ 2304 ∧
    (let x := (quadIn hot 0 (fun x => { x with hold := 600000 })).quad (Q 0)
     x.throttled = true ∧ 600000 ≤ x.hold) ∧ (hot.quad (Q 0)).hold < 600000 := by decide

theorem wit_ThermalMigration :
    (hot.hotCore (Q 0) = some K ∧ hot.coolCore (Q 0) K = some 4 ∧ (hot.quad (Q 0)).throttled = true ∧ hot.running K.vt = true ∧
      ((hot.stopOf K.vt).bind (·.t)) = none ∧ (hot.tile 0).lastMove = none ∧ (hot.core K).moving = false ∧
      (∀ m ∈ hot.thermals, m.vt ≠ K.vt) ∧ (hot.core K).matPhase ≠ .effect ∧ (hot.core K).matPhase ≠ .completion ∧ hot.atBoundary K = true) ∧ (on hot (fun x => { x with prog := { need := .fill 3 false }, live := some ⟨⟨0, 1, 2, [], []⟩, 1, 2, 3, 0⟩ })).atBoundary K = false ∧
    (let s := { hot.modTile 0 (fun t => { t with lastMove := some 5 }) with time := 600005 }
     (s.tile 0).lastMove = some 5 ∧ 5 + 600000 ≤ s.time ∧ s.coolCore (Q 0) K = some 4) ∧
    (base.quad (Q 0)).throttled = false ∧ base.hotCore (Q 0) = some K ∧ base.hotCore (Q 1) = none ∧
    (moves.thermals = [⟨V, 0, 0, 4⟩] ∧ (moves.vtile V).ptile = 0 ∧ moves.written? K = true ∧
      moves.written? ⟨V, moves.lcAt V 4⟩ = true ∧ (moves.quad (Q 0)).stall = 0 ∧ (moves.quad (Q 1)).stall = 0) := by decide

theorem wit_SleepAndWindows :
    (base.bank 3).win = 8 ∧ ({ base with banks := [(3, { win := 32 })] }.bank 3).win = 32 ∧ 3 < base.form.stacks * 16 ∧ base.form.stacks * 16 ≤ 99999 ∧
    (let s := quadIn resting 0 (fun x => { x with idle := 6000 })
     (s.quad (Q 0)).power = .awake ∧ 6000 ≤ (s.quad (Q 0)).idle ∧
      (∀ k ∈ s.coresOn (Q 0), (s.core k).copyQ = [] ∧ (s.core k).matQ = [] ∧ ∀ c ∈ k.slots, (s.ctx c).restful = true) ∧
      (s.copyHeads (Q 0)).all (fun h => match h.2 with
        | .fifo _ => true
        | .bulk _ => false) = true) ∧
    (let s := quadIn base 0 (fun x => { x with power := .asleep })
     (s.quad (Q 0)).power = .asleep ∧ ¬ (∀ k ∈ s.coresOn (Q 0), (s.core k).copyQ = [] ∧ (s.core k).matQ = [] ∧ ∀ c ∈ k.slots, (s.ctx c).restful = true)) ∧
    (let s := quadIn (on base (fun x => { x with prog := { need := .quad 3 } })) 3 (fun x => { x with power := .asleep })
     (s.quad (Q 3)).power = .asleep ∧ (s.tile 0).vtile = some V ∧ (s.ctx X).prog.need = .quad 3) ∧
    (let x := (quadIn base 0 (fun x => { x with power := .waking })).quad (Q 0)
     x.power = .waking ∧ x.wake = 0) ∧
    (base.quad (Q 0)).power ≠ .waking ∧ (base.tile 5).vtile = none ∧ 5 < base.form.tiles ∧ base.outstanding ⟨5, 0⟩ = 0 ∧ (base.tile 0).vtile ≠ none ∧ posts.outstanding (Q 1) ≠ 0 := by decide

/-- At the first refill boundary: partition 1 owes partition 2 so many tokens, which has recalled them or not. -/
def owes (d : Nat) (rec : Bool) : State :=
  let s := base.modPart 1 (fun p => { p with rate := 10, depth := 100, tokens := 5, debt := NMap.set 0 [] 2 d })
  let s := s.modPart 2 (fun p => { p with rate := 4, depth := 50, tokens := -3, recalled := rec })
  { s with time := 600 }
/-- The tokens of partitions 1 and 2 after a refill, and the debt that is left. -/
def refilled (s : State) : Option (Int × Int × Nat) := match exec .tokenRefill s with
  | .next t => some ((t.part 1).tokens, (t.part 2).tokens, NMap.get 0 (t.part 1).debt 2)
  | _ => none

/-- R425, R426: without a debt; half of a refill of 10 repays; a recall repays all at once. -/
theorem test_refill :
    refilled (owes 0 false) = some (15, 1, 0) ∧ refilled (owes 20 false) = some (10, 6, 15) ∧ refilled (owes 20 true) = some (-5, 21, 0) ∧
    refilled { owes 20 false with time := 599 } = some (5, -3, 20) := by decide

theorem wit_TokenRefill :
    (owes 20 true).refills < (owes 20 true).time / 600 ∧ ¬ base.refills < base.time / 600 ∧
    (∀ b, b < 16 → ∀ l, l < 16 → NMap.get 0 ((owes 0 false).part b).debt l = 0) ∧
    NMap.get 0 ((owes 20 true).part 1).debt 2 ≠ 0 ∧
    (∀ i, i < 16 → ∀ j, j < 16 → ¬ (i = 1 ∧ j = 2) → NMap.get 0 ((owes 20 true).part i).debt j = 0) := by decide

/-- A partition whose interval of 1 s is over. -/
def logDue : State := { base with time := 600000000 }

/-- R428: no record closes one cycle early. -/
theorem test_record :
    (match exec (.logIntervalClose 0) { base with time := 599999999 } with
      | .next t => (t.part 0).records.length
      | _ => 9) = 0 := by decide

theorem wit_AccessionRecords :
    (logDue.part 0).valid = true ∧ (logDue.part 0).logLast + (logDue.part 0).logInt * 600000 ≤ logDue.time ∧
    (logDue.part 0).records.length < 65536 ∧ ¬ (base.part 0).logLast + (base.part 0).logInt * 600000 ≤ base.time := by decide
/-- The record that a full ring would close is lost (R430). -/
theorem wit_AccessionRecords_full (r : Record) :
    let s := logDue.modPart 0 (fun p => { p with records := List.replicate 65536 r })
    (s.part 0).valid = true ∧ (s.part 0).logLast + (s.part 0).logInt * 600000 ≤ s.time ∧ 65536 ≤ (s.part 0).records.length :=
  ⟨rfl, by show 0 + 1000 * 600000 ≤ 600000000; decide, Nat.le_of_eq (List.length_replicate ..).symm⟩

/-- A key change of partition 0, whose granule 1 is in use, with these lines done. -/
def rekeys (l : NSet) : State := heap.modPart 0 (fun p => { p with newkey := some 5, rekeyed := l })
/-- A grade change of granule 1 to grade 2; a remap of stack 2 at this line. -/
def regrades (s : State) : State := { s with regrades := [⟨1, 2, 16, 7⟩], side := [(1024, 3), (2048, 3)] }
@[inherit_doc regrades]
def remapsAt (l : Nat) : State := { base with remaps := [⟨2, 9, l, some 4⟩] }

/-- R246, R242, R241: a line is done; the granule's grade changes and its side bits are cleared; the last line of a channel. -/
theorem test_upkeep :
    (match exec (.keyReencryptLine 1025) (rekeys [1024]) with
      | .next t => (t.part 0).rekeyed
      | _ => []) = [1024, 1025] ∧
    (match exec (.gradeReencode 1) (regrades heap) with
      | .next t => (NMap.get 0 t.granules 1, t.side, t.regrades.length)
      | _ => (0, [], 9)) = (0x50, [(2048, 3)], 0) ∧
    (match exec (.hbmRemapLineCopy 2) (remapsAt 0x3FFFFFF) with
      | .next t => (t.spare, t.remaps.length)
      | _ => ([], 9)) = ([(2, 10)], 0) := by decide

theorem wit_MemoryUpkeep :
    ((NMap.get 0 (rekeys []).granules 1).getLsbD 4 = true ∧ (rekeys []).cleared 1 = false ∧ ((rekeys []).part 0).newkey.isSome = true ∧
      (rekeys []).homeFree (1024 * 64) = true ∧ NSet.mem ((rekeys []).part 0).rekeyed 1024 = false ∧ ((NMap.get 0 (rekeys []).granules 1).extractLsb' 0 4).toNat = 0) ∧
    heap.regrades = [] ∧ (regrades heap).writesTo 1 = false ∧ NSet.mem (regrades heap).zeroing 1 = false ∧
    NSet.mem (regrades { heap with zeroing := [1] }).zeroing 1 = true ∧
    (remapsAt 0x3FFFFFE).remaps = [⟨2, 9, 0x3FFFFFE, some 4⟩] ∧ 0x3FFFFFE + 1 < 2 ^ 26 ∧ 2 ^ 26 ≤ 0x3FFFFFF + 1 := by decide
/-- The last line of the granule ends the key change. -/
theorem wit_MemoryUpkeep_last : (rekeys ((List.range 1024).map (· + 1024))).rekeyDone 0 = true ∧ (rekeys [1024]).rekeyDone 0 = false := by decide +kernel

/-! ### Stops, saves, placement and tests -/

/-- The gang of the process; a second one of its colony. -/
abbrev G : GangId := ⟨0, 0, 0⟩
@[inherit_doc G]
abbrev G1 : GangId := ⟨0, 0, 1⟩
/-- A gang after a step. -/
def gang? {A : Type} (r : Step) (g : GangId) (f : Gang → A) : Option A := match r with
  | .next t => some (f (t.gang g))
  | _ => none
/-- A small device whose gang is being stopped. -/
def stops (h : Halt) : State := { base.modGang G (fun g => { g with stopping := true }) with form := .sd64, stops := [h] }
/-- A stop at its start; with its count agreed at 4,096; halted, every router swept; the save under way. -/
def halt0 : Halt := { part := 0, gangs := [G], why := .quantum }
@[inherit_doc halt0]
def halt1 : Halt := { halt0 with t := some 4096, tiles := [(V, 0)] }
@[inherit_doc halt0]
def halt2 : Halt := { halt1 with halted := true, swept := List.range 64 }
@[inherit_doc halt0]
def halt3 : Halt := { halt2 with saving := [V] }
/-- The same with the time. -/
def stopsAt (h : Halt) (n : Nat) : State := { stops h with time := n }

/-- R95, R98, R99, R352: the notice, the count, the last save puts the gang at the tail; a save that is late loses it. -/
theorem test_stop :
    (match exec (.stopNotice G 4096) (stops halt0) with
      | .next t => t.stops
      | _ => []) = [halt1] ∧
    (match exec (.stopCount G) (stopsAt halt1 4096) with
      | .next t => ((t.vtile V).res, (t.vtile V).issue)
      | _ => (true, true)) = (false, false) ∧
    gang? (exec (.tileSaveDone V) (stopsAt halt3 5000)) G (·.st) = some .queued ∧
    gang? (exec (.saveTimeout G) (stopsAt halt3 1204096)) G (·.st) = some .lost ∧
    gang? (exec (.saveTimeout G) (stopsAt halt3 1204095)) G (·.st) = some .resident := by decide

theorem wit_StopNoticesAndFlush :
    base.haltOf G = none ∧ (stops halt0).haltOf G = some halt0 ∧ halt0.t = none ∧
    ((stops halt1).haltOf G = some halt1 ∧ halt1.halted = false ∧ 4096 ≤ (stopsAt halt1 3072).time + 1024 ∧ NSet.mem halt1.late 0 = false ∧
      halt1.tiles.find? (fun e => decide (e.2 = 0)) = some (V, 0) ∧ NMap.get 0 halt1.misses 0 < 2 ∧
      2 ≤ NMap.get 0 { halt1 with misses := [(0, 2)] }.misses 0) ∧
    (stopsAt halt1 4095).time < 4096 ∧ 4096 ≤ (stopsAt halt1 4096).time ∧ (∀ m ∈ (stopsAt halt1 4096).thermals, ∀ e ∈ halt1.tiles, e.1 ≠ m.vt) ∧
    halt2.halted = true ∧ 63 < (stops halt2).form.tiles ∧
    (((stops halt2).modTile 3 (fun t => { t with saveBuf := [{ src := peer4, dst := ⟨V, 3⟩, body := .ack }] })).tile 3).saveBuf =
      [{ src := peer4, dst := ⟨V, 3⟩, body := .ack }] ∧ ((stops halt2).tile 3).saveBuf = [] := by decide

theorem wit_SavesEndStops :
    base.stopOf V = none ∧
    ((stops halt2).stopOf V = some halt2 ∧ V ∉ halt2.saving ∧ (V, 0) ∈ halt2.tiles ∧ (stops halt2).settledVt V = true ∧
      (stops halt2).flushed halt2 = true) ∧ halt1.halted = false ∧ V ∈ halt3.saving ∧ V ∉ halt3.saved ∧
    (∃ e ∈ { halt3 with tiles := [(V, 0), (W1, 1)] }.tiles, e.1 ≠ V ∧ e.1 ∉ halt3.saved ∧ NSet.mem halt3.late e.2 = false) ∧
    ((stops halt3).stops = [halt3] ∧ halt3.gangs = [G] ∧ (stops halt3).gangOf V = G ∧ (∀ e ∈ halt3.tiles, e.1 = V ∨ e.1 ∈ halt3.saved) ∧
      (stops halt3).unitOf G = [G] ∧ ((stops halt3).part 0).curcol ≠ 0 ∧ ((stops halt3).gang G).st = .resident ∧
      halt3.why = .quantum ∧ ((stops halt3).gang G).summoned = false ∧ ((stops halt3).colony 0 0).cores = false) ∧
    (halt3.t = some 4096 ∧ 4096 + ((stops halt3).part 0).saveto * 600 ≤ (stopsAt halt3 1204096).time ∧
      (stopsAt halt3 1204095).time < 4096 + ((stops halt3).part 0).saveto * 600 ∧ NSet.mem halt3.late 0 = false ∧
      (∀ e ∈ halt3.tiles, e.2 = 0 → e.1 = V)) := by decide

/-- A second gang of one vtile waits in the run queue; its partition owns tile 1 as well, or not. -/
def queued (two : Bool) : State :=
  let s := (base.putVt W1 { exist := true, gang := 1 }).modGang G1 (fun g => { g with st := .queued })
  let s := if two then s.modTile 1 (fun t => { t with owner := some 0 }) else s
  s.modPart 0 (fun p => { p with runq := [(0, some 1)] })
/-- Its colony is co-resident, with no tree channel. -/
def treeless (s : State) : State := (s.modColony 0 0 (fun c => { c with cores := true })).modPart 0 (fun p => { p with runq := [(0, none)] })
/-- The second gang is on its way to tile 1, to start at 900. -/
def placed1 : State :=
  let s := (queued true).modGang G1 (fun g => { g with placing := true, start := some 900 })
  { s.modVt W1 (fun v => { v with ptile := 1 }) with time := 900 }

/-- R352, R100: the head of the queue is placed on the free tile; it starts at its count. -/
theorem test_placement :
    gang? (exec (.gangPlacement 0 900) (queued true)) G1 (fun g => (g.placing, g.start)) = some (true, some 900) ∧
    (match exec (.gangPlacement 0 900) (queued true) with
      | .next t => ((t.tile 1).vtile, (t.part 0).runq)
      | _ => (none, [])) = (some W1, []) ∧
    gang? (exec (.gangStartCount G1) placed1) G1 (fun g => (g.st, g.since)) = some (.resident, 900) ∧
    gang? (exec (.gangStartCount G1) { placed1 with time := 899 }) G1 (·.st) = some .queued ∧
    (match exec .treeChannelAssigned { treeless (queued true) with treeWait := [(0, 0)] } with
      | .next t => ((t.colony 0 0).tree, (t.part 0).runq)
      | _ => (none, [])) = (some 0, [(0, none)]) := by decide

theorem wit_Placement :
    ((([0, 1] : List Nat).Nodup) ∧ (base.assign [V] [0, 1]).isSome = true ∧ base.assign [V, W1] [0] = none) ∧
    (base.part 0).runq = [] ∧ (base.part 0).state = 1 ∧
    (((queued true).part 0).runq = [(0, some 1)] ∧ (queued true).entryGangs 0 (0, some 1) = [G1] ∧ (queued true).shortfall 0 [G1] = 0 ∧
      ((queued true).colony 0 0).cores = false ∧ (queued true).assign ((queued true).vtilesOf [G1]) ((queued true).freeTiles 0) = some [(W1, 1)] ∧
      (queued false).assign ((queued false).vtilesOf [G1]) ((queued false).freeTiles 0) = none ∧ (queued true).unitOf G1 = [G1] ∧
      (queued true).entryOf G1 = (0, some 1)) ∧
    (((queued false).putVt W2 { exist := true, gang := 1 }).shortfall 0 [G1] ≠ 0) ∧
    (let s := treeless (queued true)
     (s.part 0).runq = [(0, none)] ∧ s.entryGangs 0 (0, none) = [G, G1] ∧ s.shortfall 0 [G, G1] = 0 ∧ (s.colony 0 0).cores = true ∧
      (s.colony 0 0).tree = none ∧ s.freeTree = some 0 ∧ (s.part 0).curcol ≠ 0) ∧
    (base.gang G).placing = false ∧ (placed1.gang G1).placing = true ∧ (placed1.gang G1).start.getD 0 ≤ placed1.time ∧
    (placed1.part 0).parkQ = [] ∧ placed1.vtilesOf (placed1.unitOf G1) = [W1] ∧ base.treeWait = [] := by decide
/-- Every channel is held. -/
theorem wit_Placement_none :
    { treeless (queued true) with colonies := (List.range 32).map (fun k => ((0, k), { (treeless (queued true)).colony 0 0 with tree := some k })) }.freeTree = none := by
  decide

/-- A tile with a test under way of this unit, and no vtile. -/
def tests (u : UnitId) : State := { base.modTile 1 (fun t => { t with testing := true }) with tests := [⟨1, u⟩] }
/-- A partition that has been pre-empted. -/
def preempted : State := base.modPart 0 (fun p => { p with state := 2 })

/-- R352, R27, R103, R104: quanta, pre-emption, an error of a core, a test that finds a lasting fault. -/
theorem test_scheduling :
    gang? (exec (.quantumExpiry G) { base with time := 6000000 }) G (·.expired) = some true ∧
    gang? (exec (.quantumExpiry G) { base with time := 5999999 }) G (·.expired) = some false ∧
    gang? (exec (.partitionPreEmption 0) base) G (·.stopping) = some true ∧
    gang? (exec (.errorInAUnit 0 .core) base) G (·.stopping) = some true ∧
    (match exec (.selfTestComplete 1 (.sram 2 3) true) (tests (.sram 2 3)) with
      | .next t => (t.tile 1).spares
      | _ => []) = [(2, 1)] ∧
    (match exec (.selfTestComplete 1 .core true) (tests .core) with
      | .next t => (t.tile 1).retired
      | _ => false) = true := by decide

theorem wit_QuantaPreemptionTests :
    ((base.gang G).st = .resident ∧ (base.gang G).since + (base.part 0).quantum * 600000 ≤ { base with time := 6000000 }.time ∧ (base.part 0).runq = []) ∧
    (base.gang G1).st ≠ .resident ∧
    ((base.part 0).valid = true ∧ (base.part 0).state = 1 ∧ (base.part 1).valid = false ∧ (preempted.part 0).valid = true ∧ (preempted.part 0).state = 2 ∧
      (∀ h ∈ preempted.stops, h.part ≠ 0) ∧ preempted.upkeep.activating = false ∧ (preempted.part 0).heldSummons = [] ∧
      (∃ h ∈ (stops halt3).stops, h.part = 0)) ∧
    ((base.tile 0).retired = false ∧ (base.tile 0).vtile = some V ∧ (base.tile 0).owner = some 0 ∧ (base.gang (base.gangOf V)).placing = false ∧
      base.unitOf (base.gangOf V) = [G] ∧ ((base.modTile 3 (fun t => { t with retired := true })).tile 3).retired = true) ∧
    (⟨1, .core⟩ ∉ base.tests ∧ ⟨1, .sram 2 3⟩ ∈ (tests (.sram 2 3)).tests ∧ NMap.get 0 ((tests (.sram 2 3)).tile 1).spares 2 < 4 ∧
      4 ≤ NMap.get 0 (((tests (.sram 2 3)).modTile 1 (fun t => { t with spares := [(2, 4)] })).tile 1).spares 2 ∧
      ⟨1, .fp64 1⟩ ∈ (tests (.fp64 1)).tests ∧ ((tests (.fp64 1)).tile 1).vtile = none ∧ ⟨1, .core⟩ ∈ (tests .core).tests ∧
      (tests .core).tests.filter (fun e => decide (e ≠ ⟨1, .core⟩)) = [] ∧ (base.tile 0).vtile.isSome = true ∧
      ⟨1, .hbmRow 2 3⟩ ∈ (tests (.hbmRow 2 3)).tests ∧ ⟨1, .hbmChannel 2 3⟩ ∈ (tests (.hbmChannel 2 3)).tests ∧
      (∀ r ∈ (tests (.hbmChannel 2 3)).remaps, r.stack ≠ 2) ∧ NMap.get 0 (tests (.hbmChannel 2 3)).spare 2 = 0) := by decide

/-! ### Remote table access -/

/-- The process waits for its remote operation: RTSEL, RTGO and the words RTD0 and RTD1. -/
def remotes (s : State) (sel : Word) (go : Nat) (w0 w1 : Word) : State :=
  on s (fun x => { x with prog := { need := .remote }, rtsel := sel, rtgo := go, rtd := NMap.set 0 (NMap.set 0 [] 0 w0) 1 w1 })
/-- RTSEL of table code n and index i, of the vtile (0, 0) of colony 0. -/
def sel (n i : Nat) : Word := BitVec.ofNat 64 (n * 2 ^ 32 + i * 2 ^ 36)
/-- RTSTAT, RTD0 and RTD1 after an operation. -/
def rt? (r : Step) : Option (Word × Word × Word) := x? r (fun x => (x.rtstat, NMap.get 0 x.rtd 0, NMap.get 0 x.rtd 1))
/-- The declaration of an output port of width 2 to port 4 of (1, 0). -/
def portEntry : Word := 0x0000000000010413

/-- R375 to R386: a port is declared and read back; a busy one is not; a read beyond the last index; an absent colony; an empty code. -/
theorem test_remote_tables :
    rt? (exec (.rtgoPortWrite X) (remotes world (sel 1 3) 2 portEntry 0)) = some (0, portEntry, 0) ∧
    (port? (exec (.rtgoPortWrite X) (remotes world (sel 1 3) 2 portEntry 0)) 3).map (fun x => (x.decl, x.dir, x.width, x.peer)) = some (true, .out, 2, peer4) ∧
    rt? (exec (.rtgoPortRead X) (remotes (port3 { idle .out with max := 0 }) (sel 1 3) 1 5 6)) = some (0, portEntry, 0) ∧
    rt? (exec (.rtgoRefused X) (remotes (port3 { idle .out with st := .own }) (sel 1 3) 2 portEntry 0)) = some (1, portEntry, 0) ∧
    rt? (exec (.rtgoRefused X) (remotes world (sel 1 256) 1 5 6)) = some (2, 5, 6) ∧
    rt? (exec (.rtgoRefused X) (remotes world (sel 3 0 ||| 0x0A000000) 1 5 6)) = some (4, 5, 6) ∧
    rt? (exec (.rtgoRefused X) (remotes world (sel 3 0) 3 5 6)) = some (3, 5, 6) ∧
    rt? (exec (.rtgoLpctRead X) (remotes world (sel 7 47) 1 5 6)) = some (0, 47, 6) := by decide

theorem wit_RemoteTableEvents : readOf X 9 (.rtgoGranuleRead X) ∧ readOf X 3 (.rtgoVtileMapRead X) ∧ writeOf X 1 (.rtgoPortWrite X) := by
  simp [readOf, writeOf]

theorem wit_RemoteTableReads :
    remote (remotes world (sel 1 3) 1 0 0) X 1 1 ∧ (remotes world (sel 1 3) 1 0 0).rtRead 0 (sel 1 3) = .ok [0, 0] ∧
    remote (remotes world (sel 9 0x0FFFFFFF) 1 0 0) X 1 9 ∧ (remotes world (sel 9 0x0FFFFFFF) 1 0 0).rtRead 0 (sel 9 0x0FFFFFFF) = .error 2 ∧
    ¬ remote base X 1 1 ∧
    ((remotes world (sel 1 3) 2 0x1000 0).ctx X).rtgo = 2 ∧
    (remotes world (sel 1 3) 2 0x1000000000000000 0).rtWrite 0 ((remotes world (sel 1 3) 2 0x1000000000000000 0).ctx X) = .error 3 ∧
    selects (sel 1 255) V 1 255 ∧ selects (sel 1 256) V 1 256 ∧ inGrid world V ∧ ¬ inGrid world Wc ∧ (world.colony 0 0).live = true ∧
    (world.colony 0 5).live = false ∧ ((port3 (idle .out)).port ⟨V, 3⟩).decl = true ∧ (world.port ⟨V, 3⟩).decl = false ∧
    peer4.vt.part < 16 ∧ peer4.vt.col < 64 ∧ peer4.vt.x < 512 ∧ peer4.vt.y < 512 ∧ peer4.port < 256 ∧ (idle .out).width < 16 ∧
    world.present V = true := by decide

theorem wit_RemoteTableWrites :
    remote (remotes world (sel 1 3) 2 portEntry 0) X 2 1 ∧
    ((remotes world (sel 1 3) 2 portEntry 0).rtWrite 0 ((remotes world (sel 1 3) 2 portEntry 0).ctx X)).isOk = true ∧
    (let w0 := portEntry
     w0.extractLsb' 60 4 = 0 ∧ w0.extractLsb' 54 2 = 0 ∧ w0.extractLsb' 41 7 = 0 ∧ w0.extractLsb' 25 7 = 0 ∧ w0.extractLsb' 7 1 = 0 ∧
      w0.extractLsb' 8 8 ≠ 255 ∧ w0.getLsbD 0 = true ∧ (w0.extractLsb' 1 2).toNat = 1 ∧ (w0.extractLsb' 3 4).toNat = 2) ∧
    (portEntry ^^^ 1).getLsbD 0 = false ∧ (world.port ⟨V, 3⟩).st = .idle ∧ ((port3 { idle .out with st := .own }).port ⟨V, 3⟩).st ≠ .idle ∧
    ((0x00000003 : Word).extractLsb' 20 44 = 0 ∧ (0x00000003 : Word).extractLsb' 14 2 = 0 ∧ (0x00000003 : Word).extractLsb' 3 5 = 0 ∧
      (0x00000003 : Word).getLsbD 0 = true ∧ ((0x00000003 : Word).extractLsb' 16 4).toNat = V.part ∧ ((0x00010003 : Word).extractLsb' 16 4).toNat ≠ V.part) ∧
    ((0x10200 : Word).extractLsb' 0 9 = 0 ∧ (0x10200 : Word).extractLsb' 41 23 = 0 ∧ world.granOk 0 1 = true ∧ world.granOk 0 2 = false) ∧
    (world.vtile V).spill = [] ∧ world.spillGranules V 0 ≤ world.sysGranules 0 ∧ ¬ world.spillGranules V (2 ^ 20) ≤ world.sysGranules 0 ∧
    ((world.modVt V (fun v => { v with spill := [forager1] })).vtile V).spill ≠ [] ∧ (world.colony 0 0).live = true ∧
    inGrid (world.modColony 0 63 (fun c => { c with live := true, gridX := 1, gridY := 1 })) ⟨0, (world.part 0).curcol, 0, 0⟩ := by decide

/-! ### An image -/

/-- An image of one vtile with no code, signed under a key that the test chose (r = s = the digest, so that the key is the point
of that x coordinate less the base point). Its fields follow R75, R76. -/
def image1 : List Byte :=
  leBytes 4 0x4C434E51 ++ leBytes 2 1 ++ leBytes 2 0 ++ leBytes 2 1 ++ leBytes 2 1 ++ leBytes 2 1 ++ leBytes 2 0 ++ leBytes 8 0 ++
  leBytes 8 226 ++ leBytes 8 128 ++ leBytes 8 130 ++ leBytes 8 0 ++ leBytes 8 130 ++ leBytes 8 0 ++ leBytes 8 130 ++ leBytes 8 0 ++
  leBytes 40 0 ++ leBytes 2 0 ++ beBytes 48 digest1 ++ beBytes 48 digest1
where
  digest1 : Nat := 0x603EC87E0C0E8CCC000747C6BDDB2037A0D518FF960F754E837DAB71DD48FB29B567284E096675AD0AFF6E96678EBB9B
/-- The key. -/
def imageKey1 : List Byte :=
  beBytes 48 0x780A5F525C64C2D47DCA02F52132C2B2068BDFAD4AB7F1551977B0E24DCB8FC29C1032219C8282CAEC07BBAD79D91A8E ++
  beBytes 48 0x632F5E7B793AB1BDD6C1745E54BE41864088002D6A3D8F3718A2E0C101ADFB1C8AF54550D1CDB433CDAE3952A41275BD

/-- The digest, the signature and the tables of the image are good. -/
theorem wit_image : imgStatus imageKey1 image1 = 0 := by decide +kernel

/-! ### The host -/

/-- A request at the head of the ring of function f. -/
def req (s : State) (f : Nat) (ws : List Word) : State := s.modFunc f (fun x => { x with ring := [ws] })
/-- A function after a step. -/
def func? {A : Type} (r : Step) (f : Nat) (g : Func → A) : Option A := match r with
  | .next t => some (g (t.func f))
  | _ => none
/-- The status of the last response of function f, and its results. -/
def resp? (r : Step) (f : Nat) : Option (List Word) := (func? r f (·.resps)).bind (·.getLast?)
/-- Word 0 of a request: its opcode, with TAG 7. -/
def op (n : Nat) : Word := BitVec.ofNat 64 (n + 0x700)
/-- What `admitted` asks for, part by part. -/
theorem admits {s : State} {f : Nat} {ws : List Word} {j : Instr} (who : From) (o k : Nat) (h : next? s f ws)
    (c : (ws.getD 0 0).extractLsb' 24 40 = 0) (ho : opOf ws = o) (hk : codeOf ws = k) (hr : requestOf f who o k j)
    (h1 : who = .pfOnly → f = 16) (h2 : who = .vfOnly → f ≠ 16) (hv : f ≠ 16 → (s.part f).valid = true) : admitted s f ws j :=
  ⟨h, c, ⟨who, by rw [ho, hk]; exact hr, h1, h2⟩, hv⟩

/-- R446, R449: a doorbell of one entry; one that runs back; an unknown opcode answers 9; an event taken. -/
theorem test_rings :
    func? (exec (.doorbell 0 1 [[op 5, 0, 0, 0, 0, 0, 0, 0]]) base) 0 (·.ring.length) = some 1 ∧
    func? (exec (.doorbell 0 257 []) base) 0 (·.reqErr) = some true ∧
    resp? (exec (.unknownRequest 0) (req base 0 [op 0x14, 0, 0, 0, 0, 0, 0, 0])) 0 = some [0x709] ∧
    func? (exec (.eventDoorbell 0 1) (base.hostEvent 0 [3, 4])) 0 (fun x => (x.evTaken, x.evRing)) = some (1, []) ∧
    func? (exec (.errorBitsClear 0 1) (base.modFunc 0 (fun x => { x with reqErr := true, evErr := true }))) 0 (fun x => (x.reqErr, x.evErr)) =
      some (false, true) := by decide

theorem wit_HostRings :
    ((base.func 0).events = [] ∧ (base.func 0).evRing.length < 256 ∧
      (base.modFunc 0 (fun x => { x with events := [[3]] })).func 0 ≠ base.func 0 ∧
      ((base.modFunc 0 (fun x => { x with evRing := List.replicate 256 [3] })).func 0).evRing.length = 256) ∧
    ((BitVec.ofNat 32 0) - (BitVec.ofNat 32 (base.func 0).taken)).toNat = 0 ∧
    ((BitVec.ofNat 32 257) - (BitVec.ofNat 32 (base.func 0).taken)).toNat = 257 ∧
    ((BitVec.ofNat 32 1) - (BitVec.ofNat 32 (base.func 0).taken)).toNat = (base.func 0).ring.length + [[op 5, 0, 0, 0, 0, 0, 0, 0]].length ∧
    ((BitVec.ofNat 32 1) - (BitVec.ofNat 32 ((base.hostEvent 0 [3, 4]).func 0).evTaken)).toNat = ((base.hostEvent 0 [3, 4]).func 0).evRing.length ∧
    (base.func 0).evRing.length < ((BitVec.ofNat 32 1) - (BitVec.ofNat 32 (base.func 0).evTaken)).toNat ∧
    next? (req base 0 [op 0x14]) 0 [op 0x14] ∧ ([op 0x14].getD 0 0).extractLsb' 24 40 = 0 ∧ (base.part 0).valid = true ∧ opOf [op 0x14] = 0x14 ∧
    opOf [op 4, 11] = 4 ∧ codeOf [op 4, 11] = 11 ∧ opOf [op 0x13] = 0x13 := by decide

theorem wit_HostRequests : requestOf 16 .pfOnly 4 1 (.setSaveto 16) ∧ requestOf 0 .vfOnly 7 0 (.keyChange 0) ∧
    requestOf 0 .both 0x0F 0 (.closeRecord 0 ⟨3, none⟩) ∧ requestOf 0 .pfOnly 0x12 0 (.activateFirmware 0) ∧
    requestOf 16 .vfOnly 7 0 (.keyChange 16) := by simp [requestOf]
theorem wit_HostRequests_states :
    (base.func 0).ring = [] ∧ ((base.modFunc 0 (fun x => { x with busy := some 7 })).func 0).busy.isSome = true ∧
    next? (req base 0 [op 7]) 0 [op 7] ∧ opOf [op 7] ≠ 8 ∧ ([(0x01000007 : Word)].getD 0 0).extractLsb' 24 40 ≠ 0 ∧
    ([op 7].getD 0 0).extractLsb' 24 40 = 0 ∧ (base.part 3).valid = false ∧ (base.part 3).freed = false ∧
    ((base.modPart 3 (fun p => { p with freed := true })).part 3).freed = true ∧
    resp? (exec (.keyChange 0) (req base 0 [0x01000707])) 0 = some [0x709] ∧ resp? (exec (.keyChange 16) (req base 16 [op 7])) 16 = some [0x706] ∧
    resp? (exec (.keyChange 3) (req base 3 [op 7])) 3 = some [0x705] ∧ resp? (exec (.setQuantum 0) (req base 0 [op 4, 2, 5])) 0 = some [0x706] := by decide

/-- A partition of tile 3, granules 5 and 6, die 1. -/
def part1 : NewPart := ⟨[3], [], [5], [6], [1], [], 63, 2 ^ 20, List.replicate 96 0⟩
theorem test_partitions :
    resp? (exec (.createPartition 16 part1) (req base 16 [op 1])) 16 = some [0x700, 1] ∧
    resp? (exec (.createPartition 16 { part1 with tiles := [0] }) (req base 16 [op 1])) 16 = some [0x701] ∧
    resp? (exec (.createPartition 16 { part1 with imgKey := [] }) (req base 16 [op 1])) 16 = some [0x709] ∧
    resp? (exec (.freePartition 16 5) (req base 16 [op 2])) 16 = some [0x705] ∧
    gang? (exec (.freePartition 16 0) (req base 16 [op 2])) G (·.stopping) = some true := by decide

/-- Two partitions, the second without a tile. -/
def two : State := { base.modPart 2 (fun p => { p with valid := true, state := 1 }) with dies := [(1, some 0)] }
theorem wit_HostPartitions : admitted (req base 16 [op 1]) 16 [op 1] (.createPartition 16 part1) ∧
    admitted (req base 16 [op 2]) 16 [op 2] (.freePartition 16 0) ∧ admitted (req two 16 [op 3]) 16 [op 3] (.repartition 16 0 2 ⟨[0], [1], [(0, 1)]⟩) := by
  refine ⟨admits .pfOnly 1 0 ?_ ?_ ?_ ?_ ?_ ?_ ?_ ?_, admits .pfOnly 2 0 ?_ ?_ ?_ ?_ ?_ ?_ ?_ ?_, admits .pfOnly 3 0 ?_ ?_ ?_ ?_ ?_ ?_ ?_ ?_⟩ <;>
    first | decide | simp [requestOf]
theorem wit_HostPartitions_states :
    ((req base 16 [op 1]).popReq 16).newStatus part1 = 0 ∧ ((req base 16 [op 1]).popReq 16).newStatus { part1 with tiles := [0] } ≠ 0 ∧
    base.newStatus part1 = 0 ∧
    (base.part 1).valid = false ∧ (∀ n, n < 1 → (base.part n).valid = true) ∧ (base.part 0).valid = true ∧ (base.part 5).valid = false ∧
    (∀ x ∈ base.transfers, x.part ≠ 0 ∧ x.what ≠ .move 0) ∧
    (∃ x ∈ { base with transfers := [⟨16, 1, 0, .free, [], [], []⟩] }.transfers, x.part = 0 ∨ x.what = .move 0) ∧
    ((two.part 0).valid = true ∧ (two.part 2).valid = true ∧ (∀ t ∈ [0], (two.tile t).owner = some 0) ∧ NMap.get none two.dies 1 = some 0 ∧
      NMap.get none base.dies 1 = none ∧ two.transfers = [] ∧ 0 ∈ two.concerned [0] [1] [(0, 1)] ∧ (two.tile 0).vtile = some V ∧
      (two.gang (two.gangOf V)).placing = false) ∧ ¬ (∀ t ∈ [1], (two.tile t).owner = some 0) ∧
    (∃ x ∈ { two with transfers := [⟨16, 1, 0, .retire, [0], [], []⟩] }.transfers, ∃ t ∈ x.tiles, t ∈ [0]) ∧
    (∀ p, p < 16 → ((((List.range 16).foldl (fun (s : State) p => s.modPart p (fun q => { q with valid := true })) base).part p).valid = true)) := by
  decide

/-- A parameter request of partition 0. -/
def param (code v : Nat) : List Word := [op 4, BitVec.ofNat 64 code, BitVec.ofNat 64 v]
theorem test_parameters :
    resp? (exec (.setSaveto 16) (req base 16 (param 1 100))) 16 = some [0x700] ∧
    resp? (exec (.setSaveto 16) (req base 16 (param 1 99))) 16 = some [0x709] ∧
    resp? (exec (.setQuantum 16) (req base 16 (param 0x302 5))) 16 = some [0x705] ∧
    (match exec (.setLogInterval 16) (req base 16 (param 8 60000)) with
      | .next t => (t.part 0).logInt
      | _ => 0) = 60000 ∧
    resp? (exec (.setSummonPolicy 16) (req base 16 (param 9 1))) 16 = some [0x700] ∧
    func? (exec (.setScaleOutPortMode 16) (req base 16 [op 4, 0x5C000A, 1])) 16 (·.busy) = some (some 7) := by decide

theorem wit_HostParameters : admitted (req base 16 (param 1 100)) 16 (param 1 100) (.setSaveto 16) ∧
    admitted (req base 16 (param 2 1000)) 16 (param 2 1000) (.setQuantum 16) ∧ admitted (req base 16 (param 3 1)) 16 (param 3 1) (.setFquota 16) ∧
    admitted (req base 16 (param 4 0)) 16 (param 4 0) (.setRate 16) ∧ admitted (req base 16 (param 5 9)) 16 (param 5 9) (.setDepth 16) := by
  refine ⟨admits .pfOnly 4 1 ?_ ?_ ?_ ?_ ?_ ?_ ?_ ?_, admits .pfOnly 4 2 ?_ ?_ ?_ ?_ ?_ ?_ ?_ ?_, admits .pfOnly 4 3 ?_ ?_ ?_ ?_ ?_ ?_ ?_ ?_,
    admits .pfOnly 4 4 ?_ ?_ ?_ ?_ ?_ ?_ ?_ ?_, admits .pfOnly 4 5 ?_ ?_ ?_ ?_ ?_ ?_ ?_ ?_⟩ <;> first | decide | simp [requestOf]
theorem wit_HostParameters_more : admitted (req base 16 (param 6 1)) 16 (param 6 1) (.setLend 16) ∧
    admitted (req base 16 (param 8 10)) 16 (param 8 10) (.setLogInterval 16) ∧ admitted (req base 16 (param 7 0)) 16 (param 7 0) (.setPowerCap 16) ∧
    admitted (req base 16 (param 9 1)) 16 (param 9 1) (.setSummonPolicy 16) ∧
    admitted (req base 16 [op 4, 0x5C000A, 1]) 16 [op 4, 0x5C000A, 1] (.setScaleOutPortMode 16) := by
  refine ⟨admits .pfOnly 4 6 ?_ ?_ ?_ ?_ ?_ ?_ ?_ ?_, admits .pfOnly 4 8 ?_ ?_ ?_ ?_ ?_ ?_ ?_ ?_, admits .pfOnly 4 7 ?_ ?_ ?_ ?_ ?_ ?_ ?_ ?_,
    admits .pfOnly 4 9 ?_ ?_ ?_ ?_ ?_ ?_ ?_ ?_, admits .pfOnly 4 10 ?_ ?_ ?_ ?_ ?_ ?_ ?_ ?_⟩ <;> first | decide | simp [requestOf]
/-- The words past a request's are zero; the parameters stand in their ranges; a mode that waits. -/
theorem wit_HostParameters_states :
    (((param 1 100).getD 1 0).extractLsb' 12 52 = 0 ∧ (base.part 0).valid = true ∧ (base.part 3).valid = false ∧ 100 ≤ 100 ∧
      (∀ i, (param 1 100).getD (i + 3) 0 = 0) ∧ (base.colony 0 0).live = true ∧ (base.colony 0 9).live = false) ∧
    ((0x5C000A : Word).extractLsb' 23 41 = 0 ∧ (0x5C000A : Word).extractLsb' 8 10 = 0 ∧ ((0x5C000A : Word).extractLsb' 18 5).toNat = 23) ∧
    (NMap.get ({} : ScalePort) base.ports24 3).want = none ∧ (NMap.get ({} : ScalePort) { base with ports24 := [(3, { want := some (1, 7) })] }.ports24 3).want = some (1, 7) := by
  refine ⟨⟨?_, ?_, ?_, ?_, fun i => rfl, ?_, ?_⟩, ?_⟩ <;> decide

/-- Partition 0 with a window of granule 1 at offset 0, to write or to read. -/
def window (wr : Bool) : State := heap.modFunc 0 (fun x => { x with windows := [⟨0, 1, 1, wr⟩] })
theorem test_host_memory :
    resp? (exec (.mapWindow 0 0 1 1 true) (req heap 0 [op 5])) 0 = some [0x700] ∧ resp? (exec (.mapWindow 0 0 2 1 true) (req heap 0 [op 5])) 0 = some [0x705] ∧
    resp? (exec (.mapWindow 0 8 1 1 true) (req heap 0 [op 5])) 0 = some [0x709] ∧
    mem? (exec (.bar4Write 0 8 [0x11, 0x22]) (window true)) 0x10008 2 = some 0x2211 ∧
    mem? (exec (.bar4Write 0 8 [0x11, 0x22]) (window false)) 0x10008 2 = some 0 ∧
    resp? (exec (.gradeChange 0 1 3) (req heap 0 [op 6])) 0 = some [0x709] ∧ func? (exec (.gradeChange 0 1 2) (req heap 0 [op 6])) 0 (·.busy) = some (some 7) ∧
    resp? (exec (.galleryWrite 0 0 0x7FFFFFFFFFFF [1]) (req heap 0 [op 9])) 0 = some [0x709] := by decide

theorem wit_HostMemory : admitted (req heap 0 [op 5]) 0 [op 5] (.mapWindow 0 0 1 1 true) ∧ admitted (req heap 0 [op 6]) 0 [op 6] (.gradeChange 0 1 2) ∧
    admitted (req heap 0 [op 7]) 0 [op 7] (.keyChange 0) ∧ admitted (req heap 0 [op 9]) 0 [op 9] (.galleryWrite 0 0 0x800000000000 [1]) := by
  refine ⟨admits .vfOnly 5 0 ?_ ?_ ?_ ?_ ?_ ?_ ?_ ?_, admits .vfOnly 6 0 ?_ ?_ ?_ ?_ ?_ ?_ ?_ ?_, admits .vfOnly 7 0 ?_ ?_ ?_ ?_ ?_ ?_ ?_ ?_,
    admits .vfOnly 9 0 ?_ ?_ ?_ ?_ ?_ ?_ ?_ ?_⟩ <;> first | decide | simp [requestOf]
theorem wit_HostMemory_states :
    (0 : Nat) % 65536 = 0 ∧ heap.holdsGranule 0 1 = true ∧ heap.holdsGranule 0 2 = false ∧ (NMap.get 0 heap.granules 1).getLsbD 7 = false ∧
    (NMap.get 0 { heap with granules := [(1, 0x90)] }.granules 1).getLsbD 7 = true ∧ { heap with granules := [(1, 0x90)] }.holdsGranule 0 1 = true ∧
    (∀ x ∈ heap.regrades, x.gran ≠ 1) ∧ (heap.part 0).newkey = none ∧ ((rekeys []).part 0).newkey.isSome = true ∧
    heap.rekeyDone 0 = false ∧ (heap.part 0).rekeyed = [] ∧
    (0xFFFFFFFFFFFF : Nat) + [(1 : Byte)].length ≤ 0x1000000000000 ∧ (heap.colony 0 0).live = true ∧ (heap.colony 0 9).live = false ∧
    heap.pageMapped 0 0 0x800000000000 = false ∧ (walks 0x80 leaf1).pageMapped 0 0 0x5000 = true ∧
    ((window true).func 0).held = [] ∧ ((window true).hostGate 0 8 2).2 = true ∧ (0x10008 : Nat) % 64 = 8 % 64 ∧ (window true).bar4 0 8 = some (0x10008, true) ∧ (window false).bar4 0 0xFFFF = some (0x1FFFF, false) ∧
    (window true).bar4 0 0x10000 = none ∧ (window true).cleared 1 = false ∧ ({ window true with zeroing := [1] }.hostGate 0 8 2).2 = false ∧
    (((window true).modFunc 0 (fun x => { x with held := [.notify 0 1] })).func 0).held ≠ [] := by decide
/-- A gallery that a page table maps: the first page of all. -/
def galleryMapped : State :=
  let root := (List.range 6).foldl (fun m i => wrBytes m (0x10000 + 512 * i + 8 * (if i = 0 then 32 else 0))
    (if i = 5 then 0x10 * 4096 + 0x843 else (0x10000 + 512 * (i + 1)) / 512 * 512 + 1) 8) H.mem
  { H with mem := root }.modVt V (fun v => { v with root := 0x80 })
/-- That page is mapped, so a write to it is refused. -/
theorem wit_HostMemory_gallery : 0x800000000000 / 4096 ≤ 0x800000000 ∧ 0x800000000 * 4096 < 0x800000000000 + [(1 : Byte)].length ∧
    galleryMapped.pageMapped 0 0 (0x800000000 * 4096) = true := by decide

/-! ### Colonies, queues, reports and upkeep for the host -/

/-- Partition 0 with the key of the image; the same with no tile; with every colony live. -/
def launches : State := base.modPart 0 (fun p => { p with imgKey := imageKey1 })
@[inherit_doc launches]
def tileless : State := launches.modTile 0 (fun t => { t with retired := true })
@[inherit_doc launches]
def crowded : State := (List.range 64).foldl (fun (s : State) k => s.modColony 0 k (fun c => { c with live := true })) launches
/-- The curator colony's process, held by the host. -/
def heldByHost : State :=
  let s := (base.modColony 0 63 (fun c => { c with live := true, gridX := 1, gridY := 1 })).putVt CC.vt { exist := true, res := true, issue := true }
  s.modCtx CC (fun x => { x with st := .parked, parked := { hseq := some 9 } })
/-- The host's answer to HSEQ 9: resume, or remove. -/
def hostCommand (code : Word) : List Word := [op 10, 0x900000000 + code, 0x100000000000]
/-- The grant of partition 0 to colony 1 of partition 2, and its mirror. -/
def grant0 : Grant := ⟨0, 0, 0, 2, some 1⟩
@[inherit_doc grant0]
def grant2 : Grant := ⟨1, 0, 0, 0, some 0⟩
/-- Both partitions, with what the grants name; with the mirror waiting. -/
def grantsTo : State := (two.modColony 2 1 (fun c => { c with live := true, gridX := 1, gridY := 1 })).putVt ⟨2, 1, 0, 0⟩ { exist := true }
@[inherit_doc grantsTo]
def mirrored : State := { grantsTo with grants := [⟨8, 2, grant2, 6000000000⟩] }

/-- R77, R93, R453: an image of the wrong length; a held context goes on; a grant waits, then meets its mirror. -/
theorem test_colonies :
    resp? (exec (.launchImage 0 []) (req launches 0 [op 8])) 0 = some [0x703] ∧
    (match exec (.curatorColonyResume 0) (req heldByHost 0 (hostCommand 1)) with
      | .next t => (t.ctx CC).st
      | _ => .empty) = .ready ∧
    (match exec (.curatorColonyRemove 0) (req heldByHost 0 (hostCommand 3)) with
      | .next t => (t.ctx CC).st
      | _ => .ready) = .empty ∧
    resp? (exec (.channelGrant 0 grant0) (req grantsTo 0 [op 13])) 0 = some [0x70A] ∧
    (match exec (.channelGrant 0 grant0) (req mirrored 0 [op 13]) with
      | .next t => (NMap.get 0 (t.vtile V).perms 0, NMap.get 0 (t.vtile ⟨2, 1, 0, 0⟩).perms 0, t.grants.length)
      | _ => (0, 0, 9)) = (0x20105, 0x00005, 0) := by decide

theorem wit_HostColonies : admitted (req launches 0 [op 8]) 0 [op 8] (.launchImage 0 image1) ∧
    admitted (req heldByHost 0 (hostCommand 1)) 0 (hostCommand 1) (.curatorColonyResume 0) ∧
    admitted (req heldByHost 0 (hostCommand 3)) 0 (hostCommand 3) (.curatorColonyRemove 0) ∧
    admitted (req grantsTo 0 [op 13]) 0 [op 13] (.channelGrant 0 grant0) := by
  refine ⟨admits .vfOnly 8 0 ?_ ?_ ?_ ?_ ?_ ?_ ?_ ?_, admits .vfOnly 10 1 ?_ ?_ ?_ ?_ ?_ ?_ ?_ ?_, admits .vfOnly 10 3 ?_ ?_ ?_ ?_ ?_ ?_ ?_ ?_,
    admits .vfOnly 13 0 ?_ ?_ ?_ ?_ ?_ ?_ ?_ ?_⟩ <;> first | decide | simp [requestOf]
theorem wit_HostColonies_image :
    imgStatus (launches.part 0).imgKey image1 = 0 ∧ imgStatus (launches.part 0).imgKey [] ≠ 0 ∧ (launches.colony 0 1).live = false ∧
    (∀ n, n < 1 → (launches.colony 0 n).live = true) ∧ ((req launches 0 [op 8]).popReq 0).imgFits 0 1 (imgOf image1) = true ∧
    ((req tileless 0 [op 8]).popReq 0).imgFits 0 1 (imgOf image1) = false ∧ (∀ k, k < 64 → (crowded.colony 0 k).live = true) := by decide +kernel
theorem wit_HostColonies_states :
    (((hostCommand 1).getD 1 0).extractLsb' 8 24 = 0 ∧ word1Ok ((hostCommand 1).getD 2 0).toNat = true ∧
      (((hostCommand 1).getD 1 0).extractLsb' 32 32).toNat = 9 ∧
      heldByHost.namedCtx 0 (heldByHost.part 0).curcol ((hostCommand 1).getD 2 0).toNat 0 = some CC ∧ (heldByHost.ctx CC).st = .parked ∧
      (heldByHost.ctx CC).parked.hseq = some 9 ∧ base.namedCtx 0 (base.part 0).curcol ((hostCommand 1).getD 2 0).toNat 0 = none ∧ heldByHost.acquireRoom CC = true) ∧
    ((grantsTo.part 2).valid = true ∧ (grantsTo.colony 0 0).live = true ∧ (grantsTo.vtile V).exist = true ∧ (grantsTo.colony 2 1).live = true ∧
      (base.part 2).valid = false ∧ mirrors 0 grant0 2 grant2 = true ∧ (∀ g ∈ grantsTo.grants, mirrors 0 grant0 g.part g.g = false) ∧
      (mirrored.vtile ⟨2, 1, 0, 0⟩).exist = true ∧ mirrored.freePerm V = some 0 ∧ mirrored.freePerm ⟨2, 1, 0, 0⟩ = some 0) ∧
    (∀ g ∈ mirrored.grants, g.part ≠ 2 ∨ mirrored.time < g.until_) ∧ (6000000000 : Nat) ≤ { mirrored with time := 6000000000 }.time := by decide

/-- A queue of two packets in granule 1, with NOTIFY at 1 and this first word in its first packet. -/
def queue (h : HostQ) (w0 : Word) : State :=
  ({ window true with mem := wrBytes H.mem 0x10000 w0.toNat 8 } : State).putHq 4 h
/-- Its record. -/
def hq1 : HostQ := { part := 0, col := 0, k := 1, base := 0x10000, notify := 1 }
/-- The request that makes it. -/
def makeQueue : List Word := [op 11, 0x801, 0x10000]
/-- What a step leaves of queue 4. -/
def hq? {A : Type} (r : Step) (f : HostQ → A) : Option A := match r with
  | .next t => (t.hq 4).map f
  | _ => none

/-- R297 to R299: a NOTIFY beyond the ring; a packet that is not valid; one of a bad format; one that starts a forager. -/
theorem test_queues :
    hq? (exec (.notify 0 4 3) (queue hq1 0)) (fun h => (h.err, h.notify)) = some (true, 1) ∧
    hq? (exec (.notify 0 4 2) (queue hq1 0)) (fun h => (h.err, h.notify)) = some (false, 2) ∧
    hq? (exec (.dispatchPacket 4) (queue hq1 0x100)) (fun h => (h.stalled, h.rd)) = some (true, 0) ∧
    mem? (exec (.dispatchPacket 4) (queue hq1 0x201)) 0x10000 8 = some 0x2000000000000200 ∧
    (match exec (.dispatchPacket 4) (queue hq1 0x101) with
      | .next t => t.net.map (·.dst)
      | _ => []) = [⟨V, 0⟩] ∧
    resp? (exec (.createHostQueue 0) (req (window true) 0 makeQueue)) 0 = some [0x700, 0] := by decide

theorem wit_HostQueues : admitted (req (window true) 0 makeQueue) 0 makeQueue (.createHostQueue 0) ∧
    admitted (req (queue hq1 0) 0 [op 12, 4]) 0 [op 12, 4] (.destroyHostQueue 0) := by
  refine ⟨admits .vfOnly 11 1 ?_ ?_ ?_ ?_ ?_ ?_ ?_ ?_, admits .vfOnly 12 4 ?_ ?_ ?_ ?_ ?_ ?_ ?_ ?_⟩ <;> first | decide | simp [requestOf]
theorem wit_HostQueues_zero : (∀ i, makeQueue.getD (i + 3) 0 = 0) ∧ (∀ i, [op 12, 4].getD (i + 2) 0 = 0) := ⟨fun _ => rfl, fun _ => rfl⟩
theorem wit_HostQueues_states :
    ((0x801 : Word).extractLsb' 12 52 = 0 ∧ (0x10000 : Nat) % 128 = 0 ∧ ((window true).colony 0 0).live = true ∧ (window true).oneWindow 0 [1] = true ∧
      heap.oneWindow 0 [1] = false ∧ (window true).hq 0 = none) ∧
    ((queue hq1 0).hq 4 = some hq1 ∧ hq1.part = 0 ∧ hq1.ending = none ∧ { hq1 with ending := some (0, 7), rd := 1 }.rd = hq1.notify ∧
      (BitVec.ofNat 32 3 - BitVec.ofNat 32 hq1.rd).toNat = 3 ∧ (BitVec.ofNat 32 2 - BitVec.ofNat 32 hq1.rd).toNat ≤ 2 ^ hq1.k) ∧
    (let ws (s : State) := (List.range 16).map (fun i => BitVec.ofNat 64 (s.homeBytes (0x10000 + 8 * i) 8))
     hq1.stalled = false ∧ hq1.rd ≠ hq1.notify ∧ ((queue hq1 0x101).part 0).state = 1 ∧ (queue hq1 0x101).homeFree 0x10000 = true ∧
      (queue hq1 0x101).packetStatus 0 (ws (queue hq1 0x101)) = 0 ∧ (queue hq1 0x101).mapped 0 1 = true ∧
      (queue hq1 0x201).packetStatus 0 (ws (queue hq1 0x201)) = 9 ∧ (queue hq1 0x201).granOk 0 1 = true ∧ (queue hq1 0x201).cleared 1 = false ∧
      ((queue hq1 0x101).part 0).fcount < ((queue hq1 0x101).part 0).fquota ∧ ((queue hq1 0x101).translateVt ((queue hq1 0x101).vtile V).ptile V).2 = some 0 ∧
      (((queue hq1 0x101).modPart 0 (fun p => { p with fquota := 0 })).part 0).fquota ≤ ((queue hq1 0x101).part 0).fcount) := by decide
/-- Every number of a queue is taken. -/
theorem wit_HostQueues_full : ∀ q, q < 1024 → ({ base with hqs := (List.range 1024).map (fun n => (n, hq1)) }.hq q).isSome = true := by
  intro q h
  rw [State.hq, Option.isSome_map, List.find?_isSome]
  exact ⟨(q, hq1), List.mem_map.mpr ⟨q, List.mem_range.mpr h, rfl⟩, decide_eq_true rfl⟩

theorem wit_HostReports : admitted (req base 0 [op 15]) 0 [op 15] (.readLog 0 0 1 5 true 0x1000) ∧ admitted (req base 0 [op 15]) 0 [op 15] (.closeRecord 0 ⟨3, none⟩) ∧
    admitted (req base 16 [op 15]) 16 [op 15] (.closeRecord 16 ⟨0, some 2⟩) ∧ admitted (req base 0 [op 16]) 0 [op 16] (.residencyReport 0 0x1000) := by
  refine ⟨admits .both 15 0 ?_ ?_ ?_ ?_ ?_ ?_ ?_ ?_, admits .both 15 0 ?_ ?_ ?_ ?_ ?_ ?_ ?_ ?_, admits .both 15 0 ?_ ?_ ?_ ?_ ?_ ?_ ?_ ?_,
    admits .both 16 0 ?_ ?_ ?_ ?_ ?_ ?_ ?_ ?_⟩ <;> first | decide | simp [requestOf]
theorem wit_HostReports_states :
    { base with upkeep := { activating := true } }.upkeep.activating = true ∧ base.upkeep.activating = false ∧
    next? (req base 0 [op 14]) 0 [op 14] ∧ opOf [op 14] = 0x0E ∧ (List.replicate 48 (0 : Byte)).length = 48 ∧
    (base.part 0).valid = true ∧ (base.part 0).freed = false ∧ (base.part 0).records.length < 65536 ∧ (base.part 5).valid = false ∧ (base.part 5).freed = false ∧
    base.hq 4 = none ∧ hq1.scaleout = false ∧ (queue { hq1 with scaleout := true } 0).hq 4 = some { hq1 with scaleout := true } ∧
    (List.replicate 16 (0 : Word)).length = 16 ∧ base.packetStatus 0 ((0x101 : Word) :: List.replicate 15 0) = 0 ∧
    base.packetStatus 0 ((0x201 : Word) :: List.replicate 15 0) = 9 ∧ (preempted.part 0).state ≠ 1 ∧ (base.part 0).state = 1 ∧
    (base.part 0).fcount < (base.part 0).fquota := by decide

/-- A module whose controllers are about something. -/
def upkeeps (u : Upkeep) : State := { base with upkeep := u, staged := some { version := 3, digest := 5 } }
/-- Seven of the eight controllers. -/
def changed7 : NSet := List.range 7
theorem test_upkeep_of_the_device :
    (match exec (.rimControllerRestartDone 7) (upkeeps { activating := true, changed := changed7, restarting := some 7 }) with
      | .next t => (t.fw.version, t.rollback, t.staged.isSome, t.upkeep)
      | _ => (0, 0, true, {})) = (3, 3, false, {}) ∧
    (match exec (.rimControllerRestartDone 0) (upkeeps { activating := true, restarting := some 0 }) with
      | .next t => t.upkeep
      | _ => {}) = { activating := true, changed := [0], restarting := some 1 } ∧
    resp? (exec (.activateFirmware 16) (req base 16 [op 18])) 16 = some [0x705] ∧
    resp? (exec (.remapHbmChannel 16 0 16) (req base 16 [op 19])) 16 = some [0x709] ∧
    resp? (exec (.retireRimController 16 0) (req heap 16 [op 19])) 16 = some [0x701] ∧
    (match exec .deviceReset { base with time := 9 } with
      | .next t => (t.time, t.parts.length)
      | _ => (9, 9)) = (0, 0) := by decide

theorem wit_HostUpkeep : admitted (req base 16 [op 17]) 16 [op 17] (.stageFirmware 16 []) ∧
    admitted (req base 16 [op 18]) 16 [op 18] (.activateFirmware 16) ∧ admitted (req base 16 [op 19]) 16 [op 19] (.retireTile 16 5) ∧
    admitted (req base 16 [op 19]) 16 [op 19] (.remapHbmChannel 16 0 15) ∧ admitted (req base 16 [op 19]) 16 [op 19] (.restartRimController 16 0) ∧
    admitted (req base 16 [op 19]) 16 [op 19] (.retireRimController 16 0) := by
  refine ⟨admits .pfOnly 17 0 ?_ ?_ ?_ ?_ ?_ ?_ ?_ ?_, admits .pfOnly 18 0 ?_ ?_ ?_ ?_ ?_ ?_ ?_ ?_, admits .pfOnly 19 0 ?_ ?_ ?_ ?_ ?_ ?_ ?_ ?_,
    admits .pfOnly 19 0 ?_ ?_ ?_ ?_ ?_ ?_ ?_ ?_, admits .pfOnly 19 0 ?_ ?_ ?_ ?_ ?_ ?_ ?_ ?_, admits .pfOnly 19 0 ?_ ?_ ?_ ?_ ?_ ?_ ?_ ?_⟩ <;>
    first | decide | simp [requestOf]
/-- Whether an image verifies is free: of the three clauses of STAGE_FIRMWARE, one speaks of each image. -/
theorem wit_HostUpkeep_firmware (img : List Byte) : Config.firmwareVerifies img = false ∨
    (Config.firmwareVerifies img = true ∧ Config.firmwareVersion img < base.rollback) ∨
    (Config.firmwareVerifies img = true ∧ base.rollback ≤ Config.firmwareVersion img) := by
  cases Config.firmwareVerifies img with
  | false => exact .inl rfl
  | true => exact .inr (.inr ⟨rfl, Nat.zero_le _⟩)
theorem wit_HostUpkeep_states :
    (base.upkeep.activating = false ∧ base.upkeep.restarting = none ∧ base.staged = none ∧ (upkeeps {}).staged.isSome = true ∧ base.form = .sw2304 ∧
      (upkeeps { activating := true }).upkeep.activating = true) ∧
    (let u : Upkeep := { activating := true, restarting := some 0 }
     (upkeeps u).upkeep.restarting = some 0 ∧ u.back = false ∧ u.changed = [] ∧
      (upkeeps u).workingRims.filter (fun x => !NSet.mem (NSet.ins u.changed 0) x) = 1 :: [2, 3, 4, 5, 6, 7]) ∧
    (upkeeps {}).workingRims.filter (fun x => !NSet.mem (NSet.ins changed7 7) x) = [] ∧
    ({ restarting := some 2, asker := some (16, 7) } : Upkeep).activating = false ∧
    2303 < base.form.tiles ∧ 0 < base.form.stacks ∧ (∀ x ∈ base.remaps, x.stack ≠ 0) ∧ NMap.get 0 base.spare 0 = 0 ∧
    (∃ x ∈ (remapsAt 0).remaps, x.stack = 2) ∧ 7 ∈ base.workingRims ∧ 8 ∉ base.workingRims ∧
    (∃ e ∈ heap.granules, e.2.getLsbD 4 = true ∧ heap.rimOf (e.1 * 65536) = 0) ∧ base.granules = [] ∧
    (base.tiles.map (·.1)).Nodup := by decide

/-! ### Further witnesses: what holds an access, what a tile serves, what a stop leaves -/

/-- H with a quad whose port holds these accesses. -/
def heldAt (l : List Arrival) : State := H.modQuad ⟨0, 0⟩ (fun q => { q with held := l })
theorem wit_LoadValue_waits :
    (H.modQuad ⟨0, 0⟩ (fun q => { q with power := .asleep })).bankWait X 0x100 = some (.quad 0) ∧ H.bankWait X 0x100 = none ∧
    (heldAt [.ctx ⟨V, 0, 1⟩]).bankWait X 0x100 = some (.quad 0) ∧ (heldAt [.ctx X]).bankWait X 0x100 = none ∧
    (H.modCore ⟨V, 2⟩ (fun k => { k with moving := true })).bankWait X 0x01020000 = some (.move 2) ∧ H.bankWait X 0x01020000 = none ∧
    H.fillOf X 0x400 = none ∧ (filled H).fillOf X 0x400 = some ⟨0x400, 0x1122334455667788, 0, 0⟩ ∧
    ((filled H).modCore K (fun k => { k with stale := [(0, 0x400)] })).fillOf X 0x400 = none := by decide

theorem wit_ScalarStores_waits :
    (heldAt [.ctx ⟨V, 0, 1⟩]).bankWait X 0x100 ≠ none ∧ H.mergeBase X 0x400 0 = none ∧ (H.core K).hasWord 0x400 0 = false ∧
    (filled H).mergeBase X 0x400 0 = some 0x1122334455667788 ∧
    ((cached (filled H) [lineAt 0x400 2 0 0]).core K).find 0x400 = some (lineAt 0x400 2 0 0) ∧
    H.quadAwake V 0x300000 = true ∧ (H.quad (H.portOf V 0x300000)).held = [] ∧
    mayStart (on (posted H 0x300000) (fun x => { x with prog := { rel := true } })) 1 := by decide

/-- Two places: one that has to be waited for, one that is poisoned; and the second before an uncorrectable line. -/
theorem wit_PairAndLaneLoads_order :
    (match H.load X (.home 0x10000 0x100000000 false) 1 with
      | .error e => e.waits
      | .ok _ => false) = true ∧
    (match (poisoned H).load X (.sram 0x100) 1 with
      | .error e => !e.waits && e.isPoison
      | .ok _ => false) = true ∧
    (match (on { H with badLine := [0x400] } (fun x => { x with prog := { fills := [⟨0x400, 0, 0, 1⟩] } })).load X
        (.home 0x10000 0x100000000 false) 1 with
      | .error e => !e.waits && !e.isPoison
      | .ok _ => false) = true ∧
    (∃ v, H.load X (.sram 0x100) 1 = .ok v) := ⟨by decide, by decide, by decide, ⟨_, rfl⟩⟩

theorem wit_SideBits_held :
    H.homeOpen (0x10040 / 64 * 64) V.part (.ctx X) = true ∧ { H with zeroing := [1] }.homeOpen (0x10040 / 64 * 64) V.part (.ctx X) = false := by
  decide

theorem wit_instructions_more :
    (base.core K).moving = false ∧ ((base.modCore K (fun k => { k with moving := true })).core K).moving = true ∧
    ((base.modPart 0 (fun p => { p with curcol := 0 })).part 0).curcol = V.col ∧
    base.flying.all (fun k => decide (k.ctx ≠ some X)) = true ∧
    (on base (fun x => { x with line := some (0x01000000, lineOne 0x2A00 0) })).heldByWait X = false := by decide

theorem wit_Channels_reach :
    reaches (port3 (idle .out)) W1 1 ∧ portFree (port3 (idle .out)) 3 ∧ reaches (port3 (held .inp (.offer [7, 8] false))) W1 1 ∧
    ((port3 (held .bin (.bulk 0x1000 96))).modPort peer4 (fun _ => { idle .bout with st := .own, bulk := some ⟨0x02000000, 0, 96, false, false, false⟩ })).sourceOk
      peer4 64 = false ∧
    ((port3 (held .bin (.bulk 0x1000 96))).modPort peer4 (fun _ => { idle .bout with st := .own, bulk := some ⟨0x1000, 0, 96, false, false, false⟩ })).sourceOk
      peer4 64 = true ∧ reaches world W1 1 ∧ (world.vtile W1).exist = true := by decide

/-- The stop of a gang whose tile has been retired meanwhile. -/
def lostTile : State := (stops halt3).modTile 0 (fun t => { t with retired := true })
theorem wit_Stops_more :
    { halt0 with missed := [0] }.t = none ∧ { halt0 with missed := [0], tiles := [(V, 0)] }.missed ≠ [] ∧ NSet.mem halt1.missed 0 = false ∧
    awaitsWalk ((walks 0x80 leaf1).ctx X) = true ∧ awaitsWalk (base.ctx X) = false ∧
    (∀ f o, (Body.ack) ≠ .forager f o) ∧
    (lostTile.shortfall 0 [G] ≠ 0 ∧ (stops halt3).shortfall 0 [G] = 0 ∧ G ∉ halt3.heads ∧ G ∈ { halt3 with heads := [G] }.heads ∧
      { halt3 with heads := [G] }.why ≠ .free) := by
  refine ⟨by decide, by decide, by decide, by decide, by decide, by intro f o; exact Body.noConfusion, by decide⟩

theorem wit_Placement_more :
    ({ placed1 with time := 899 }.gang G1).start.getD 0 = { placed1 with time := 899 }.time + 1 ∧
    (∀ k ∈ ({ placed1 with time := 899 }.part G1.part).parkQ, k.dst.vt ∉ [W1]) ∧ { base with treeWait := [(0, 0)] }.treeWait ≠ [] ∧
    (∀ c ∈ K.slots, (base.ctx c).mon.armed = true → (base.ctx c).mon.phys = none) := by decide

/-- A tile whose vtile is being stopped, from its count on. -/
theorem wit_Tests_more :
    base.cleared (5000 / 1024) = true ∧ H.cleared (0x400 / 1024) = false ∧ (base.tile 0).retired = false ∧
    ((∃ v, (base.tile 0).vtile = some v ∧ K = ⟨v, base.lcAt v 0⟩)) ∧ (stops halt2).stopUnder 0 = true ∧ base.stopUnder 0 = false :=
  ⟨by decide, by decide, by decide, ⟨V, by decide, by decide⟩, by decide, by decide⟩

/-! ### The whole machine -/

/-- The machine with this move next. -/
def moved (m : Move) : State := { base with agenda := [m] }
theorem test_steps :
    (match step base with
      | .next t => some ((t.ctx X).pc)
      | _ => none) = some 0x01000042 ∧
    (match step (moved .cycle) with
      | .next t => some t.time
      | _ => none) = some 1 ∧
    (match step (moved (.event (.nop))) with
      | .fault f => some f
      | _ => none) = some .notAnEvent := by decide

theorem wit_EveryRowGoesOn : (moved (.event .deviceReset)).agenda = .event .deviceReset :: [] ∧ Instr.deviceReset.isForm = false ∧
    Instr.nop.isForm = true ∧ base.agenda = .issue X :: [] := by decide

theorem wit_MemoriesStayCanonical : base.wf = true ∧ (match step base with
    | .next _ => true
    | _ => false) = true := by decide

theorem wit_TimeBase : (moved .cycle).agenda = .cycle :: [] ∧ (match exec .deviceReset base with
      | .next _ => true
      | _ => false) = true ∧ (match exec .nop base with
      | .next t => decide (t.time = base.time)
      | _ => false) = true := by decide

theorem wit_DecodeEncode : (Instr.addReg ⟨31, 30, 29, true, false⟩).wf = true ∧ (encode (.addReg ⟨31, 30, 29, true, false⟩)).isSome = true ∧
    decode 0x2A00 0 = .ok .nop ∧ tailLen 0x2A00 = 0 := by decide

/-! ### Clauses of the second review -/

theorem wit_ControlTransfer :
    (transferOf base (.jmpNear ⟨0, 1⟩)).isSome = true ∧ (Instr.jmpNear ⟨0, 1⟩).wf = true := by decide

theorem wit_FloatFunctions :
    (0x7FC00001 : Nat) < 2 ^ (layoutOf .f32).1 ∧ (layoutOf .h16) = (16, 10, 15) ∧
    fclassMask FloatTy.f32.fmt 0x00000001 = 32 ∧ fminmax false FloatTy.f32.fmt 0x80000000 0 = 0x80000000 ∧
    fcompare .lt (FloatTy.f32.fmt.value 0x7FC00000) (FloatTy.f32.fmt.value 0) = (false, true) := by decide

theorem wit_RoundingToFormats :
    NFmt.ofCode 0x08 = some (.flt FloatTy.f32.fmt) ∧ (⟨false, 3, -1, false⟩ : Ex).m ≠ 0 ∧ FloatTy.f32.fmt.signed = true := by decide

theorem wit_ConvertedValues :
    FloatTy.f32.fmt.value 0x7F800000 = .inf false ∧ FloatTy.f32.fmt.value 0x80000000 = .fin true 0 (-149) ∧
    FloatTy.f32.fmt.value 0x7F800001 = .nan := by decide

theorem wit_ReductionValues :
    VTy.f32.isF = true ∧ VTy.f32.fmt.value 0x7F800000 = .inf false ∧ VTy.f32.fmt.value 0x80000000 = .fin true 0 (-149) := by decide

theorem wit_FunctionValues :
    VTy.f32.isF = true ∧ 0x40000000 < 2 ^ VTy.f32.width ∧ VTy.f32.fmt.value 0x40000000 = .fin false 0x800000 (-22) := by decide

theorem wit_StepCharge :
    (let s := base.modPart 0 (fun p => { p with rate := 5, depth := 50, tokens := 3 })
     (s.part 0).rate ≠ 0 ∧ (((64 + 63) / 64 : Nat) : Int) ≤ (s.part 0).tokens) ∧
    ((base.modPart 0 (fun p => { p with rate := 5, depth := 50, tokens := -1 })).part 0).tokens < 0 ∧
    (let s := (base.modPart 0 (fun p => { p with rate := 5, tokens := 1 })).modPart 1 (fun p => { p with lend := true, rate := 5, tokens := 9 })
     (s.part 0).tokens < 3 ∧ 0 ≤ (s.part 0).tokens ∧ 3 - (s.part 0).tokens ≤ ((s.lenders 0).map (fun l => (s.part l).tokens)).sum) ∧
    (let s := base.modPart 0 (fun p => { p with rate := 5, tokens := 1 })
     ((s.lenders 0).map (fun l => (s.part l).tokens)).sum < 3 - (s.part 0).tokens) := by decide

/-- A memory micro-operation of a sequence, at address 0x100 in h1, with h2. -/
def micro (u : Nat) : State :=
  on (H.modCore K (fun k => { k with comb := [(0, BitVec.ofNat 32 (u * 2 ^ 26 + 3 * 2 ^ 24 + 0x3A * 2 ^ 14 + 0x39 * 2 ^ 7 + 0x70))] }))
    (fun x => { x with binds := [(0, ⟨true, 0, 2, 1, 1, 1⟩)], live := some ⟨⟨0, 0, 0, [(1, 0x100), (2, 0xAB)], []⟩, 1, 10, 11, 2⟩ })

theorem wit_CopyWords :
    (let s := copyS base (ccmd 0x1000 0x2000 8)
     let w := stepWords (s.core K) (ccmd 0x1000 0x2000 8)
     (s.core K).copyPhase = .fetch ∧ (s.core K).copyHeld = false ∧ s.runs K = true ∧ w.n = 1 ∧
     s.engPlace K true true (w.src 0) 8 .read = .ok (.sram 0x1000) ∧ s.engPlace K true true (w.dst 0) 8 .write = .ok (.sram 0x2000) ∧
     s.portOpen V 0x1000 (.copy K 0) = true ∧ s.movingAt V 0x1000 = none) := by decide

theorem wit_CombMicroMemory :
    ((micro 0x28).ctx X).live.isSome = true ∧ NSet.mem ((micro 0x28).core K).combPois 0 = false ∧
    x? (exec .combMicroOp (micro 0x28)) (fun x => (x.live.map (·.f.upc), x.live.map (fun l => NMap.get 0 l.f.h 2))) =
      some (some 1, some 0xF1F2F3F4F5F6F7F8) ∧
    mem? (exec .combMicroOp (micro 0x29)) (sramKey V 0x100) 8 = some 0xAB := by decide

theorem wit_CombRules :
    (match seqOk 2 0 [0x080E22C6, 0x00111C47] {} with
      | .ok _ => true
      | .error _ => false) = true ∧
    (match seqOk 2 7 [0x080E22C6, 0xFC000000] {} with
      | .ok _ => none
      | .error n => some n) = some 8 := by decide

theorem wit_CombOperands :
    (let l : Live := ⟨⟨0, 0, 0, [(1, 0x100)], []⟩, 1, 10, 11, 2⟩
     l.d < 0x38 ∧ l.a < 0x38 ∧ l.b < 0x38 ∧ (base.ctx X).uS l 0x39 = 0x100 ∧ (base.ctx X).uS l 0x47 = 2 ∧
     (base.ctx X).uS l 0x6F = 0xFFFFFFFFFFFFFFFF) := by decide

theorem wit_CombMicroValues :
    ((0x3C000000 : BitVec 32).extractLsb' 26 6).toNat = 0x0F ∧ ICond.ofCode 0 ≠ none ∧ VTy.ofCode 0 ≠ none ∧
    ((base.ctx X).uCompute ⟨⟨0, 0, 0, [(0, 0xF0), (1, 0x3C)], []⟩, 1, 10, 11, 2⟩
      (BitVec.ofNat 32 (0x07 * 2 ^ 26 + 0x3A * 2 ^ 14 + 0x38 * 2 ^ 7 + 0x39))).live.map (fun l => NMap.get 0 l.f.h 2) = some 0xC0 := by decide

theorem wit_WalkedLeaves :
    (let s : State := { H with mem := tables leaf1 }
     0x10A00 % 512 = 0 ∧ s.granOk 0 (0x10A00 / 65536) = true ∧ s.entryOk 0x10A28 = true ∧
     (BitVec.ofNat 64 (s.homeBytes 0x10A28 8)).getLsbD 0 = true ∧ (BitVec.ofNat 64 (s.homeBytes 0x10A28 8)).getLsbD 1 = true ∧
     (match s.walkFrom 0 0x5008 1 0x10A00 0 with
      | .leaf e n first => decide (e = leaf1 ∧ n = 0 ∧ first = 0x10A28)
      | .fault _ _ => false) = true) ∧
    (match ({ H with mem := tables (leaf1 + 4) } : State).walkFrom 0 0x5008 1 0x10A00 0 with
      | .leaf _ _ _ => false
      | .fault k e => decide (k = .permission ∧ e = leaf1 + 4)) = true ∧
    (((walks 0x80 leaf1).vtile V).root ≠ 0 ∧ ((walks 0x80 leaf1).vtile V).ptrs = []) ∧
    (let s := (walks 0x80 leaf1).modVt V (fun v => { v with ptrs := [⟨1, 0, 0x10A01⟩] })
     (s.vtile V).ptrs.find? (fun q => decide (q.lvl = 1) && decide (q.pre = 0x5008 / 2 ^ 18)) = some ⟨1, 0, 0x10A01⟩) := by decide

theorem wit_Installation :
    (match (walks 0x80 leaf1).walk V 0x5008 with
      | .leaf e n first => decide (permitted e 0x5008 .read true = true ∧ n = 0 ∧ first = 0x10A28)
      | .fault _ _ => false) = true ∧
    permitted leaf1 0x5008 .atomic true = true ∧ permitted (leaf1 - 0x40) 0x5008 .read true = false ∧
    heap.lookup K 0x100000008 .read true = some entry0 := by decide

theorem wit_Walks :
    ((walks 0x80 leaf1).vtile V).misses = [{ ctx := X, ea := 0x5008, acc := .read, user := true, tval := 0x5008 }] ∧
    (let s := walks 0x80 leaf1
     (State.walkRows (.walk V 5 0) 0 (s.walkPath V (5 * 4096)) s).2) = true := by decide

theorem wit_RemoteWaits :
    selects (sel 4 0) V 4 0 ∧ (base.stopOf V).isNone = true ∧
    ((stops halt2).stopOf V).map (·.halted) = some true := by decide

theorem wit_HandlerEntry_frame :
    (let s := on withHandler (fun x => { x with resume := some ⟨0, 3, 1, [(1, 7)], []⟩ })
     hasFrame (s.ctx X) ⟨0, 3, 1, [(1, 7)], []⟩ ∧ (s.ctx X).shadow = none ∧ handlerFits s X) ∧
    (let s := on withHandler (fun x => { x with live := some ⟨⟨0, 3, 1, [(1, 7)], []⟩, 1, 2, 3, 4⟩, shadow := some ⟨0, 0, 0, [], []⟩, cfsave := 0x400 })
     hasFrame (s.ctx X) ⟨0, 3, 1, [(1, 7)], []⟩ ∧ (s.ctx X).shadow.isSome = true ∧ (s.ctx X).cstat.getLsbD 9 = false ∧
     (s.ctx X).cfsave.extractLsb' 48 7 = 0 ∧ cfsaveAt (s.ctx X) X = 0x400 ∧ X.core / 4 = 0 ∧ handlerFits s X ∧
     frameWord ⟨0, 3, 1, [(1, 7)], []⟩ 2 = 7) ∧
    (let s := on withHandler (fun x => { x with posted := List.replicate 1000 ⟨.quad 3, 0, [1]⟩, resume := some ⟨0, 3, 1, [], []⟩, shadow := some ⟨0, 0, 0, [], []⟩, cfsave := 0x100400 })
     cfsaveAt (s.ctx X) X / 0x100000 ≠ X.core / 4 ∧ s.present V = true ∧ 1023 < (s.ctx X).q + 48 ∧
       (∃ f, hasFrame (s.ctx X) f)) ∧
    (let s := on withHandler (fun x => { x with resume := some ⟨0, 3, 1, [], []⟩, shadow := some ⟨0, 0, 0, [], []⟩, cfsave := 0x408 })
     cfsaveAt (s.ctx X) X / 0x100000 = X.core / 4 ∧ cfsaveAt (s.ctx X) X % 64 ≠ 0 ∧ (∃ f, hasFrame (s.ctx X) f)) ∧
    ((swarm2 base).ctx X).member.isSome = true := by
  refine ⟨⟨.inr ⟨by decide, by decide⟩, by decide, by decide⟩, ⟨.inl ⟨_, rfl, rfl⟩, ?_⟩, ⟨by decide, by decide, by decide, ⟨_, .inr ⟨by decide, rfl⟩⟩⟩,
    ⟨by decide, by decide, ⟨_, .inr ⟨by decide, rfl⟩⟩⟩, by decide⟩ <;> decide

theorem wit_TrapsAndReturn_frame :
    (let s := on withHandler (fun x => { x with ccause := 0x100, cepc := 0x01000002, shadow := some ⟨0, 3, 1, [(1, 7)], []⟩ })
     s.checkTarget X (s.ctx X).cepc = .ok (0x01000000, lineOne 0x2A00 0) ∧ (s.ctx X).ccause.getLsbD 8 = true ∧
     (s.ctx X).ccause.getLsbD 9 = false ∧
     x? (exec .tret s) (fun x => (x.resume.map (fun f => NMap.get 0 f.h 1), x.shadow.isNone, x.pc)) = some (some 7, true, 0x01000002)) := by decide

theorem wit_Swarms_more :
    (let s := on (swarm2 base) (fun x => { x with member := some ⟨3, 0, true, none⟩ })
     (s.ctx X).member = some ⟨3, 0, true, none⟩ ∧ X ∈ V.slots ∧ (s.ctx X).wait = none) ∧
    (let s := other (on (swarm2 base) (fun x => { x with member := some ⟨3, 0, true, none⟩ })) ⟨V, 1, 2⟩
       (fun x => { x with member := some ⟨3, 1, true, none⟩, wait := some .rejoin })
     s.swarm V 3 = [X, ⟨V, 1, 2⟩] ∧ (s.ctx ⟨V, 1, 2⟩).wait = some .rejoin) := by decide

theorem wit_TranslationHarvest :
    (let s := priv (grid1 (walks 0x80 leaf1))
     (Instr.tlbi ⟨3, 1, 2, 2, true⟩).wf = true ∧ (s.ctx X).cstat.getLsbD 10 = true ∧ (s.colony 0 0).live = true ∧
     0 < (s.colony 0 0).gridX ∧ 0 < (s.colony 0 0).gridY ∧ quiet s ∧ s.tlbiRoom [V] = true ∧ (s.vtile V).root ≠ 0 ∧
     s.homeOpen 0x10A28 0 (.ctx X) = true) ∧
    (match (walks 0x80 leaf1).walkFrom 0 0x5008 6 (0x80 * 512) 0 with
      | .leaf e n first => decide (e = leaf1 ∧ n = 0 ∧ first = 0x10A28)
      | .fault _ _ => false) = true ∧
    (match (walks 0x80 0).walkFrom 0 0x5008 6 (0x80 * 512) 0 with
      | .leaf _ _ _ => false
      | .fault k _ => decide (k = .pageAbsent)) = true ∧
    ((priv (grid1 base)).vtile V).root = 0 := by decide

theorem wit_TranslationTargets :
    (heap.present V = true ∧ AMap.has heap.cores K = true ∧ (heap.quad (Q 0)).power ≠ .asleep) ∧
    heap.present W2 = false ∧ (quadIn heap 5 (fun x => { x with power := .asleep })).present V = true := by decide

theorem wit_Semaphores_wakes :
    ((quadIn base 0 (fun x => { x with power := .asleep })).quad (Q 0)).power = .asleep := by decide

theorem wit_TimeBase_late :
    (let s := on (moved .cycle) (fun x => { x with st := .blocked, lim := some 0, wait := some (.swl 1 2) })
     s.agenda = .cycle :: [] ∧ s.lateSwarms = [.swarmTimeout X] ∧ s.lateAlts = []) ∧
    (let s := on (moved .cycle) (fun x => { x with st := .blocked, lim := some 0, wait := some (.alt 1 1 0) })
     s.lateAlts = [.altTimeout X]) ∧
    (moved .cycle).lateSwarms = [] ∧ (moved .cycle).lateAlts = [] := by decide

theorem wit_Placement_start :
    (queued true).time + 2 ≤ 2 ∧ ((queued true).part 0).state = 1 ∧
    (let s := { (queued true).modGang G1 (fun g => { g with placing := true, start := some 901 }) with time := 900 }
     (s.gang G1).placing = true ∧ (s.gang G1).start.getD 0 = s.time + 1 ∧ (s.part 0).parkQ = []) := by decide

/-- A request that gives tile 7, of no partition, to partition 2. -/
theorem wit_HostPartitions_unowned :
    admitted (req two 16 [op 3]) 16 [op 3] (.repartition 16 255 2 ⟨[7], [], []⟩) ∧
    (two.tile 7).owner = none ∧ 7 < two.form.tiles ∧ (two.tile 7).vtile = none ∧ (two.tile 7).working = true ∧
    (two.tile 7).retired = false ∧ (two.part 2).valid = true := by
  refine ⟨admits .pfOnly 3 0 ?_ ?_ ?_ ?_ ?_ ?_ ?_ ?_, ?_⟩ <;> first | decide | simp [requestOf]

/-- On the form of one device, a restart of the rim controller waits for every partition to stop. -/
theorem wit_HostUpkeep_stops :
    (let s := { base with form := .sd64 }
     0 ∈ s.workingRims ∧ s.upkeep.busy = false ∧ s.form ≠ .sw2304 ∧ (s.part 0).valid = true ∧ (s.part 0).state = 1) ∧
    (upkeeps { waiting := some 0 }).upkeep.waiting = some 0 ∧ (upkeeps { waiting := some 0 }).stops = [] ∧
    { stops halt0 with upkeep := { waiting := some 0 } }.stops ≠ [] := by decide

theorem wit_HostQueues_gate :
    ((queue hq1 0x101).packetGate 0 0x10000).2 = true ∧
    (({ queue hq1 0x101 with upkeep := { restarting := some ((queue hq1 0x101).rimOf 0x10000) } } : State).packetGate 0 0x10000).2 = false := by decide

theorem wit_HostMemory_gate :
    ((window true).hostGate 0 0 8).2 = true ∧
    (({ window true with upkeep := { restarting := some ((window true).rimOf 0x10000) } } : State).hostGate 0 0 8).2 = false := by decide

theorem wit_HostReports_waits :
    (NMap.get ({} : ScalePort) base.ports24 3).pkts = [] ∧ base.hq 4 = none ∧
    (let s := { queue { hq1 with scaleout := true } 0 with ports24 := [(3, { pkts := [⟨4, 0, List.replicate 16 0x101⟩] })] }
     (NMap.get ({} : ScalePort) s.ports24 3).pkts = [⟨4, 0, List.replicate 16 0x101⟩]) := by decide

/-- Core 0 has a slot that could issue, outside any swarm. -/
theorem wit_ThermalMigration_movable : movable hot K ∧ hot.slotReady X = true ∧ (hot.ctx X).member = none := by
  refine ⟨⟨X, by decide, by decide, by decide⟩, by decide, by decide⟩

end Sys2Proof.Tests
end

section
/-! PROOFS. Sequential flow, what a fetch reads and what going on changes (R59, R60, R62, R265, R335). -/

namespace Sys2Proof.Machine

/-! ### The fields of a PC (R59) -/

theorem slotOf_eq (pc : Word) : slotOf pc = (pc.extractLsb' 1 5).toNat := by
  simp [slotOf, fld, Nat.shiftRight_eq_div_pow]

theorem slotOf_ne_zero (pc : Word) (h : pc.extractLsb' 1 5 ≠ 0) : slotOf pc ≠ 0 := fun h0 =>
  h (BitVec.eq_of_toNat_eq (by rw [← slotOf_eq, h0]; rfl))

theorem fld_zero_of_getLsbD (pc : Word) (h : pc.getLsbD 0 = false) : fld pc.toNat 0 1 = 0 := by
  simpa [BitVec.getLsbD, fld] using h

/-- Slot 1 of line n, as one number. -/
theorem toNat_slotOne (n : BitVec 58) : (n ++ 1#5 ++ 0#1).toNat = n.toNat * 64 + 2 := by
  rw [BitVec.toNat_append, BitVec.toNat_append, ← Nat.shiftLeft_add_eq_or_of_lt (1#5).isLt,
    ← Nat.shiftLeft_add_eq_or_of_lt (0#1).isLt]
  simp only [Nat.shiftLeft_eq, BitVec.toNat_ofNat]
  omega

theorem nextPcN_eq (n : Nat) (pc : Word) :
    nextPcN n pc = if (pc.extractLsb' 1 5).toNat < n then pc + 2 else (pc.extractLsb' 6 58 + 1) ++ 1#5 ++ 0#1 := by
  unfold nextPcN
  rw [slotOf_eq]
  split
  · rfl
  · refine BitVec.eq_of_toNat_eq ?_
    rw [toNat_slotOne, BitVec.toNat_add, BitVec.extractLsb'_toNat, Nat.shiftRight_eq_div_pow, BitVec.toNat_ofNat]
    simp only [BitVec.ofNat_eq_ofNat, BitVec.toNat_ofNat]
    omega

/-! ### Fetching a line (R60, R62) -/

theorem State.linePoison_none (s : State) (v : VtId) (a : Nat) (h : ∀ k, k < 8 → s.sramPois v (a + 8 * k) = false) :
    s.linePoison v a = none := by
  simpa [State.linePoison] using h

/-- A line that passes the checks of R62 is read from the instruction store. -/
theorem State.readLine_ok (s : State) (c : CtxId) (pc form res : Word) (hf : fetchable pc = true)
    (hb : s.bankWait c (lineOf pc) = none) (hp : s.linePoison c.vt (lineOf pc) = none)
    (hl : lineOk (s.lineAt c.vt (lineOf pc)) = true) :
    s.readLine c pc form res = .ok (s.lineAt c.vt (lineOf pc)) := by
  simp [State.readLine, hf, hb, hp, hl]

/-- A context that holds no line enters the one it reads, where its PC names a head of it. -/
theorem State.fetch_entered (s : State) (c : CtxId) (l : Vec) (hn : (s.ctx c).line = none)
    (hr : s.readLine c (s.ctx c).pc (s.ctx c).pc (BitVec.ofNat 64 (lineOf (s.ctx c).pc)) = .ok l)
    (h0 : slotOf (s.ctx c).pc ≠ 0) (hz : fld (s.ctx c).pc.toNat 0 1 = 0) (hs : slotOf (s.ctx c).pc ≤ headCount l) :
    s.fetch c = .ok (lineOf (s.ctx c).pc, l) := by
  simp [State.fetch, hn, hr, h0, hz, Nat.not_lt.mpr hs]

/-- What a fetch answers is the line of the PC. -/
theorem State.fetch_fst (s : State) (c : CtxId) (l : Nat × Vec) (h : s.fetch c = .ok l) : l.1 = lineOf (s.ctx c).pc := by
  unfold State.fetch at h
  simp only at h
  split at h
  · cases h
  · split at h
    · cases h
    · cases h; rfl

/-! ### Going on and holding a line (R335, R338) -/

theorem State.complete_eq (s : State) (c : CtxId) : s.complete c = s.putCtx c ((s.ctx c).goto (s.nextPc c)) := rfl

/-- Outside a swarm a context alone holds the line it entered. -/
theorem State.holdLine_alone (s : State) (c : CtxId) (l : Nat × Vec) (h : (s.ctx c).member = none) :
    s.holdLine c l = s.putCtx c { s.ctx c with line := some l } := by
  simp [State.holdLine, h, State.modCtx_eq]

end Sys2Proof.Machine
end

section
open Sys2Proof Sys2Proof.Machine Sys2Proof.Claims

namespace Sys2Proof.Proofs

theorem nextPc : NextPc := fun s c => nextPcN_eq (headCount (s.lineOfPc c)) (s.ctx c).pc

theorem fetchReadsTheStore : FetchReadsTheStore := by
  intro s c pc a l hline hbank hlo hhi hpois hok hslot hbit hhead
  have hf : fetchable pc = true := by
    simp only [fetchable, Bool.and_eq_true, decide_eq_true_eq]
    exact ⟨hlo, hhi⟩
  exact s.fetch_entered c l hline (s.readLine_ok c pc _ _ hf hbank (s.linePoison_none c.vt a hpois) hok)
    (slotOf_ne_zero pc hslot) (fld_zero_of_getLsbD pc hbit) (slotOf_eq pc ▸ hhead)

theorem goingOn : GoingOn := by
  constructor
  · intro s c
    rw [s.complete_eq c, State.ctx_putCtx_same]
    exact ⟨fun d hd => s.ctx_putCtx_other c d _ hd, rfl, wentOn_goto _ id rfl rfl _, Ctx.goto_placedAs _ _⟩
  · intro s c l h
    refine ⟨s.fetch_fst c l h, fun hm => ?_⟩
    rw [s.holdLine_alone c l hm, State.ctx_putCtx_same]
    exact ⟨rfl, fun d hd => s.ctx_putCtx_other c d _ hd⟩

/-- Settles O36: the fields of the PC give NextPC, the checks of R62 let the fetch through, and going on replaces one record. -/
theorem sequencingAndFetch : Obligations.SequencingAndFetch := ⟨nextPc, fetchReadsTheStore, goingOn⟩

end Sys2Proof.Proofs
end

section
/-! PROOFS. The integer operations 0x00 to 0x0F as operations on bit vectors of their width (R110 to R112). -/

namespace Sys2Proof.Machine

open Claims

/-! ### Operands and results of one width (R111) -/

/-- xa and xb of R111: what an operand of k bits stands for, signed or with `.n` unsigned. -/
def operandValue (n : Bool) {k : Nat} (a : BitVec k) : Int := if n then a.toNat else a.toInt

@[simp] theorem operandValue_signed {k : Nat} (a : BitVec k) : operandValue false a = a.toInt := rfl
@[simp] theorem operandValue_unsigned {k : Nat} (a : BitVec k) : operandValue true a = a.toNat := rfl

@[simp] theorem ofInt_operandValue (n : Bool) {k : Nat} (a : BitVec k) : BitVec.ofInt k (operandValue n a) = a := by
  cases n <;> simp

/-- Read either way, only zero stands for zero. -/
theorem operandValue_eq_zero (n : Bool) {k : Nat} (a : BitVec k) : operandValue n a = 0 ↔ a = 0 := by
  cases n
  · simp [← BitVec.toInt_inj]
  · simp [BitVec.toNat_eq]

theorem sx_eq_toInt {k : Nat} (hk : 0 < k) (x : Nat) : sx k x = (BitVec.ofNat k x).toInt := by
  obtain ⟨m, rfl⟩ := Nat.exists_eq_succ_of_ne_zero hk.ne'
  have hpow : 2 ^ (m + 1) = 2 * 2 ^ m := by rw [Nat.pow_succ, Nat.mul_comm]
  simp only [sx, BitVec.toInt_eq_toNat_cond, BitVec.toNat_ofNat, Nat.succ_eq_add_one, Nat.add_sub_cancel]
  rw [if_neg (Nat.succ_ne_zero m)]
  have hiff : x % 2 ^ (m + 1) < 2 ^ m ↔ 2 * (x % 2 ^ (m + 1)) < 2 ^ (m + 1) := by omega
  simp only [hiff, Nat.cast_pow, Nat.cast_ofNat]

theorem sx_toNat {k j : Nat} (hk : 0 < k) (a : BitVec j) : sx k a.toNat = (a.setWidth k).toInt := by
  rw [sx_eq_toInt hk, BitVec.ofNat_toNat]

theorem opVal_eq {k : Nat} (hk : 0 < k) (n : Bool) (a : Word) : opVal k n a = operandValue n (a.setWidth k) := by
  cases n
  · exact sx_toNat hk a
  · simp [opVal]

/-- Only the low k bits of an unbounded result matter. -/
theorem ofNat_wrap (k j : Nat) (r : Int) : BitVec.ofNat j (wrap k r) = (BitVec.ofInt k r).setWidth j := by
  rw [← BitVec.ofNat_toNat, BitVec.toNat_ofInt]
  simp [wrap]

theorem opResult_eq (w n : Bool) (r : Int) :
    opResult w n r =
      if w then if n then (BitVec.ofInt 32 r).setWidth 64 else (BitVec.ofInt 32 r).signExtend 64
      else BitVec.ofInt 64 r := by
  have hsigned : toWord (sx 32 (wrap 32 r)) = (BitVec.ofInt 32 r).signExtend 64 := by
    rw [sx_eq_toInt (by decide), ofNat_wrap, BitVec.setWidth_eq]
    rfl
  cases w <;> cases n <;> simp [opResult, opWidth, ofNat_wrap, hsigned]

/-! ### Each operation on k bits -/

/-- An operation of R111 writes, modulo 2^k, what f computes from the low k bits of its operands. -/
def AluOp.Computes (op : AluOp) (f : Bool → (k : Nat) → BitVec k → BitVec k → BitVec k) : Prop :=
  ∀ (n : Bool) (k : Nat), 0 < k → ∀ a b : Word,
    BitVec.ofInt k (op.eval k n a b) = f n k (a.setWidth k) (b.setWidth k)

open AluOp (Computes)

/-- A result that k bits hold is written as it is. -/
theorem ofInt_toNat {k : Nat} (a : BitVec k) : BitVec.ofInt k (a.toNat : Int) = a := by simp

/-- A result is written modulo 2^k. -/
theorem ofInt_eq_of_emod_eq {k : Nat} {x y : Int} (h : x % 2 ^ k = y % 2 ^ k) : BitVec.ofInt k x = BitVec.ofInt k y :=
  BitVec.eq_of_toNat_eq (by simp [BitVec.toNat_ofInt, h])

theorem add_computes : Computes .add (fun _ _ a b => a + b) := by
  intro n k hk a b
  simp [AluOp.eval, ← BitVec.toNat_setWidth, BitVec.ofInt_add]

theorem sub_computes : Computes .sub (fun _ _ a b => a - b) := by
  intro n k hk a b
  simp [AluOp.eval, ← BitVec.toNat_setWidth, Int.sub_eq_add_neg, BitVec.ofInt_add, BitVec.ofInt_neg, BitVec.sub_eq_add_neg]

theorem mul_computes : Computes .mul (fun _ _ a b => a * b) := by
  intro n k hk a b
  simp [AluOp.eval, ← BitVec.toNat_setWidth, BitVec.ofInt_mul]

theorem and_computes : Computes .and (fun _ _ a b => a &&& b) := by
  intro n k hk a b
  simp only [AluOp.eval, ← BitVec.toNat_setWidth, ← BitVec.toNat_and, ofInt_toNat]

theorem or_computes : Computes .or (fun _ _ a b => a ||| b) := by
  intro n k hk a b
  simp only [AluOp.eval, ← BitVec.toNat_setWidth, ← BitVec.toNat_or, ofInt_toNat]

theorem xor_computes : Computes .xor (fun _ _ a b => a ^^^ b) := by
  intro n k hk a b
  simp only [AluOp.eval, ← BitVec.toNat_setWidth, ← BitVec.toNat_xor, ofInt_toNat]

theorem andn_computes : Computes .andn (fun _ _ a b => a &&& ~~~b) := by
  intro n k hk a b
  simp only [AluOp.eval, ← BitVec.toNat_setWidth, ← BitVec.toNat_allOnes, ← BitVec.toNat_xor, ← BitVec.toNat_and,
    ofInt_toNat, BitVec.xor_allOnes]

/-! Shifts: the count is taken modulo the width. -/

theorem shl_computes : Computes .shl (fun _ k a b => a <<< (b.toNat % k)) := by
  intro n k hk a b
  simp only [AluOp.eval, ← BitVec.toNat_setWidth]
  rw [← ofInt_toNat (_ <<< _)]
  refine ofInt_eq_of_emod_eq ?_
  simp only [BitVec.toNat_shiftLeft, Nat.shiftLeft_eq]
  push_cast
  rw [Int.emod_emod_of_dvd _ dvd_rfl]

theorem shr_computes : Computes .shr (fun _ k a b => a >>> (b.toNat % k)) := by
  intro n k hk a b
  simp only [AluOp.eval, ← BitVec.toNat_setWidth, ← Nat.shiftRight_eq_div_pow, ← BitVec.toNat_ushiftRight, ofInt_toNat]

theorem sar_computes : Computes .sar (fun _ k a b => a.sshiftRight (b.toNat % k)) := by
  intro n k hk a b
  simp only [AluOp.eval, ← BitVec.toNat_setWidth, sx_toNat hk, BitVec.setWidth_eq]
  rw [← BitVec.ofInt_toInt (x := BitVec.sshiftRight _ _), BitVec.toInt_sshiftRight, Int.shiftRight_eq_div_pow]
  norm_cast

/-- A register beside itself, shifted right: its low half is the rotation. -/
theorem ofNat_doubled_shiftRight {k : Nat} (a : BitVec k) {c : Nat} (hc : c < k) :
    BitVec.ofNat k ((a.toNat * 2 ^ k + a.toNat) / 2 ^ c) = a.rotateRight c := by
  have hdoubled : a.toNat * 2 ^ k + a.toNat = (a ++ a).toNat := by
    rw [BitVec.toNat_append, ← Nat.shiftLeft_add_eq_or_of_lt a.isLt, Nat.shiftLeft_eq]
  rw [hdoubled, ← Nat.shiftRight_eq_div_pow]
  ext i hi
  rw [← BitVec.getLsbD_eq_getElem, ← BitVec.getLsbD_eq_getElem, BitVec.getLsbD_rotateRight, Nat.mod_eq_of_lt hc]
  simp only [BitVec.getLsbD_ofNat, Nat.testBit_shiftRight, BitVec.testBit_toNat, BitVec.getLsbD_append, hi, decide_true,
    Bool.true_and]
  by_cases hlow : c + i < k
  · rw [if_pos hlow, decide_eq_true (show i < k - c by omega), cond_true]
  · rw [if_neg hlow, decide_eq_false (show ¬ i < k - c by omega), cond_false, show c + i - k = i - (k - c) by omega]

theorem rot_computes : Computes .rot (fun _ k a b => a.rotateRight (b.toNat % k)) := by
  intro n k hk a b
  simp only [AluOp.eval, ← BitVec.toNat_setWidth, BitVec.ofInt_natCast]
  exact ofNat_doubled_shiftRight _ (Nat.mod_lt _ hk)

/-! The upper half of a product. -/

/-- Of a number written in 2k bits, the upper k are the quotient by 2^k, modulo 2^k. -/
theorem setWidth_ofInt_ushiftRight (k : Nat) (x : Int) :
    ((BitVec.ofInt (k + k) x) >>> k).setWidth k = BitVec.ofInt k (x / 2 ^ k) := by
  have hdigit : x % (2 ^ k * 2 ^ k) / 2 ^ k % 2 ^ k = x / 2 ^ k % 2 ^ k := by
    rw [Int.emod_def x, mul_assoc, Int.sub_mul_ediv_left _ _ (by positivity), Int.sub_mul_emod_self_left]
  rw [← ofInt_eq_of_emod_eq hdigit, ← pow_add, ← BitVec.ofNat_toNat, BitVec.toNat_ushiftRight, BitVec.toNat_ofInt,
    Nat.shiftRight_eq_div_pow, ← BitVec.ofInt_natCast]
  push_cast
  rw [Int.toNat_of_nonneg (Int.emod_nonneg _ (by positivity))]

theorem upperHalf_eq (n : Bool) {k : Nat} (a b : BitVec k) :
    upperHalf n k a b = BitVec.ofInt k (operandValue n a * operandValue n b / 2 ^ k) := by
  rw [← setWidth_ofInt_ushiftRight, BitVec.ofInt_mul]
  cases n
  · rfl
  · simp [upperHalf]

theorem mulh_computes : Computes .mulh (fun n k a b => upperHalf n k a b) := by
  intro n k hk a b
  simp only [AluOp.eval, opVal_eq hk, upperHalf_eq]

/-! Division truncates, and division by zero has its own results. -/

theorem div_computes : Computes .div (fun n k a b => quotient n k a b) := by
  intro n k hk a b
  simp only [AluOp.eval, opVal_eq hk, operandValue_eq_zero, quotient]
  split
  · rw [← ofInt_toNat (BitVec.allOnes k), BitVec.toNat_allOnes, Nat.cast_pred (by positivity)]
    simp
  · cases n
    · refine BitVec.eq_of_toInt_eq ?_
      simp only [operandValue_signed, Bool.false_eq_true, if_false, BitVec.toInt_ofInt, BitVec.toInt_sdiv]
    · simp only [operandValue_unsigned, if_true, ← Int.ofNat_tdiv]
      exact ofInt_toNat (BitVec.udiv _ _)

theorem rem_computes : Computes .rem (fun n k a b => remainder n k a b) := by
  intro n k hk a b
  simp only [AluOp.eval, opVal_eq hk, operandValue_eq_zero, remainder, ← Int.tmod_def]
  split
  · exact ofInt_operandValue n _
  · cases n
    · rw [operandValue_signed, operandValue_signed, ← BitVec.toInt_srem]
      exact BitVec.ofInt_toInt
    · rw [operandValue_unsigned, operandValue_unsigned, ← Int.ofNat_tmod, ← BitVec.toNat_umod]
      exact ofInt_toNat _

theorem atMost_iff (n : Bool) {k : Nat} (a b : BitVec k) : atMost n a b = true ↔ operandValue n a ≤ operandValue n b := by
  cases n
  · exact BitVec.sle_iff_toInt_le
  · simp [atMost, BitVec.ule_iff_toNat_le]

theorem min_computes : Computes .min (fun n _ a b => if atMost n a b then a else b) := by
  intro n k hk a b
  simp only [AluOp.eval, opVal_eq hk, apply_ite (BitVec.ofInt k), ofInt_operandValue, atMost_iff]

theorem max_computes : Computes .max (fun n _ a b => if atMost n a b then b else a) := by
  intro n k hk a b
  simp only [AluOp.eval, opVal_eq hk, apply_ite (BitVec.ofInt k), ofInt_operandValue, atMost_iff]

/-! ### The instructions -/

theorem AluOp.Computes.alu_eq {op : AluOp} {f : Bool → (k : Nat) → BitVec k → BitVec k → BitVec k} (h : Computes op f)
    (w n : Bool) (a b : Word) : alu op w n a b = byWidth w n (f n) a b := by
  rw [alu, opResult_eq]
  cases w
  · simp [byWidth, opWidth, h n 64 (by decide)]
  · simp [byWidth, opWidth, h n 32 (by decide)]

/-- Instructions that run an operation in its three forms write what it computes and complete (R110, R111). -/
theorem AluOp.Computes.intForms {op : AluOp} {f : Bool → (k : Nat) → BitVec k → BitVec k → BitVec k} (h : Computes op f)
    {reg : AluR → Instr} {i16 : AluI16 → Instr} {i32 : AluI32 → Instr}
    (hreg : ∀ o s, exec (reg o) s = aluReg op o s := by intros; rfl)
    (hi16 : ∀ o s, exec (i16 o) s = aluImm16 op o s := by intros; rfl)
    (hi32 : ∀ o s, exec (i32 o) s = aluImm32 op o s := by intros; rfl) : intForms reg i16 i32 f := by
  intro s
  refine ⟨fun o => ?_, fun o _ => ?_, fun o _ => ?_⟩
  · simp only [hreg, aluReg, h.alu_eq]
    exact completes_wg s _ _
  · simp only [hi16, aluImm16, h.alu_eq]
    exact completes_wg s _ _
  · simp only [hi32, aluImm32, h.alu_eq]
    exact completes_wg s _ _

end Sys2Proof.Machine
end

section
open Sys2Proof Sys2Proof.Machine Sys2Proof.Claims

namespace Sys2Proof.Proofs

theorem addSubMul : AddSubMul :=
  ⟨add_computes.intForms, sub_computes.intForms, mul_computes.intForms⟩

theorem bitwiseLogic : BitwiseLogic :=
  ⟨and_computes.intForms, or_computes.intForms, xor_computes.intForms, andn_computes.intForms⟩

theorem shifts : Shifts :=
  ⟨shl_computes.intForms, shr_computes.intForms, sar_computes.intForms, rot_computes.intForms⟩

theorem highProductDivisionOrder : HighProductDivisionOrder :=
  ⟨mulh_computes.intForms, div_computes.intForms, rem_computes.intForms, min_computes.intForms, max_computes.intForms⟩

/-- Settles O2: at every width, r of R111 modulo 2^w is what the bit-vector operation makes of the low w bits of the operands;
the three forms extend it to a register, write it and go on. -/
theorem integerArithmetic : Obligations.IntegerArithmetic :=
  ⟨addSubMul, bitwiseLogic, shifts, highProductDivisionOrder⟩

end Sys2Proof.Proofs
end

section
/-! PROOFS. What the lane instructions write (R154 to R168): a merge of their lane function into
the destination (R155). -/

namespace Sys2Proof

theorem VTy.width_pos (t : VTy) : 0 < t.width := by cases t <;> decide

theorem VTy.lanes_le (t : VTy) : t.lanes ≤ 64 := by cases t <;> decide

end Sys2Proof

namespace Sys2Proof.Machine

open Claims

/-! ### Lanes as numbers (R154, R157) -/

theorem lane_lt (v : Vec) (w i : Nat) : lane v w i < 2 ^ w := Nat.mod_lt _ (Nat.two_pow_pos w)

@[simp] theorem lane_zero (w i : Nat) : lane 0 w i = 0 := by
  simp only [lane, fld, BitVec.ofNat_eq_ofNat, BitVec.toNat_zero, Nat.zero_div, Nat.zero_mod]

theorem wrap_lt (w : Nat) (r : Int) : wrap w r < 2 ^ w := by
  have hpos : (0 : Int) < 2 ^ w := by positivity
  have hlt := Int.emod_lt_of_pos r hpos
  have hnonneg := Int.emod_nonneg r hpos.ne'
  unfold wrap
  zify
  rwa [Int.toNat_of_nonneg hnonneg]

/-- The integer that a code stands for is the code modulo 2^w, read signed or not. -/
theorem wrap_intValue (signed : Bool) {w : Nat} (hw : 0 < w) (c : Nat) : wrap w (intValue signed w c) = c % 2 ^ w := by
  have hnat : ((c % 2 ^ w : Nat) : Int) % 2 ^ w = (c % 2 ^ w : Nat) := by
    simp
  have hmod : intValue signed w c % 2 ^ w = (c % 2 ^ w : Nat) := by
    cases signed
    · exact hnat
    · simp only [intValue, sx, if_true, if_neg hw.ne']
      split
      · exact hnat
      · rw [Int.sub_emod_right, hnat]
  rw [wrap, hmod, Int.toNat_natCast]

/-- The integer of a lane goes back into the lane unchanged. -/
theorem laneSat_laneInt (t : VTy) (c : Nat) : laneSat t false (laneInt t c) = c % 2 ^ t.width :=
  wrap_intValue t.isSigned t.width_pos c

theorem laneSat_mod (t : VTy) (sat : Bool) (r : Int) : laneSat t sat r % 2 ^ t.width = laneSat t sat r :=
  Nat.mod_eq_of_lt (wrap_lt _ _)

/-! ### Completion with lanes written (R155, R48) -/

/-- Only what an instruction makes of the acting context's own record matters. -/
theorem completes_congr {s : State} {r : Step} {f g : Ctx → Ctx} (h : completes s r f)
    (e : f (s.ctx s.cur) = g (s.ctx s.cur)) : completes s r g := by
  unfold completes at h ⊢
  rwa [← e]

/-- An instruction that merges the lanes f into its destination and steps `csrng` by its draws writes f. -/
theorem writesLanes_of_merge {s : State} {r : Step} {d : VReg} {om : GReg} {t : VTy} {rm : RMode} {n : Nat}
    {f : Ctx → List Nat → Nat → Nat}
    (h : r = .next (s.finish (fun x => { x.wv d.toNat (laneMerge (x.mask om) t.width (x.rv d.toNat)
      (f x (drawsFor rm n x.csrng).1)) with csrng := (drawsFor rm n x.csrng).2 }))) :
    writesLanes s r d om t rm n f := by
  subst h
  refine ⟨_, completes_congr (completes_finish s _ rfl rfl rfl) rfl, fun i hi => ?_⟩
  simp only [lane_laneMerge _ t _ _ i hi, Ctx.mask_bit _ om i (lt_of_lt_of_le hi t.lanes_le)]

/-- The same where no number is drawn. -/
theorem movesLanes_of_merge {s : State} {r : Step} {d : VReg} {om : GReg} {t : VTy} {f : Ctx → Nat → Nat}
    (h : r = .next (s.finish (fun x => x.wv d.toNat (laneMerge (x.mask om) t.width (x.rv d.toNat) (f x))))) :
    movesLanes s r d om t f :=
  writesLanes_of_merge h

/-- Only the low bits of what each lane receives matter. -/
theorem movesLanes_congr {s : State} {r : Step} {d : VReg} {om : GReg} {t : VTy} {f g : Ctx → Nat → Nat}
    (h : movesLanes s r d om t g) (e : ∀ x i, i < t.lanes → g x i % 2 ^ t.width = f x i % 2 ^ t.width) :
    movesLanes s r d om t f := by
  obtain ⟨w, hc, hw⟩ := h
  exact ⟨w, hc, fun i hi => by rw [hw i hi, e _ i hi]⟩

/-- What a lane receives of an operation of R164 on the codes a, b and c. -/
def VOp.result (op : VOp) (t : VTy) (rm : RMode) (sat : Bool) (a b c r : Nat) : Nat :=
  if t.isF then op.lane t.fmt a b c rm sat r else laneSat t sat (op.int (laneInt t a) (laneInt t b) (laneInt t c))

/-- `vadd`, `vsub` and `vmul` write the results of their operation; they have no third operand. -/
theorem writesLanes_of_vecArith {op : VOp} {o : VArith} {s : State} {r : Step} (h : r = vecArith op o s) :
    writesLanes s r o.d o.om o.vt o.rm (op.draws o.vt)
      (fun x rs i => op.result o.vt o.rm o.sat (ln o.vt o.a x i) (ln o.vt o.b x i) 0 (rs.getD i 0)) := by
  have hm := writesLanes_of_merge (f := fun x rs i =>
    op.result o.vt o.rm o.sat (ln o.vt o.a x i) (ln o.vt o.b x i) (lane 0 o.vt.width i) (rs.getD i 0)) h
  simpa only [lane_zero] using hm

/-- `vmin` and `vmax` write the results of their operation. -/
theorem movesLanes_of_vecMinMax {op : VOp} {o : VBin} {s : State} {r : Step} (h : r = vecMinMax op o s) :
    movesLanes s r o.d o.om o.vt (fun x i => op.result o.vt .rne false (ln o.vt o.a x i) (ln o.vt o.b x i) 0 0) := by
  have hm := movesLanes_of_merge (f := fun x i =>
    op.result o.vt .rne false (ln o.vt o.a x i) (ln o.vt o.b x i) (lane 0 o.vt.width i) 0) h
  simpa only [lane_zero] using hm

/-- An operation that chooses one of two lanes as integers gives that lane. -/
theorem VOp.result_of_choice (op : VOp) (t : VTy) (a b : Nat) {x y : Nat} {p : Prop} [Decidable p]
    (h : op.int (laneInt t a) (laneInt t b) (laneInt t 0) = if p then laneInt t x else laneInt t y) :
    op.result t .rne false a b 0 0 % 2 ^ t.width =
      (if t.isF then op.lane t.fmt a b 0 .rne false 0 else if p then x else y) % 2 ^ t.width := by
  unfold VOp.result
  split
  · rfl
  · rw [h, laneSat_mod]
    split <;> exact laneSat_laneInt t _

end Sys2Proof.Machine
end

section
open Sys2Proof Sys2Proof.Machine Sys2Proof.Claims

namespace Sys2Proof.Proofs

theorem laneArithmetic : LaneArithmetic := by
  intro s n v
  refine ⟨fun o => writesLanes_of_vecArith (op := .add) rfl, fun o => writesLanes_of_vecArith (op := .sub) rfl,
    fun o => writesLanes_of_vecArith (op := .mul) rfl, fun o => writesLanes_of_merge rfl,
    fun o => movesLanes_congr (movesLanes_of_vecMinMax (op := .min) rfl)
      (fun _ _ _ => VOp.result_of_choice .min o.vt _ _ rfl),
    fun o => movesLanes_congr (movesLanes_of_vecMinMax (op := .max) rfl)
      (fun _ _ _ => VOp.result_of_choice .max o.vt _ _ rfl),
    fun o => ?_⟩
  simp only [Int.abs_eq_natAbs]
  exact movesLanes_of_merge rfl

theorem laneBitsShiftsMoves : LaneBitsShiftsMoves := by
  intro s count
  exact ⟨fun o => movesLanes_of_merge rfl, fun o => movesLanes_of_merge rfl, fun o => movesLanes_of_merge rfl,
    fun o => movesLanes_of_merge rfl, fun o => movesLanes_of_merge rfl, fun o => movesLanes_of_merge rfl,
    fun o => movesLanes_of_merge rfl⟩

/-- Settles O11: each instruction merges its lane function into its destination, and the merge holds on every lane what
R155 says. -/
theorem laneOperations : Obligations.LaneOperations := ⟨laneArithmetic, laneBitsShiftsMoves⟩

end Sys2Proof.Proofs
end

section
/-! PROOFS. The lanes that slides, insertions and comparisons give (R167, R175, R176). -/

namespace Sys2Proof.Machine

open Claims

/-- A merge depends on the low bits of its lane function alone. -/
theorem laneMerge_congr {m : Word} {t : VTy} {old : Vec} {f g : Nat → Nat} (h : ∀ i, i < t.lanes → f i = g i) :
    laneMerge m t.width old f = laneMerge m t.width old g := by
  unfold laneMerge lanes
  congr 1
  refine List.foldr_ext _ _ _ (fun i hi acc => ?_)
  simp only [h i (List.mem_range.mp hi)]

/-- Sliding down: lane i comes from lane i + k of a followed by b. -/
theorem laneSlide_down (t : VTy) (m : Word) (old a b : Vec) (count : Word) :
    laneSlide t false m old a b count = laneMerge m t.width old (fun i =>
      let j := i + min count.toNat (2 * t.lanes)
      if j < t.lanes then lane a t.width j else if j < 2 * t.lanes then lane b t.width (j - t.lanes) else 0) := by
  refine laneMerge_congr (fun i hi => ?_)
  simp only [Bool.false_eq_true, if_false]
  rcases Nat.lt_or_ge (i + min count.toNat (2 * t.lanes)) t.lanes with hj | hj
  · have hj2 : i + min count.toNat (2 * t.lanes) < 2 * t.lanes := by omega
    simp only [if_pos hj, if_pos hj2]
  · simp only [if_neg (Nat.not_lt.mpr hj)]

/-- Sliding up: lane i comes from lane n + i − k of b followed by a. -/
theorem laneSlide_up (t : VTy) (m : Word) (old a b : Vec) (count : Word) :
    laneSlide t true m old a b count = laneMerge m t.width old (fun i =>
      let k := min count.toNat (2 * t.lanes)
      if k ≤ i then lane a t.width (i - k) else if k ≤ t.lanes + i then lane b t.width (t.lanes + i - k) else 0) := by
  refine laneMerge_congr (fun i hi => ?_)
  simp only [if_true]
  generalize min count.toNat (2 * t.lanes) = k
  rcases Nat.lt_or_ge i k with hk | hk
  · rw [if_neg (Nat.not_le.mpr hk)]
    rcases Nat.lt_or_ge (t.lanes + i) k with hn | hn
    · rw [if_neg (Nat.not_le.mpr hn), if_neg (fun h => Nat.not_le.mpr hn h.1)]
    · rw [if_pos hn, if_pos ⟨hn, by omega⟩, if_pos (by omega)]
  · rw [if_pos hk, if_pos ⟨by omega, by omega⟩, if_neg (by omega), show t.lanes + i - k - t.lanes = i - k by omega]

/-- The lanes of a register after one of them is replaced (R176). -/
theorem lane_laneIns (t : VTy) (old : Vec) (k v i : Nat) (hi : i < t.lanes) :
    lane (laneIns t old k v) t.width i = if i = k then v % 2 ^ t.width else lane old t.width i := by
  rw [laneIns, lane_lanes _ _ _ _ hi (width_mul_lanes t).le, apply_ite (· % 2 ^ t.width),
    Nat.mod_eq_of_lt (lane_lt _ _ _)]

/-- Bit i of a word that is put together from bits. -/
theorem getLsbD_maskWord {n : Nat} (hn : n ≤ 64) (f : Nat → Bool) (i : Nat) :
    (maskWord n f).getLsbD i = (decide (i < n) && f i) := by
  have hsum : (List.range n).foldr (fun i acc => (f i).toNat * 2 ^ i + acc) 0 =
      (List.range n).foldr (fun i acc => (f i).toNat % 2 * 2 ^ i + acc) 0 := by
    simp only [Nat.mod_eq_of_lt (Bool.toNat_lt _)]
  have hlt := Nat.lt_of_lt_of_le (digits_lt 1 (fun i => (f i).toNat) n)
    (Nat.pow_le_pow_right (by decide) (by omega : 1 * n ≤ 64))
  have hget := digits_get 1 (fun i => (f i).toNat) (List.range n) List.pairwise_lt_range i
  simp only [Nat.one_mul, Nat.pow_one, List.mem_range] at hlt hget
  rw [maskWord, hsum, BitVec.getLsbD, BitVec.toNat_ofNat, Nat.mod_eq_of_lt hlt, Nat.testBit_eq_decide_div_mod_eq, hget]
  cases hf : f i <;> simp

/-- A code of a lane as a g register holds it (R132). -/
theorem laneToReg_of_lt {t : VTy} {c : Nat} (h : c < 2 ^ t.width) :
    laneToReg t c = if t.isF then BitVec.ofNat 64 c else BitVec.ofInt 64 (valOf t c) := by
  rw [laneToReg, Nat.mod_eq_of_lt h]
  rfl

/-- Writing a g register leaves `csrng`. -/
theorem Ctx.wg_csrng (x : Ctx) (d : Nat) (w : Word) : { x.wg d w with csrng := x.csrng } = x.wg d w := by
  unfold Ctx.wg
  split <;> rfl

/-- Bit i of the mask that OM names, as one truth value (R155). -/
theorem Ctx.getLsbD_mask (x : Ctx) (om : GReg) {i : Nat} (hi : i < 64) :
    (x.mask om).getLsbD i = (decide (om = 0) || (x.rg om.toNat).getLsbD i) := by
  rw [Bool.eq_iff_iff, Ctx.mask_bit x om i hi, Bool.or_eq_true, decide_eq_true_eq]

end Sys2Proof.Machine
end

section
open Sys2Proof Sys2Proof.Machine Sys2Proof.Claims

namespace Sys2Proof.Proofs

theorem laneMovement : LaneMovement := by
  intro s idx
  refine ⟨fun o => movesLanes_of_merge rfl, fun o => movesLanes_of_merge rfl, fun o hup => movesLanes_of_merge ?_,
    fun o hup => movesLanes_of_merge ?_, fun o => ?_,
    fun o _ => ⟨_, completes_congr (completes_wv s _ _) rfl, fun i hi => ?_⟩⟩
  · have he : exec (.vslide o) s = execVslide o s := rfl
    simp only [he, execVslide, vecInstr, hup, laneSlide_down]
    rfl
  · have he : exec (.vslide o) s = execVslide o s := rfl
    simp only [he, execVslide, vecInstr, hup, laneSlide_up]
    rfl
  · refine completes_congr (completes_wg s _ _) ?_
    exact congrArg _ (laneToReg_of_lt (lane_lt _ _ _))
  · exact lane_laneIns _ _ _ _ _ hi

end Sys2Proof.Proofs
end

section
/-! PROOFS. Every code that a format delivers is a code of the format, for the formats of lanes (R35, R46 to R49). -/

namespace Sys2Proof

open Claims

/-- What the formats of class F lanes have in common: an IEEE layout with infinity and NaN below the sign bit. -/
structure FFmt.Layout (f : FFmt) : Prop where
  ieee : f.ieee = true
  signed : f.signed = true
  hasInf : f.hasInf = true
  pos : 0 < f.bits
  small : f.maxCode + 1 + 2 ^ (f.t - 1) < 2 ^ (f.bits - 1)

theorem VTy.fmt_layout {t : VTy} (h : t.isF = true) : t.fmt.Layout := by
  cases t
  case f32 => exact ⟨rfl, rfl, rfl, by decide, by decide⟩
  case bf16 => exact ⟨rfl, rfl, rfl, by decide, by decide⟩
  case h16 => exact ⟨rfl, rfl, rfl, by decide, by decide⟩
  all_goals cases h

theorem VTy.fmt_bits {t : VTy} (h : t.isF = true) : t.fmt.bits = t.width := by
  cases t
  case f32 | bf16 | h16 => rfl
  all_goals cases h

theorem VTy.fmt_nanCode {t : VTy} (h : t.isF = true) : t.fmt.nanCode = canonicalNan t.fmt := by
  cases t
  case f32 | bf16 | h16 => rfl
  all_goals cases h

namespace FFmt.Layout

variable {f : FFmt} (h : f.Layout)
include h

/-- Infinity and NaN leave the sign bit free. -/
theorem room : f.maxCode + 1 < 2 ^ (f.bits - 1) ∧ f.maxCode + 1 + 2 ^ (f.t - 1) < 2 ^ (f.bits - 1) ∧
    2 ^ (f.bits - 1) + 2 ^ (f.bits - 1) = 2 ^ f.bits ∧ 0 < 2 ^ (f.bits - 1) :=
  ⟨(Nat.le_add_right _ _).trans_lt h.small, h.small, Nat.two_pow_pred_add_two_pow_pred h.pos, Nat.two_pow_pos _⟩

theorem nanCode_lt : f.nanCode < 2 ^ f.bits := by
  have hroom := h.room
  simp only [FFmt.nanCode, h.ieee, if_true]
  omega

theorem infCode_eq (neg : Bool) : f.infCode neg = f.maxCode + 1 + (if neg then 2 ^ (f.bits - 1) else 0) := by
  simp only [FFmt.infCode, h.ieee, h.hasInf, if_true]

theorem infCode_lt (neg : Bool) : f.infCode neg < 2 ^ f.bits := by
  have hroom := h.room
  rw [h.infCode_eq]
  split <;> omega

theorem maxFinite_lt (neg : Bool) : f.maxFinite neg < 2 ^ f.bits := by
  have hroom := h.room
  unfold FFmt.maxFinite
  split <;> omega

theorem overflow_lt (neg : Bool) (rm : RMode) : f.overflow neg rm < 2 ^ f.bits := by
  cases rm
  case rtz => exact h.maxFinite_lt neg
  case rdn => cases neg <;> [exact h.maxFinite_lt false; exact h.infCode_lt true]
  case rup => cases neg <;> [exact h.infCode_lt false; exact h.maxFinite_lt true]
  all_goals exact h.infCode_lt neg

theorem signed0_lt (neg : Bool) {mag : Nat} (hm : mag ≤ f.maxCode) : f.signed0 neg mag < 2 ^ f.bits := by
  have hroom := h.room
  unfold FFmt.signed0
  split <;> omega

/-- The code of a signed zero. -/
theorem signed0_zero (neg : Bool) : f.signed0 neg 0 = if neg then 2 ^ (f.bits - 1) else 0 := by
  simp only [FFmt.signed0, h.signed, h.ieee, Bool.and_true, Bool.true_or, Nat.zero_add]

/-- A rounded value is a code of the format. -/
theorem round_lt (x : Ex) (rm : RMode) (sat : Bool) (r : Nat) : (f.round x rm sat r).1 < 2 ^ f.bits := by
  simp only [FFmt.round, h.signed, Bool.not_true, Bool.and_false, Bool.false_eq_true, if_false]
  split
  · cases sat
    · exact h.overflow_lt _ _
    · exact h.maxFinite_lt _
  · next hle => exact h.signed0_lt _ (Nat.le_of_not_lt hle)

theorem finish_lt (a : Arith) (rm : RMode) (sat : Bool) (r : Nat) : (f.finish a rm sat r).1 < 2 ^ f.bits := by
  cases a with
  | nan nv => exact h.nanCode_lt
  | inf neg dz =>
    cases sat
    · exact h.infCode_lt neg
    · exact h.maxFinite_lt neg
  | zero neg => exact h.signed0_lt neg (Nat.zero_le _)
  | val x => exact h.round_lt x rm sat r

theorem fminmax_lt (isMax : Bool) (a b : Nat) : fminmax isMax f a b < 2 ^ f.bits := by
  have hmod : ∀ c, c % 2 ^ f.bits < 2 ^ f.bits := fun c => Nat.mod_lt c (Nat.two_pow_pos _)
  simp only [fminmax]
  split
  · split
    · exact h.nanCode_lt
    · exact hmod b
  · split
    · exact hmod a
    · exact hmod _

end FFmt.Layout

end Sys2Proof
end

section
/-! PROOFS. The exact sum of R171 before its rounding. -/

namespace Sys2Proof.Machine

open Claims

/-- Whether every value is finite. -/
def AllFinite (vs : List Fl) : Prop := ∀ v ∈ vs, ∃ neg m e, v = .fin neg m e

/-- The lower of an exponent and that of a value. -/
def lowerExp (acc : Int) : Fl → Int
  | .fin _ _ e => min acc e
  | _ => acc

/-- A sum of units 2^e with a value added. -/
def addUnits (e acc : Int) : Fl → Int
  | .fin n m e' => if n then acc - (m * 2 ^ (e' - e).toNat : Nat) else acc + (m * 2 ^ (e' - e).toNat : Nat)
  | _ => acc

/-- Whether a value is a zero. -/
def isZero : Fl → Bool
  | .fin _ m _ => decide (m = 0)
  | _ => false

theorem sumExact_eq (vs : List Fl) :
    sumExact vs = (vs.foldl (addUnits (vs.foldl lowerExp 0)) 0, vs.foldl lowerExp 0) := rfl

/-- No finite value has an exponent below the lowest. -/
theorem foldl_lowerExp_le (vs : List Fl) (acc : Int) :
    vs.foldl lowerExp acc ≤ acc ∧ ∀ neg m e, .fin neg m e ∈ vs → vs.foldl lowerExp acc ≤ e := by
  induction vs generalizing acc with
  | nil => simp
  | cons v vs ih =>
    obtain ⟨hacc, hmem⟩ := ih (lowerExp acc v)
    rw [List.foldl_cons]
    have hv : lowerExp acc v ≤ acc := by
      cases v
      case fin n m e => exact min_le_left _ _
      all_goals exact le_refl _
    refine ⟨hacc.trans hv, fun neg m e h => ?_⟩
    rcases List.mem_cons.mp h with rfl | h
    · exact hacc.trans (min_le_right _ _)
    · exact hmem neg m e h

/-- Adding units of 2^e adds the values, where no exponent is below e. -/
theorem foldl_addUnits (e : Int) (vs : List Fl) (acc : Int) (hfin : AllFinite vs)
    (hle : ∀ neg m e', .fin neg m e' ∈ vs → e ≤ e') :
    ((vs.foldl (addUnits e) acc : Int) : ℚ) * 2 ^ e = acc * 2 ^ e + total vs := by
  induction vs generalizing acc with
  | nil => simp [total]
  | cons v vs ih =>
    obtain ⟨neg, m, e', rfl⟩ := hfin v List.mem_cons_self
    have hstep : ((addUnits e acc (.fin neg m e') : Int) : ℚ) * 2 ^ e =
        acc * 2 ^ e + (if neg then -1 else 1) * (m : ℚ) * 2 ^ e' := by
      have hnonneg : 0 ≤ e' - e := sub_nonneg.mpr (hle neg m e' List.mem_cons_self)
      have hpow : (2 : ℚ) ^ (e' - e).toNat * 2 ^ e = 2 ^ e' := by
        rw [← zpow_natCast, Int.toNat_of_nonneg hnonneg, ← zpow_add₀ two_ne_zero, sub_add_cancel]
      rw [← hpow]
      cases neg <;> simp [addUnits] <;> ring
    have htail := ih (addUnits e acc (.fin neg m e')) (fun w h => hfin w (List.mem_cons_of_mem _ h))
      (fun n m e h => hle n m e (List.mem_cons_of_mem _ h))
    rw [List.foldl_cons, htail, hstep, add_assoc]
    rfl

/-- The exact sum is the sum of the values. -/
theorem sumExact_total (vs : List Fl) (hfin : AllFinite vs) :
    ((sumExact vs).1 : ℚ) * 2 ^ (sumExact vs).2 = total vs := by
  rw [sumExact_eq]
  have h := foldl_addUnits (vs.foldl lowerExp 0) vs 0 hfin (foldl_lowerExp_le vs 0).2
  simpa only [Int.cast_zero, zero_mul, zero_add] using h

theorem sumExact_eq_zero_iff (vs : List Fl) (hfin : AllFinite vs) : (sumExact vs).1 = 0 ↔ total vs = 0 := by
  rw [← sumExact_total vs hfin]
  simp [zpow_ne_zero]

/-- What a sum is before its rounding, by the special values among its operands. -/
theorem sumA_eq (vs : List Fl) (rm : RMode) :
    sumA vs rm =
      if .nan ∈ vs then .nan false
      else if .inf false ∈ vs then (if .inf true ∈ vs then .nan false else .inf false false)
      else if .inf true ∈ vs then .inf true false
      else if (sumExact vs).1 = 0 then
        .zero (if vs.all isZero then !vs.isEmpty && vs.all Fl.isNeg else decide (rm = .rdn))
      else .val ⟨decide ((sumExact vs).1 < 0), (sumExact vs).1.natAbs, (sumExact vs).2, false⟩ := by
  have hany : ∀ v, (vs.any (fun w => decide (w = v)) = true) = (v ∈ vs) := fun v => by simp
  simp only [sumA, hany]
  rfl

theorem sumA_nan {vs : List Fl} (h : .nan ∈ vs ∨ (.inf false ∈ vs ∧ .inf true ∈ vs)) (rm : RMode) :
    sumA vs rm = .nan false := by
  rw [sumA_eq]
  by_cases hnan : .nan ∈ vs
  · rw [if_pos hnan]
  · obtain ⟨hpos, hneg⟩ := h.resolve_left hnan
    rw [if_neg hnan, if_pos hpos, if_pos hneg]

theorem sumA_inf {vs : List Fl} {neg : Bool} (hnan : .nan ∉ vs) (hinf : .inf neg ∈ vs) (hother : .inf (!neg) ∉ vs)
    (rm : RMode) : sumA vs rm = .inf neg false := by
  rw [sumA_eq, if_neg hnan]
  cases neg
  · rw [if_pos hinf, if_neg (show .inf true ∉ vs from hother)]
  · rw [if_neg (show .inf false ∉ vs from hother), if_pos hinf]

theorem AllFinite.not_nan_mem {vs : List Fl} (h : AllFinite vs) : .nan ∉ vs := fun hm => by
  obtain ⟨_, _, _, he⟩ := h _ hm
  cases he

theorem AllFinite.not_inf_mem {vs : List Fl} (h : AllFinite vs) (neg : Bool) : .inf neg ∉ vs := fun hm => by
  obtain ⟨_, _, _, he⟩ := h _ hm
  cases he

theorem sumA_finite {vs : List Fl} (h : AllFinite vs) (rm : RMode) :
    sumA vs rm =
      if (sumExact vs).1 = 0 then
        .zero (if vs.all isZero then !vs.isEmpty && vs.all Fl.isNeg else decide (rm = .rdn))
      else .val ⟨decide ((sumExact vs).1 < 0), (sumExact vs).1.natAbs, (sumExact vs).2, false⟩ := by
  rw [sumA_eq, if_neg h.not_nan_mem, if_neg (h.not_inf_mem false), if_neg (h.not_inf_mem true)]

theorem all_isZero_iff (vs : List Fl) : vs.all isZero = true ↔ ∀ v ∈ vs, ∃ neg e, v = .fin neg 0 e := by
  refine List.all_eq_true.trans (forall₂_congr fun v _ => ?_)
  cases v <;> simp [isZero]

/-- Among zeros, those with a negative sign. -/
theorem all_isNeg_iff {vs : List Fl} (h : vs.all isZero = true) :
    vs.all Fl.isNeg = true ↔ ∀ v ∈ vs, ∃ e, v = .fin true 0 e := by
  refine List.all_eq_true.trans (forall₂_congr fun v hv => ?_)
  obtain ⟨neg, e, rfl⟩ := (all_isZero_iff vs).mp h v hv
  simp [Fl.isNeg]

/-- The sign of a sum that is zero (R171). -/
def zeroSumNeg (vs : List Fl) (rm : RMode) : Bool :=
  if vs.all isZero then !vs.isEmpty && vs.all Fl.isNeg else decide (rm = .rdn)

theorem zeroSumNeg_of_minus {vs : List Fl} (hz : ∀ v ∈ vs, ∃ neg e, v = .fin neg 0 e) (hne : vs ≠ [])
    (hneg : ∀ v ∈ vs, ∃ e, v = .fin true 0 e) (rm : RMode) : zeroSumNeg vs rm = true := by
  have hall := (all_isZero_iff vs).mpr hz
  rw [zeroSumNeg, if_pos hall, (all_isNeg_iff hall).mpr hneg, List.isEmpty_eq_false_iff.mpr hne]
  rfl

theorem zeroSumNeg_of_zeros {vs : List Fl} (hz : ∀ v ∈ vs, ∃ neg e, v = .fin neg 0 e)
    (hneg : vs = [] ∨ ¬ ∀ v ∈ vs, ∃ e, v = .fin true 0 e) (rm : RMode) : zeroSumNeg vs rm = false := by
  have hall := (all_isZero_iff vs).mpr hz
  rw [zeroSumNeg, if_pos hall]
  rcases hneg with rfl | hneg
  · rfl
  · rw [Bool.eq_false_iff.mpr (mt (all_isNeg_iff hall).mp hneg), Bool.and_false]

theorem zeroSumNeg_of_cancelled {vs : List Fl} (hz : ¬ ∀ v ∈ vs, ∃ neg e, v = .fin neg 0 e) (rm : RMode) :
    zeroSumNeg vs rm = decide (rm = .rdn) := by
  rw [zeroSumNeg, if_neg (mt (all_isZero_iff vs).mp hz)]

theorem sumA_of_total_zero {vs : List Fl} (h : AllFinite vs) (h0 : total vs = 0) (rm : RMode) :
    sumA vs rm = .zero (zeroSumNeg vs rm) := by
  rw [sumA_finite h, if_pos ((sumExact_eq_zero_iff vs h).mpr h0), zeroSumNeg]

/-- The signed magnitude that is rounded is the exact sum. -/
theorem sumExact_signed (vs : List Fl) (hfin : AllFinite vs) :
    (if decide ((sumExact vs).1 < 0) then -1 else 1) * ((sumExact vs).1.natAbs : ℚ) * 2 ^ (sumExact vs).2 = total vs := by
  rw [← sumExact_total vs hfin]
  congr 1
  rcases lt_or_ge (sumExact vs).1 0 with h | h
  · simp [h, Nat.cast_natAbs, abs_of_neg h]
  · simp [not_lt.mpr h, Nat.cast_natAbs, abs_of_nonneg h]

end Sys2Proof.Machine
end

section
/-! PROOFS. Combining the codes of lanes, reductions and scans (R170 to R172). -/

namespace Sys2Proof.Machine

open Claims

/-! ### Combining codes (R170) -/

theorem enabledLanes_lt {t : VTy} {m : Word} {a : Vec} {c : Nat} (h : c ∈ enabledLanes t m a) : c < 2 ^ t.width := by
  obtain ⟨i, -, rfl⟩ := List.mem_map.mp h
  exact lane_lt a t.width i

/-- Combined codes of a lane type are codes of it. -/
theorem redCombine_lt (op : RedOp) (t : VTy) (rm : RMode) (sat : Bool) (r : Nat) {a b : Nat} (ha : a < 2 ^ t.width)
    (hb : b < 2 ^ t.width) : redCombine op t rm sat r a b < 2 ^ t.width := by
  have hfinish : t.isF = true → ∀ x, (t.fmt.finish x rm sat r).1 < 2 ^ t.width := fun h x =>
    VTy.fmt_bits h ▸ (VTy.fmt_layout h).finish_lt x rm sat r
  have hchoice : t.isF = true → ∀ big, fminmax big t.fmt a b < 2 ^ t.width := fun h big =>
    VTy.fmt_bits h ▸ (VTy.fmt_layout h).fminmax_lt big a b
  cases op
  case and => exact (Nat.and_le_left).trans_lt ha
  case or => exact Nat.or_lt_two_pow ha hb
  case xor => exact Nat.xor_lt_two_pow ha hb
  all_goals
    simp only [redCombine]
    split
  case add.isTrue h => exact hfinish h _
  case min.isTrue h => exact hchoice h _
  case max.isTrue h => exact hchoice h _
  all_goals exact wrap_lt _ _

/-- The combination of R170 chooses the lower or the higher of two lanes as it stands. -/
theorem redCombine_eq_combined (op : RedOp) (t : VTy) (rm : RMode) (sat : Bool) (r : Nat) {a b : Nat}
    (ha : a < 2 ^ t.width) (hb : b < 2 ^ t.width) : redCombine op t rm sat r a b = combined op t rm sat r a b := by
  have hwrap : ∀ c, c < 2 ^ t.width → wrap t.width (laneInt t c) = c := fun c hc =>
    (wrap_intValue t.isSigned t.width_pos c).trans (Nat.mod_eq_of_lt hc)
  cases op
  case min => simp only [redCombine, combined, min_def, apply_ite (wrap t.width), hwrap a ha, hwrap b hb]; rfl
  case max => simp only [redCombine, combined, max_def, apply_ite (wrap t.width), hwrap a ha, hwrap b hb]; rfl
  all_goals rfl

theorem redIdentity_eq (op : RedOp) (t : VTy) : redIdentity op t = identityOf op t := by
  cases t <;> cases op <;> rfl

theorem identityOf_lt (op : RedOp) (t : VTy) : identityOf op t < 2 ^ t.width := by
  cases t <;> cases op <;> decide

/-- A fold over codes of a lane type is one over the combination of R170, and its result is a code. -/
theorem foldl_redCombine (op : RedOp) (t : VTy) (rm : RMode) (sat : Bool) (r : Nat) (xs : List Nat)
    (hxs : ∀ c ∈ xs, c < 2 ^ t.width) {x : Nat} (hx : x < 2 ^ t.width) :
    xs.foldl (redCombine op t rm sat r) x = xs.foldl (combined op t rm sat r) x ∧
      xs.foldl (redCombine op t rm sat r) x < 2 ^ t.width := by
  induction xs generalizing x with
  | nil => exact ⟨rfl, hx⟩
  | cons c xs ih =>
    have hc := hxs c List.mem_cons_self
    obtain ⟨heq, hlt⟩ := ih (fun d hd => hxs d (List.mem_cons_of_mem _ hd)) (redCombine_lt op t rm sat r hx hc)
    rw [List.foldl_cons, List.foldl_cons, ← redCombine_eq_combined op t rm sat r hx hc]
    exact ⟨heq, hlt⟩

/-! ### Reductions (R171) -/

/-- The numbers that a reduction draws (R48, R171). -/
theorem laneReduce_snd (op : RedOp) (t : VTy) (rm : RMode) (sat : Bool) (m : Word) (a : Vec) (rng : Word) :
    (laneReduce op t rm sat m a rng).2 = (drawsFor rm (if t.isF = true ∧ op = .add then 1 else 0) rng).2 := by
  simp only [laneReduce, Bool.and_eq_true, decide_eq_true_eq]

/-- No value rounded, no number drawn. -/
theorem drawsFor_zero_snd (rm : RMode) (rng : Word) : (drawsFor rm 0 rng).2 = rng := by
  cases rm <;> rfl

/-- A class I sum (R171). -/
theorem laneReduce_add_int {t : VTy} (h : t.isF = false) (rm : RMode) (sat : Bool) (m : Word) (a : Vec) (rng : Word) :
    (laneReduce .add t rm sat m a rng).1 =
      BitVec.ofInt 64 (valOf t (intLane t sat ((enabledLanes t m a).map (valOf t)).sum)) := by
  have hsum : ∀ (xs : List Nat) (acc : Int),
      xs.foldl (fun acc c => acc + laneInt t c) acc = acc + (xs.map (valOf t)).sum := by
    intro xs
    induction xs with
    | nil => simp
    | cons c xs ih =>
      intro acc
      simp only [List.foldl_cons, ih, List.map_cons, List.sum_cons, add_assoc]
      rfl
  simp only [laneReduce, h, Bool.false_eq_true, if_false, laneToReg, hsum, zero_add]
  rfl

/-- A class F sum: exact, then rounded once (R171). -/
theorem laneReduce_add_float {t : VTy} (h : t.isF = true) (rm : RMode) (sat : Bool) (m : Word) (a : Vec) (rng : Word) :
    (laneReduce .add t rm sat m a rng).1 = BitVec.ofNat 64 (t.fmt.finish (sumA ((enabledLanes t m a).map t.fmt.value) rm)
      rm sat ((drawsFor rm 1 rng).1.getD 0 0)).1 := by
  have hlt : ∀ x r, (t.fmt.finish x rm sat r).1 < 2 ^ t.width := fun x r =>
    VTy.fmt_bits h ▸ (VTy.fmt_layout h).finish_lt x rm sat r
  simp only [laneReduce, h, decide_true, Bool.and_true, if_true, laneToReg, Nat.mod_eq_of_lt (hlt _ _)]

/-- Codes folded in their order by the combination of R170. -/
def foldedCodes (op : RedOp) (t : VTy) (rm : RMode) (sat : Bool) : List Nat → Nat
  | [] => identityOf op t
  | c :: r => r.foldl (combined op t rm sat 0) c

/-- Every other reduction folds the enabled lanes (R171). -/
theorem laneReduce_fold {op : RedOp} (hop : op ≠ .add) (t : VTy) (rm : RMode) (sat : Bool) (m : Word) (a : Vec)
    (rng : Word) :
    (laneReduce op t rm sat m a rng).1 =
      if t.isF then BitVec.ofNat 64 (foldedCodes op t rm sat (enabledLanes t m a))
      else BitVec.ofInt 64 (valOf t (foldedCodes op t rm sat (enabledLanes t m a))) := by
  have hfold : (laneReduce op t rm sat m a rng).1 = laneToReg t (match enabledLanes t m a with
      | [] => redIdentity op t
      | c :: r => r.foldl (redCombine op t rm sat 0) c) := by
    cases op
    case add => exact absurd rfl hop
    all_goals rfl
  rw [hfold]
  cases hx : enabledLanes t m a with
  | nil =>
    show laneToReg t (redIdentity op t) = _
    rw [redIdentity_eq]
    exact laneToReg_of_lt (identityOf_lt op t)
  | cons c r =>
    have hlt : ∀ d ∈ c :: r, d < 2 ^ t.width := fun d hd => enabledLanes_lt (hx ▸ hd)
    obtain ⟨heq, hcode⟩ := foldl_redCombine op t rm sat 0 r (fun d hd => hlt d (List.mem_cons_of_mem _ hd))
      (hlt c List.mem_cons_self)
    show laneToReg t (r.foldl (redCombine op t rm sat 0) c) = _
    rw [laneToReg_of_lt hcode, heq]
    rfl

/-! ### Scans (R172) -/

section
variable (op : RedOp) (t : VTy) (rm : RMode) (sat : Bool) (m : Word) (a : Vec) (rs : List Nat)

/-- What has been folded when lane i has joined. -/
def scanNext (acc : Option Nat) (i : Nat) : Nat :=
  match acc with
  | none => lane a t.width i
  | some x => redCombine op t rm sat (rs.getD i 0) x (lane a t.width i)

/-- What the enabled ones of the first lanes fold to. -/
def scanFolded : Nat → Option Nat
  | 0 => none
  | i + 1 => if m.getLsbD i then some (scanNext op t rm sat a rs (scanFolded i) i) else scanFolded i

/-- What lane i receives. -/
def scanWritten (ex : Bool) (i : Nat) : Nat :=
  let acc := scanFolded op t rm sat m a rs i
  if m.getLsbD i then (if ex then acc.getD (redIdentity op t) else scanNext op t rm sat a rs acc i) else 0

/-- A scan writes lane by lane what has been folded so far (R172). -/
theorem scanCodes_eq (ex : Bool) :
    scanCodes op t rm sat ex m a rs = (List.range t.lanes).map (scanWritten op t rm sat m a rs ex) := by
  have hfold : ∀ n, (List.range n).foldl (fun (acc : Option Nat × List Nat) i =>
      if m.getLsbD i then
        (some (scanNext op t rm sat a rs acc.1 i),
          acc.2 ++ [if ex then acc.1.getD (redIdentity op t) else scanNext op t rm sat a rs acc.1 i])
      else (acc.1, acc.2 ++ [0])) (none, []) =
      (scanFolded op t rm sat m a rs n, (List.range n).map (scanWritten op t rm sat m a rs ex)) := by
    intro n
    induction n with
    | zero => rfl
    | succ n ih =>
      rw [List.range_succ, List.foldl_append, ih, List.map_append]
      simp only [List.foldl_cons, List.foldl_nil, List.map_cons, List.map_nil, scanFolded, scanWritten]
      split <;> rfl
  exact congrArg Prod.snd (hfold t.lanes)

theorem scanCodes_getD (ex : Bool) {i : Nat} (hi : i < t.lanes) :
    (scanCodes op t rm sat ex m a rs).getD i 0 = scanWritten op t rm sat m a rs ex i := by
  rw [scanCodes_eq]
  simp [List.getD_eq_getElem?_getD, hi]

theorem scanNext_lt {acc : Option Nat} (h : ∀ x, acc = some x → x < 2 ^ t.width) (i : Nat) :
    scanNext op t rm sat a rs acc i < 2 ^ t.width := by
  cases acc with
  | none => exact lane_lt a t.width i
  | some x => exact redCombine_lt op t rm sat _ (h x rfl) (lane_lt a t.width i)

theorem scanFolded_lt (n x : Nat) (h : scanFolded op t rm sat m a rs n = some x) : x < 2 ^ t.width := by
  induction n generalizing x with
  | zero => cases h
  | succ n ih =>
    rw [scanFolded] at h
    split at h
    · cases h
      exact scanNext_lt op t rm sat a rs ih n
    · exact ih x h

/-- The next lane joins by the combination of R170. -/
theorem scanNext_scanFolded (i : Nat) :
    scanNext op t rm sat a rs (scanFolded op t rm sat m a rs i) i = (match scanFolded op t rm sat m a rs i with
      | none => lane a t.width i
      | some x => combined op t rm sat (rs.getD i 0) x (lane a t.width i)) := by
  cases h : scanFolded op t rm sat m a rs i with
  | none => rfl
  | some x => exact redCombine_eq_combined op t rm sat _ (scanFolded_lt op t rm sat m a rs i x h) (lane_lt a t.width i)

end

end Sys2Proof.Machine
end

section
open Sys2Proof Sys2Proof.Machine Sys2Proof.Claims

namespace Sys2Proof.Proofs

theorem reductionValues : ReductionValues := by
  intro op vt rm sat m a rng on xs got F vs rs reg inf
  refine ⟨laneReduce_snd op vt rm sat m a rng, ?_, ?_, ?_⟩
  · rintro rfl hF
    have hreg : ∀ c, reg c = BitVec.ofNat 64 c := fun c => by simp only [reg, hF, if_true]
    have hsum : got.1 = BitVec.ofNat 64 (F.finish (sumA vs rm) rm sat (rs.1.getD 0 0)).1 := by
      have h := laneReduce_add_float hF rm sat m a rng
      simp only [rs, hF, and_self, if_true]
      exact h
    refine ⟨fun h => ?_, fun neg hnan hinf hother => ?_, fun hfin => ⟨fun h0 => ?_, fun h0 => ?_⟩⟩
    · rw [hsum, sumA_nan h, hreg, ← VTy.fmt_nanCode hF]
      rfl
    · rw [hsum, sumA_inf hnan hinf hother]
      rfl
    · have hzero : got.1 = BitVec.ofNat 64 (if zeroSumNeg vs rm then 2 ^ (vt.width - 1) else 0) := by
        rw [hsum, sumA_of_total_zero hfin h0, FFmt.finish, (VTy.fmt_layout hF).signed0_zero, VTy.fmt_bits hF]
      simp only [hreg, hzero]
      refine ⟨fun hz hne hneg => ?_, fun hz hneg => ?_, fun hz => ?_⟩
      · rw [zeroSumNeg_of_minus hz hne hneg]
        rfl
      · rw [zeroSumNeg_of_zeros hz hneg]
        rfl
      · simp only [zeroSumNeg_of_cancelled hz, decide_eq_true_eq]
        split <;> rfl
    · refine ⟨⟨decide ((sumExact vs).1 < 0), (sumExact vs).1.natAbs, (sumExact vs).2, false⟩, rfl,
        sumExact_signed vs hfin, ?_⟩
      rw [hsum, sumA_finite hfin, if_neg (mt (sumExact_eq_zero_iff vs hfin).mp h0), hreg]
      rfl
  · intro hop
    exact laneReduce_fold hop vt rm sat m a rng
  · intro ex ns
    refine ⟨scanFolded op vt rm sat m a ns, rfl, fun i hi => ⟨fun hm => ?_, fun hm => ⟨?_, ?_⟩⟩⟩
    · rw [scanFolded, hm]
      rfl
    · exact (if_pos hm).trans (congrArg some (scanNext_scanFolded op vt rm sat m a ns i))
    · rw [scanCodes_getD op vt rm sat m a ns ex hi, scanWritten, scanFolded, hm, redIdentity_eq]
      cases ex <;> rfl

theorem laneComparesAndReductions : LaneComparesAndReductions := by
  intro s x on
  have hred : ∀ o : VRed, completes s (exec (.vred o) s) (fun x =>
      let r := laneReduce o.op o.vt o.rm o.sat (x.mask o.om) (x.rv o.a.toNat) x.csrng
      { x.wg o.d.toNat r.1 with csrng := r.2 }) :=
    fun o => completes_finish s _ (Ctx.wg_pc _ _ _) (Ctx.wg_line _ _ _) (Ctx.wg_member _ _ _)
  refine ⟨fun o => ⟨_, completes_congr (completes_wg s _ _) rfl, fun i hi => ?_, fun i hi => ?_⟩,
    fun o hadd hI => ?_, fun o => completes_congr (hred o) rfl, fun o => writesLanes_of_merge ?_⟩
  · rw [laneCompare, getLsbD_maskWord o.vt.lanes_le, Ctx.getLsbD_mask x o.om (lt_of_lt_of_le hi o.vt.lanes_le)]
    simp only [hi, decide_true, Bool.true_and]
    rfl
  · rw [laneCompare, getLsbD_maskWord o.vt.lanes_le]
    simp only [Nat.not_lt.mpr hi, decide_false, Bool.false_and]
  · have hon : enabledLanes o.vt (x.mask o.om) (x.rv o.a.toNat) =
        ((List.range o.vt.lanes).filter (on o.om)).map (ln o.vt o.a x) :=
      congrArg (List.map (ln o.vt o.a x)) (List.filter_congr (fun i hi =>
        Ctx.getLsbD_mask x o.om (lt_of_lt_of_le (List.mem_range.mp hi) o.vt.lanes_le)))
    have hdraw : ¬ (o.vt.isF = true ∧ o.op = .add) := by simp [hI]
    have hval : laneReduce o.op o.vt o.rm o.sat (x.mask o.om) (x.rv o.a.toNat) x.csrng = (BitVec.ofInt 64 (intValue
        o.vt.isSigned o.vt.width (intLane o.vt o.sat (((List.range o.vt.lanes).filter (on o.om)).map (fun i =>
          valOf o.vt (ln o.vt o.a x i))).sum)), x.csrng) := by
      refine Prod.ext ?_ ?_
      · rw [hadd, laneReduce_add_int hI, hon, List.map_map]
        rfl
      · rw [laneReduce_snd, if_neg hdraw, drawsFor_zero_snd]
    exact completes_congr (hred o) ((congrArg (fun r : Word × Word =>
      ({ x.wg o.d.toNat r.1 with csrng := r.2 } : Ctx)) hval).trans (Ctx.wg_csrng x _ _))
  · have he : exec (.vscan o) s = execVscan o s := rfl
    simp only [he, execVscan, vecRound, laneScan, Bool.and_eq_true, decide_eq_true_eq]
    rfl

/-- Settles O12: the lanes moved are those that the description names, a float sum is the exact sum rounded once, and every
other reduction and each scan folds the enabled lanes in their order. -/
theorem laneMovesAndReductions : Obligations.LaneMovesAndReductions :=
  ⟨laneMovement, laneComparesAndReductions, reductionValues⟩

end Sys2Proof.Proofs
end
